-- ==== Sys2Proof/Word.lean ====
section
/-! DEFINITION. The byte of the links and of the image, and the plainest conversions between bytes and
numbers (R168: most significant byte first, signed numbers two's complement). -/
namespace Sys2Proof

/-- One byte of a link frame, of the image or of the load buffer. -/
abbrev Byte := BitVec 8

/-- A two-byte number as it stands in a CLOCK SET (R163). -/
abbrev Word16 := BitVec 16

/-- The low eight bits of a number, as one byte. -/
def byteOf (n : Nat) : Byte := BitVec.ofNat 8 n

/-- A number in two bytes, most significant first (R168). -/
def bytes16 (n : Nat) : List Byte := [byteOf (n / 256), byteOf n]

/-- A signed number in two bytes of two's complement, most significant first (R168). -/
def signed16 (n : Int) : List Byte := bytes16 (n % 65536).toNat

/-- A yes/no item: 00h no, 01h yes (R168). -/
def flagByte (b : Bool) : Byte := if b then 1 else 0

/-- The number in two bytes, most significant first (R168). -/
def word16 (hi lo : Byte) : Nat := 256 * hi.toNat + lo.toNat

end Sys2Proof
end

