-- ==== Sys2Proof/Syntax.lean ====
section
/-! DEFINITION. The commands of the part: one constructor for each row of spec/opcode_table.json. A request row
carries the link on which the request is received and the fields of its frame body (R163, R168). A row that is
an event of the part's own timers or of its inputs carries what the event needs to be named: the station, the
contactor, the tower channel, the new level, the results of the converters. -/
namespace Sys2Proof

/-- The two stations, and their links (section 0.5.1). A request received on Link X is a request of station X. -/
inductive Station where
  | A
  | B
  deriving DecidableEq, Repr

/-- The other station (section 0.6). -/
def Station.peer : Station → Station
  | .A => .B
  | .B => .A

/-- The part's commands, one for each row of the opcode table, in the table's order. -/
inductive Instr where
  /-- Application of power (R153). -/
  | powerOn
  /-- Assertion of the reset line (R153). -/
  | resetLine
  /-- The end of a power-on or reset-line reset, with the levels of the two rate straps (R155): true is high. -/
  | resetEnd (strap1 strap0 : Bool)
  /-- The end of the 100 ms start-up wait (R154). -/
  | startUp
  /-- A PATTERN REQUEST received on a link, naming a target (R22). -/
  | patternRequest (link : Station) (target : Byte)
  /-- A WITHDRAW received on a link (R47). -/
  | withdraw (link : Station)
  /-- A CONSENT REPLY with answer GRANT and a tag (R31). -/
  | grant (link : Station) (tag : Byte)
  /-- A CONSENT REPLY with answer DEFER and a tag (R32). -/
  | defer (link : Station) (tag : Byte)
  /-- A CONSENT POLICY request with its value (R164). -/
  | consentPolicy (link : Station) (policy : Byte)
  /-- A SCHEDULE POLICY request with its value (R143). -/
  | schedulePolicy (link : Station) (policy : Byte)
  /-- A STATUS QUERY (R166). -/
  | statusQuery (link : Station)
  /-- A MONITOR QUERY (R118). -/
  | monitorQuery (link : Station)
  /-- A CONTACTOR QUERY (R70). -/
  | contactorQuery (link : Station)
  /-- A CONTACTOR RELEASE naming a contactor index (R66). -/
  | contactorRelease (link : Station) (index : Byte)
  /-- A CLOCK SET with the five fields of the reading (R134). -/
  | clockSet (link : Station) (year day : Word16) (hour minute second : Byte)
  /-- A CLOCK QUERY (R135). -/
  | clockQuery (link : Station)
  /-- A LOAD OPEN with a block size (R147). -/
  | loadOpen (link : Station) (size : Byte)
  /-- A LOAD BLOCK with a block index and its data (R148). -/
  | loadBlock (link : Station) (index : Byte) (data : List Byte)
  /-- A LOAD COMMIT (R149). -/
  | loadCommit (link : Station)
  /-- A LOAD CANCEL (R147). -/
  | loadCancel (link : Station)
  /-- A READBACK OPEN with a block size (R151). -/
  | readbackOpen (link : Station) (size : Byte)
  /-- A READBACK BLOCK with a block index (R151). -/
  | readbackBlock (link : Station) (index : Byte)
  /-- A good frame whose first body byte is not a request kind, with the rest of its body (R163). -/
  | unknownKind (link : Station) (kind : Byte) (rest : List Byte)
  /-- The consent-wait timer runs out (R33). -/
  | consentWaitTimerExpiry
  /-- The defer timer runs out (R33). -/
  | deferTimerExpiry
  /-- A station's mute timer runs out (R36, R87). -/
  | muteTimerExpiry (station : Station)
  /-- The 100 ms ramp tick of a station (R74). -/
  | rampTick (station : Station)
  /-- The pulse time of the attempt in progress ends (R58). -/
  | pulseTimeEnd
  /-- The settle time of the attempt in progress ends (R59). -/
  | settleTimeEnd
  /-- The debounce event of a contactor (R53): `some true` is an input that has now held *made* for 20 ms, `some
  false` one that has held *open*, and `none` an input with nothing to report. -/
  | debounceEvent (contactor : Nat) (made0 made1 : Option Bool)
  /-- A station's RF present input has now held a level for 10 ms (R85). -/
  | rfPresentEvent (station : Station) (active : Bool)
  /-- The measurement in progress completes (R91 to R93): the amplitudes on its two channels, and the rising zero crossings
  detected on the reference channel and on the tower channel, each as the number of count-clock periods from the
  measurement's start. -/
  | measurementCompletion (rawReference rawTower : Nat) (referenceCrossings towerCrossings : List Nat)
  /-- A station's verify timer runs out (R124). -/
  | verifyTimerExpiry (station : Station)
  /-- A station's out-of-tolerance hold timer runs out (R128). -/
  | outOfToleranceHoldExpiry (station : Station)
  /-- The stale timer of channel Xk runs out, k being the tower (R114). -/
  | staleTimerExpiry (station : Station) (tower : Nat)
  /-- The one-second tick of the site clock (R133). -/
  | siteClockTick
  /-- A tick of the site clock that brings the second to 0 (R133, R139). -/
  | minuteTick
  /-- The load idle timer runs out (R148). -/
  | loadIdleTimerExpiry
  /-- The image write in progress completes (R152). -/
  | imageWriteCompletion
  /-- The last-state write in progress completes (R152). -/
  | lastStateWriteCompletion
  /-- A character is received on a link (R155, R156); `stopLow` marks a line error. -/
  | characterReceived (link : Station) (char : Byte) (stopLow : Bool)
  /-- A link's gap timer runs out (R158). -/
  | gapTimerExpiry (link : Station)
  /-- A link's receive line has been low for 2 character times (R162). -/
  | breakEvent (link : Station)
  /-- The character in transmission on a link ends (R161). -/
  | characterTransmitted (link : Station)
  /-- A link's idle running transmitter begins its next frame (R161). -/
  | frameTransmissionStart (link : Station)
  /-- A station's power-reference period begins (R84). -/
  | powerReferencePeriodStart (station : Station)
  /-- A link's receive line returns high after a break (R162). -/
  | lineReturnHigh (link : Station)
  deriving DecidableEq, Repr

end Sys2Proof
end

