-- ==== Sys2Proof/Decode.lean ====
section
/-! DEFINITION. The command that a word spells by the table's bits. No row of spec/opcode_table.json gives bits:
the part's commands are requests on serial links and events at its timers and inputs, and the frames of the
requests are taken byte by byte by the frame assembler (Machine/Link.lean). So no word spells a command. -/
namespace Sys2Proof

/-- The command a word of the opcode table spells: none, since no row of the table gives bits. -/
def decodeTableWord (_nbits _w : Nat) : Option Instr := none

end Sys2Proof
end

