-- ==== Sys2Proof/Config.lean ====
section
/-! DEFINITION. What the part fixes once: its times in units of elapsed time, the sizes of its
structures, the link rates, and the free values that no definition of the model can see into. -/
namespace Sys2Proof
namespace Config

/-- Elapsed time is counted in units of 1/576000000 s. That is the coarsest unit in which a microsecond (R84), a bit time
at each of the four link rates of R155 and a period of the 64 MHz count clock of R93 are whole numbers (DESIGN CHOICE, log
entry 2). -/
def unitsPerUs : Nat := 576

/-- `n` microseconds of elapsed time. -/
def us (n : Nat) : Nat := n * unitsPerUs

/-- The units of a millisecond. -/
def unitsPerMs : Nat := 576000

/-- `n` milliseconds of elapsed time. -/
def ms (n : Nat) : Nat := n * unitsPerMs

/-- `n` seconds of elapsed time. -/
def seconds (n : Nat) : Nat := n * (1000 * unitsPerMs)

/-- A ramp tick falls every 100 ms (R74). -/
def rampTick : Nat := ms 100

/-- A power-reference period is 1000 µs (R84). -/
def referencePeriod : Nat := ms 1

/-- A measurement takes 20 ms (R91). -/
def measurementTime : Nat := ms 20

/-- A period of the 64 MHz count clock (R93). -/
def countPeriod : Nat := 9

/-- The count-clock periods of a measurement (R91, R93). -/
def measurementCounts : Nat := measurementTime / countPeriod

/-- The phase timer holds each count to at most 8191 (R93). -/
def countMax : Nat := 8191

/-- Start-up waits 100 ms (R154 step 1). -/
def startUpWait : Nat := ms 100

/-- An image write takes 400 ms (R152). -/
def imageWriteTime : Nat := ms 400

/-- A last-state write takes 20 ms (R152). -/
def lastStateWriteTime : Nat := ms 20

/-- The load idle timer runs for 60 s (R147). -/
def loadIdleTime : Nat := seconds 60

/-- The image is 1097 bytes long (R146). -/
def imageSize : Nat := 1097

/-- The receive FIFO holds 64 bytes (R156). -/
def fifoSize : Nat := 64

/-- The FIFO level at which an XOFF is queued (R160). -/
def fifoHigh : Nat := 48

/-- The FIFO level at which an XON is queued (R160). -/
def fifoLow : Nat := 16

/-- The content of a frame holds at most 161 bytes: a body of 160 and the check byte (R157). -/
def contentMax : Nat := 161

/-- The notice queue holds 16 notices (R161). -/
def noticeQueueSize : Nat := 16

/-- A window holds at most eight samples (R103). -/
def windowSize : Nat := 8

/-- The retry hold is set to 10 minute ticks (R144). -/
def retryHoldTicks : Nat := 10

/-- FREE VALUE. When a reset cuts an image write short, each byte of the record is either the one before the
write or the one from the write (R151). `tornTakesNew n a` says, for the `n`-th draw, whether byte `a` is the
one from the write. The manual does not fix it, and nothing in the model constrains it (log entry 4). -/
opaque tornTakesNew : Nat → Nat → Bool

/-- FREE VALUE. When start-up ends with a completed frame held on both links, both frames are handed on at
that event (R159) and the manual does not say which first. `linkBFirst n` says, for the `n`-th draw, whether
Link B's frame is handed on first (log entry 5). -/
opaque linkBFirst : Nat → Bool

end Config
end Sys2Proof
end

