-- ==== Sys2Proof/Machine/State.lean ====
section
/-! DEFINITION. The state of the part as plain data: every register, buffer, queue, record, counter and timer the
manual gives each of its eight blocks, and `State.reset`. -/
namespace Sys2Proof
namespace Machine

/-! ### Shapes used throughout -/

/-- One value for each station, or for each link. -/
structure Pair (α : Type) where
  a : α
  b : α
  deriving DecidableEq, Repr

/-- A timer: stopped, or running with an expiry in elapsed time (`Config.unitsPerMs` units to a millisecond). -/
abbrev Timer := Option Nat

/-- A byte memory addressed from 0: the cells that differ from 00h, at strictly rising addresses. An unlisted
address reads as 00h (log entry 3). -/
abbrev Memory := List Host.Cell

/-- A contactor position: `k` stands for index `k + 1` (R1). -/
abbrev ContactorNo := Fin 16

/-- A pattern of a station: `p` stands for number `p + 1` (section 1.2). -/
abbrev PatternNo := Fin 4

/-- A monitored channel of a station: `i` stands for channel `X(i + 2)`, tower `i + 2` (R90). -/
abbrev TowerNo := Fin 5

/-- A set of stations. -/
abbrev StationSet := Pair Bool

/-! ### Array model (chapter 1) and Contactor Drive Unit (chapter 3) -/

/-- A known contactor position, 0 or 1. -/
inductive Side where
  | zero
  | one
  deriving DecidableEq, Repr

/-- A contactor's live state (R6). -/
inductive LiveState where
  | idle
  | pulsing
  | settling
  | failed
  deriving DecidableEq, Repr

/-- A contactor's failure kind (R6). -/
inductive FailureKind where
  | noFailure
  | stuck
  | disagree
  deriving DecidableEq, Repr

/-- The live fields of one contactor position (R6). A recorded position of `none` is UNKNOWN. -/
structure Live where
  position : Option Side
  state : LiveState
  failure : FailureKind
  deriving DecidableEq, Repr

/-- The debounced values of one contactor's auxiliary inputs (R53): `some true` is made, `some false` open, and
`none` no debounced value yet. -/
structure Aux where
  made0 : Option Bool
  made1 : Option Bool
  deriving DecidableEq, Repr

/-- The phases of one attempt (R55). -/
inductive AttemptPhase where
  | check
  | pulsing
  | settling
  deriving DecidableEq, Repr

/-- The move the coil driver holds (R55), with the end of its pulse or settle time. -/
structure Move where
  contactor : ContactorNo
  fromPos : Option Side
  toPos : Side
  attempt : Nat
  phase : AttemptPhase
  stop : Bool
  due : Nat
  deriving DecidableEq, Repr

/-- The outcome of a move (R60). -/
inductive MoveOutcome where
  | moved
  | stuck
  | disagree
  | refused
  | stopped
  deriving DecidableEq, Repr

/-! ### Transition Engine (chapter 2) -/

/-- The source of a pattern request (R22). -/
inductive Source where
  | manual
  | schedule
  deriving DecidableEq, Repr

/-- An entry of the pending list (R24). -/
structure PendingEntry where
  tag : Nat
  station : Station
  target : PatternNo
  source : Source
  deriving DecidableEq, Repr

/-- The outcome of a move-list entry (R26). -/
inductive EntryOutcome where
  | waiting
  | moved
  | stuck
  | disagree
  | notDone
  deriving DecidableEq, Repr

/-- An entry of the move list (R26). -/
structure MoveEntry where
  contactor : ContactorNo
  fromPos : Option Side
  toPos : Side
  outcome : EntryOutcome
  deriving DecidableEq, Repr

/-- A return level (R35); none is the absence of one. -/
inductive ReturnLevel where
  | full
  | fault
  deriving DecidableEq, Repr

/-- A station entry of the transition record (R26). -/
structure StationEntry where
  patternAtPlan : Option PatternNo
  returnLevel : Option ReturnLevel
  deriving DecidableEq, Repr

/-- The phases of an active transition (R26). -/
inductive Phase where
  | plan
  | consentWait
  | quiesce
  | switch
  | reverse
  | restore
  | confirm
  deriving DecidableEq, Repr

/-- The consent states (R26). -/
inductive ConsentState where
  | notNeeded
  | asked
  | deferred
  | granted
  deriving DecidableEq, Repr

/-- The results of a transition, in the order of the table of R51 and section 2.13. -/
inductive Result where
  | completed
  | completedReduced
  | withdrawn
  | superseded
  | conflict
  | contactorFailed
  | refusedByPeer
  | noConsent
  | muteTimeout
  | switchFaultReverted
  | switchFaultDark
  | rfDuringSwitch
  | arrayDisturbed
  deriving DecidableEq, Repr

/-- The cause of a reversal (R40, R48). -/
inductive ReversalCause where
  | withdraw
  | fault
  deriving DecidableEq, Repr

/-- The transition record (R26). `entries` holds a station entry for each station of the restore set. -/
structure Transition where
  tag : Nat
  station : Station
  target : PatternNo
  source : Source
  previous : Option PatternNo
  moves : List MoveEntry
  affected : StationSet
  entries : Pair (Option StationEntry)
  phase : Phase
  consent : ConsentState
  withdrawTaken : Bool
  cause : Option ReversalCause
  result : Option Result
  deriving DecidableEq, Repr

/-- A consent policy (R12). -/
inductive ConsentPolicy where
  | auto
  | ask
  | refuse
  deriving DecidableEq, Repr

/-! ### Carrier Control Units (chapters 4 and 7) -/

/-- The carrier states (R72). -/
inductive CarrierState where
  | normal
  | lowering
  | raising
  | held
  | verifying
  | reduced
  | dark
  deriving DecidableEq, Repr

/-- The purposes of a ramp (R72). -/
inductive RampPurpose where
  | hold
  | reduce
  | level
  | full
  | fault
  deriving DecidableEq, Repr

/-- A ramp in progress (R72). -/
structure Ramp where
  target : Nat
  purpose : RampPurpose
  stepPattern : PatternNo
  deriving DecidableEq, Repr

/-- An array, tower or quantity status (R110 to R112). -/
inductive Status where
  | inTolerance
  | advisory
  | unknown
  | out
  deriving DecidableEq, Repr

/-- The carrier record (R72) with the verification and supervision fields (R120), the outputs and the phases of the
unit's own periodic events. `verifyEntered` is the elapsed time of the last entry to VERIFYING (R123). -/
structure Carrier where
  state : CarrierState
  level : Nat
  ramp : Option Ramp
  verifyRequired : Bool
  muteConfirmed : Bool
  muteTimer : Timer
  rfNoticePosted : Bool
  rfPresent : Option Bool
  passCount : Nat
  verifyTimer : Timer
  verifyEntered : Nat
  holdTimer : Timer
  lastStatus : Status
  notifiedStatus : Status
  rampTimer : Timer
  dutyInForce : Nat
  periodTimer : Timer
  deriving DecidableEq, Repr

/-! ### Sample Acquisition and Conformance Units (chapters 5 and 6) -/

/-- A sample of a window (R103): a ratio in thousandths and a phase in tenths of a degree. -/
structure Sample where
  ratio : Nat
  phase : Int
  deriving DecidableEq, Repr

/-- A tower's figures (R103). -/
structure Figures where
  ratioAverage : Nat
  ratioDeviation : Int
  phaseDeviation : Int
  ratioMargin : Nat
  phaseMargin : Nat
  ratioStatus : Status
  phaseStatus : Status
  deriving DecidableEq, Repr

/-- A channel record (R103). The window count is the window's length. -/
structure Channel where
  window : List Sample
  staleTimer : Timer
  stale : Bool
  figures : Option Figures
  towerStatus : Status
  deriving DecidableEq, Repr

/-- A reference record (R100). -/
structure Reference where
  amplitude : Nat
  present : Bool
  deriving DecidableEq, Repr

/-- An entry of the scan list (R95). -/
structure ScanEntry where
  station : Station
  tower : TowerNo
  deriving DecidableEq, Repr

/-- The measurement in progress (R91), with the number of the station's scan stay at its start (R98). -/
structure Measurement where
  entry : ScanEntry
  referenceTrim : Int
  towerTrim : Int
  floor : Nat
  stay : Nat
  due : Nat
  deriving DecidableEq, Repr

/-- All that the Carrier Control Unit and the Conformance Unit hold for one station, with the station's active
pattern (R19) and the number of scan stays begun or ended so far (R98). -/
structure StationUnit where
  carrier : Carrier
  activePattern : Option PatternNo
  channels : Vector Channel 5
  reference : Reference
  arrayStatus : Status
  scanStay : Nat
  deriving DecidableEq, Repr

/-! ### Schedule Unit (chapter 8) -/

/-- A schedule policy (R12). -/
inductive SchedulePolicy where
  | auto
  | manual
  deriving DecidableEq, Repr

/-- A reading of the site clock (R133). -/
structure Reading where
  year : Nat
  day : Nat
  hour : Nat
  minute : Nat
  second : Nat
  deriving DecidableEq, Repr

/-- A determining occurrence (R138): an entry's number and the date for which it was taken. -/
structure Occurrence where
  entry : Nat
  year : Nat
  day : Nat
  deriving DecidableEq, Repr

/-- The occurrence a set override records (R140). -/
inductive Recorded where
  | unknown
  | noOccurrence
  | occurrence (o : Occurrence)
  deriving DecidableEq, Repr

/-- A station's override (R140). -/
inductive Override where
  | clear
  | set (recorded : Recorded)
  deriving DecidableEq, Repr

/-! ### Configuration Store (chapter 9) -/

/-- The load slot (R147): FREE, or held by a port in LOADING (`complete = false`) or COMPLETE. -/
inductive LoadSlot where
  | free
  | held (holder : Station) (size expected : Nat) (complete : Bool)
  deriving DecidableEq, Repr

/-- The condition of a retained record (R152). -/
inductive RecordCondition where
  | blank
  | torn
  | valid
  deriving DecidableEq, Repr

/-- The retained image record (R152): its condition and the bytes that stand in it. -/
structure ImageRecord where
  condition : RecordCondition
  bytes : Memory
  deriving DecidableEq, Repr

/-- The content of a last-state record (R152). -/
structure LastState where
  patternA : Option PatternNo
  patternB : Option PatternNo
  marker : Bool
  deriving DecidableEq, Repr

/-- The retained last-state record (R152): nothing reads its content while it is BLANK or TORN. -/
inductive LastRecord where
  | blank
  | torn
  | valid (content : LastState)
  deriving DecidableEq, Repr

/-- A write of the retained store (R152). -/
inductive WriteJob where
  | image (bytes : Memory)
  | lastState (content : LastState)
  deriving DecidableEq, Repr

/-- The write in progress, with the time of its completion (R152). -/
structure Writing where
  job : WriteJob
  due : Nat
  deriving DecidableEq, Repr

/-- The two resets of the whole part (R153). -/
inductive ResetKind where
  | powerOn
  | resetLine
  deriving DecidableEq, Repr

/-- Where the part stands between a reset and service (R153, R154): reset held, the start-up wait, or start-up
ended. -/
inductive PartPhase where
  | held (kind : ResetKind)
  | starting (kind : ResetKind)
  | running
  deriving DecidableEq, Repr

/-- The line rates of R155. -/
inductive LinkRate where
  | r9600
  | r19200
  | r38400
  | r115200
  deriving DecidableEq, Repr

/-! ### Station Link Ports (chapter 10) and notices (chapter 11) -/

/-- The cause carried by a CONTACTOR_FAULT notice (R167). -/
inductive FaultCause where
  | move
  | unexpected
  | release
  deriving DecidableEq, Repr

/-- A notice as it stands in a queue, with the fields of R167 and R168 in their order. -/
inductive Notice where
  | started (cause : ResetKind) (interrupted configured : Bool) (patternA patternB : Option PatternNo)
  | transitionStarted (tag : Nat) (requester : Station) (target : PatternNo) (source : Source) (moves : Nat)
  | transitionEnded (tag : Nat) (requester : Station) (target : PatternNo) (source : Source) (result : Result)
      (patternA patternB : Option PatternNo)
  | scheduleRequest (tag : Nat) (target : PatternNo) (occurrence : Occurrence)
  | consentQuery (tag : Nat) (requester : Station) (shared estimatedHold : Nat)
  | consentWithdrawn (tag : Nat)
  | carrierState (state : CarrierState) (level : Nat) (pattern : Option PatternNo) (ramp : Option Ramp)
      (muteConfirmed rfPresent : Bool)
  | arrayStatus (pattern : Option PatternNo) (status previous : Status) (towers : Vector Status 5)
  | verified (pattern : Option PatternNo) (verifyCount secondsVerifying : Nat)
  | verifyFailed (pattern : Option PatternNo) (passCount verifyCount : Nat) (lastStatus : Status)
  | outOfTolerance (pattern : Option PatternNo) (holdSeconds : Nat) (towersOut : Vector Bool 5)
  | contactorFault (contactor : ContactorNo) (live : Live) (cause : FaultCause)
  | rfWhileInhibited (state : CarrierState) (clock : Option Reading)
  | tableChanged (committer : Station)
  | clockSet (setter : Station) (previous : Option Reading) (reading : Reading)
  | loadExpired (size expected : Nat)
  deriving DecidableEq, Repr

/-- A byte of the receive FIFO with its loss mark (R156) and gap mark (R158). -/
structure FifoByte where
  byte : Byte
  loss : Bool
  gap : Bool
  deriving DecidableEq, Repr

/-- The states of the frame assembler (R157). -/
inductive AssemblerState where
  | hunt
  | opened
  | body
  | escape
  | discard
  deriving DecidableEq, Repr

/-- What the line has brought since the last delimiter, as the gap timer needs it (R158): no delimiter yet, a
delimiter alone, or a frame begun on the line. -/
inductive LineState where
  | noDelimiter
  | delimiter
  | begun
  deriving DecidableEq, Repr

/-- The flow characters (R156). -/
inductive FlowChar where
  | xon
  | xoff
  deriving DecidableEq, Repr

/-- The outgoing flow state (R160). -/
inductive FlowState where
  | xon
  | xoffSent
  deriving DecidableEq, Repr

/-- The frame in transmission (R161): the bytes not yet sent, and whether it is the reply. -/
structure TxFrame where
  rest : List Byte
  isReply : Bool
  deriving DecidableEq, Repr

/-- The character in transmission, with its end, and whether it is a reply frame's closing delimiter (R159). -/
structure TxChar where
  byte : Byte
  closesReply : Bool
  due : Nat
  deriving DecidableEq, Repr

/-- A Station Link Port (chapter 10). `reply` is the reply body in the slot. -/
structure Port where
  fifo : List FifoByte
  assembler : AssemblerState
  content : List Byte
  damaged : Bool
  heldFrame : Option (List Byte)
  line : LineState
  gapTimer : Timer
  lineLow : Bool
  reply : Option (List Byte)
  notices : List Notice
  lost : Nat
  dropped : Nat
  flowState : FlowState
  flowQueued : Option FlowChar
  running : Bool
  frame : Option TxFrame
  char : Option TxChar
  deriving DecidableEq, Repr

/-! ### The whole part -/

/-- Everything the part holds but its two link ports. -/
structure Plant where
  /-- Where the part stands between a reset and service (R153, R154). -/
  phase : PartPhase
  /-- Elapsed time (R133), in units of `Config.unitsPerMs` to a millisecond. -/
  elapsed : Nat
  /-- MODEL's own: how many free values have been drawn. -/
  freeDraws : Nat
  /-- The end of the start-up wait (R154). -/
  startUpTimer : Timer
  /-- The line rate of both links (R155). -/
  rate : LinkRate
  /-- The start-up cause (R154), absent from a reset until start-up records it. -/
  startUpCause : Option ResetKind
  /-- The INTERRUPTED flag (R154). -/
  interrupted : Bool
  /-- The active image (R146): the configuration state is CONFIGURED when there is one. -/
  image : Option Memory
  /-- The found image (R151). -/
  foundImage : Option Memory
  /-- The load slot (R147). -/
  loadSlot : LoadSlot
  /-- The load buffer (R147). -/
  loadBuffer : Memory
  /-- The load idle timer (R148). -/
  loadIdleTimer : Timer
  /-- Each port's readback (R151): CLOSED, or OPEN with a block size. -/
  readback : Pair (Option Nat)
  /-- The retained image record (R152). -/
  imageRecord : ImageRecord
  /-- The retained last-state record (R152). -/
  lastRecord : LastRecord
  /-- The write in progress (R152). -/
  writing : Option Writing
  /-- The write queue (R152), oldest first. -/
  writeQueue : List WriteJob
  /-- The tag counter (R23). -/
  tagCounter : Nat
  /-- The pending list (R24). -/
  pendingList : List PendingEntry
  /-- The transition record (R26). -/
  transition : Option Transition
  /-- The consent-wait timer (R30). -/
  consentTimer : Timer
  /-- The defer timer (R32). -/
  deferTimer : Timer
  /-- The live consent policies (R13). -/
  consentPolicy : Pair (Option ConsentPolicy)
  /-- The debounced auxiliary inputs (R53). -/
  aux : Vector Aux 16
  /-- The live contactor records (R6). -/
  contactors : Vector Live 16
  /-- The move held by the coil driver (R55). -/
  driver : Option Move
  /-- The two Carrier Control Units with the stations' conformance records and active patterns. -/
  stations : Pair StationUnit
  /-- The scan list (R95). -/
  scanList : List ScanEntry
  /-- The measurement in progress (R91). -/
  measurement : Option Measurement
  /-- The last entry (R97). -/
  lastEntry : Option ScanEntry
  /-- The site clock (R133): `none` is invalid. -/
  clock : Option Reading
  /-- The next tick of the site clock (R133). -/
  clockTimer : Timer
  /-- The live schedule policies (R13). -/
  schedulePolicy : Pair (Option SchedulePolicy)
  /-- The overrides (R140). -/
  override : Pair Override
  /-- The retry holds (R144). -/
  retryHold : Pair Nat
  deriving DecidableEq, Repr

/-- The state of the part, with the queue of the commands that are waiting, first in first out. -/
structure State extends Plant where
  /-- The Station Link Ports (chapter 10). -/
  ports : Pair Port
  /-- The host's queue of commands waiting to be taken. -/
  pending : List Instr
  deriving DecidableEq, Repr

/-- Why the part stops. Every command whose operands name something the part has goes on to a next state, so
these two are raised for operands that `Instr.wellFormed` refuses and for nothing else. -/
inductive Fault where
  /-- Raised by DEBOUNCE_EVENT naming a contactor index outside 1–16 (R1): the part has no such input. Safe: no run of
  the part contains such an event. -/
  | noSuchContactor
  /-- Raised by STALE_TIMER_EXPIRY naming a tower outside 2–6 (R103): the part has no such channel record. Safe, for
  the same reason. -/
  | noSuchChannel
  deriving DecidableEq, Repr

/-- Why a command has no meaning. -/
inductive Refusal where
  /-- Raised by an arm of `exec` that has no meaning yet. Safe. -/
  | notModelled (mnemonic : String)
  deriving DecidableEq, Repr

/-! ### Reset -/

/-- A carrier record after a power-on or reset-line reset (R72, R120, R84). -/
def Carrier.reset : Carrier where
  state := .dark
  level := 0
  ramp := none
  verifyRequired := true
  muteConfirmed := false
  muteTimer := none
  rfNoticePosted := false
  rfPresent := none
  passCount := 0
  verifyTimer := none
  verifyEntered := 0
  holdTimer := none
  lastStatus := .unknown
  notifiedStatus := .unknown
  rampTimer := none
  dutyInForce := 0
  periodTimer := none

/-- A channel record after a power-on or reset-line reset (R103). -/
def Channel.reset : Channel where
  window := []
  staleTimer := none
  stale := false
  figures := none
  towerStatus := .unknown

/-- One station's units after a power-on or reset-line reset (R19, R72, R100, R103, R112). -/
def StationUnit.reset : StationUnit where
  carrier := Carrier.reset
  activePattern := none
  channels := Vector.replicate 5 Channel.reset
  reference := ⟨0, false⟩
  arrayStatus := .unknown
  scanStay := 0

/-- A port after a power-on or reset-line reset (R156, R157, R160, R161). R157 gives the assembler HUNT and the dropped-frame
count 0 there, and no rule names the content, the damaged flag, a completed frame held, the gap timer, and a frame and a
character in transmission: that the reset clears them all is the model's choice (DESIGN CHOICE, log entry 42). -/
def Port.reset : Port where
  fifo := []
  assembler := .hunt
  content := []
  damaged := false
  heldFrame := none
  line := .noDelimiter
  gapTimer := none
  lineLow := false
  reply := none
  notices := []
  lost := 0
  dropped := 0
  flowState := .xon
  flowQueued := none
  running := true
  frame := none
  char := none

/-- The part, as delivered, while its power-on reset is held: every block at the reset values the manual states and
both retained records BLANK (R152). Log entry 1 says how a run goes on from here. -/
def State.reset : State where
  phase := .held .powerOn
  elapsed := 0
  freeDraws := 0
  startUpTimer := none
  rate := .r9600
  startUpCause := none
  interrupted := false
  image := none
  foundImage := none
  loadSlot := .free
  loadBuffer := []
  loadIdleTimer := none
  readback := ⟨none, none⟩
  imageRecord := ⟨.blank, []⟩
  lastRecord := .blank
  writing := none
  writeQueue := []
  tagCounter := 1
  pendingList := []
  transition := none
  consentTimer := none
  deferTimer := none
  consentPolicy := ⟨none, none⟩
  aux := Vector.replicate 16 ⟨none, none⟩
  contactors := Vector.replicate 16 ⟨none, .idle, .noFailure⟩
  driver := none
  stations := ⟨StationUnit.reset, StationUnit.reset⟩
  scanList := []
  measurement := none
  lastEntry := none
  clock := none
  clockTimer := none
  schedulePolicy := ⟨none, none⟩
  override := ⟨.clear, .clear⟩
  retryHold := ⟨0, 0⟩
  ports := ⟨Port.reset, Port.reset⟩
  pending := []

end Machine
end Sys2Proof
end

