-- ==== Sys2Proof/Machine/Ops.lean ====
section
/-! DEFINITION. The named operations every block is written over: the per-station pair, the byte memory, timers and
elapsed time, the working record of one event, and the posting of notices. -/
namespace Sys2Proof
namespace Machine

/-! ### Pairs and station sets -/

/-- The value of station `x`. -/
def Pair.get {α : Type} (p : Pair α) : Station → α
  | .A => p.a
  | .B => p.b

/-- The pair with station `x`'s value replaced. -/
def Pair.set {α : Type} (p : Pair α) (x : Station) (v : α) : Pair α :=
  match x with
  | .A => { p with a := v }
  | .B => { p with b := v }

/-- The same value for both stations. -/
def Pair.both {α : Type} (v : α) : Pair α := ⟨v, v⟩

/-- The stations of a set, A before B. -/
def StationSet.members (p : StationSet) : List Station :=
  (if p.a then [.A] else []) ++ (if p.b then [.B] else [])

/-- The stations for which something is recorded, A before B. -/
def Pair.recorded {α : Type} (p : Pair (Option α)) : List Station :=
  (if p.a.isSome then [.A] else []) ++ (if p.b.isSome then [.B] else [])

/-- The other position. -/
def Side.other : Side → Side
  | .zero => .one
  | .one => .zero

/-! ### The byte memory -/

/-- The byte at an address; an unlisted address reads as 00h (log entry 3). -/
def Memory.read (m : Memory) (a : Nat) : Byte :=
  match m with
  | [] => 0
  | (b, v) :: rest => if a = b then v else if a < b then 0 else Memory.read rest a

/-- The memory with one byte written; writing 00h removes the cell, so equal memories are equal data. -/
def Memory.write (m : Memory) (a : Nat) (v : Byte) : Memory :=
  match m with
  | [] => if v = 0 then [] else [(a, v)]
  | (b, u) :: rest =>
    if a < b then (if v = 0 then (b, u) :: rest else (a, v) :: (b, u) :: rest)
    else if a = b then (if v = 0 then rest else (a, v) :: rest)
    else (b, u) :: Memory.write rest a v

/-- Whether every cell stands at or above an address, strictly rising, and none holds 00h. -/
def Memory.wfFrom (low : Nat) (m : Memory) : Bool :=
  match m with
  | [] => true
  | (a, v) :: rest => decide (low ≤ a) && decide (v ≠ 0) && Memory.wfFrom (a + 1) rest

/-- The canonical form: addresses strictly rising, and no cell equal to what an unlisted address reads as. -/
def Memory.wf (m : Memory) : Bool := Memory.wfFrom 0 m

/-- The memory with bytes written from an address onward. -/
def Memory.writeBlock (m : Memory) (a : Nat) (bytes : List Byte) : Memory :=
  match bytes with
  | [] => m
  | v :: rest => Memory.writeBlock (Memory.write m a v) (a + 1) rest

/-- The `n` bytes from an address onward. -/
def Memory.readBlock (m : Memory) (a n : Nat) : List Byte :=
  (List.range n).map fun i => Memory.read m (a + i)

/-- A two-byte number at an address, most significant byte first (R168). -/
def Memory.read16 (m : Memory) (a : Nat) : Nat := word16 (Memory.read m a) (Memory.read m (a + 1))

/-- A signed byte (R168). -/
def Memory.readSigned8 (m : Memory) (a : Nat) : Int := (Memory.read m a).toInt

/-- A signed two-byte number, most significant byte first (R168). -/
def Memory.readSigned16 (m : Memory) (a : Nat) : Int :=
  let n := Memory.read16 m a
  if n < 32768 then (n : Int) else (n : Int) - 65536

/-! ### The working record of one event -/

/-- What one event works on: everything but the ports, with the notices it posts, in order. -/
structure Work extends Plant where
  posts : List (Station × Notice)
  deriving DecidableEq, Repr

/-- Post a notice to a station's queue (R167). -/
def Work.post (x : Station) (n : Notice) (w : Work) : Work := { w with posts := w.posts ++ [(x, n)] }

/-- Post a notice to each of some stations (R167). -/
def Work.postAll (xs : List Station) (n : Notice) (w : Work) : Work :=
  xs.foldl (fun w x => w.post x n) w

/-- Elapsed time has reached `t`: an event that the part's own time brings is taken at or after its time. -/
def Work.reach (t : Nat) (w : Work) : Work := { w with elapsed := max w.elapsed t }

/-- The event of a running timer is taken: elapsed time has reached its expiry. A stopped timer has no event. -/
def Work.whenDue (t : Timer) (f : Work → Work) (w : Work) : Work :=
  match t with
  | none => w
  | some due => f (w.reach due)

/-! ### The working record of one station -/

/-- What a station's own units work on: its records, with the notices they post to it, in order. -/
structure StationWork extends StationUnit where
  out : List Notice
  deriving DecidableEq, Repr

/-- What a station's own units read besides their records: whose they are, the active image and elapsed time. -/
structure Ctx where
  station : Station
  image : Memory
  now : Nat
  deriving DecidableEq, Repr

/-- Post a notice to the station concerned. -/
def StationWork.post (n : Notice) (w : StationWork) : StationWork := { w with out := w.out ++ [n] }

/-- The active image, as the blocks read it: all 00h when none is active, which no block then reads. -/
def Plant.activeImage (p : Plant) : Memory := p.image.getD []

/-- What station `x`'s units read at this event. -/
def Plant.ctx (p : Plant) (x : Station) : Ctx := ⟨x, p.activeImage, p.elapsed⟩

/-- Let station `x`'s units act; the notices they post go to `x`. -/
def Work.onStation (x : Station) (f : Ctx → StationWork → StationWork) (w : Work) : Work :=
  let r := f (w.toPlant.ctx x) { toStationUnit := w.stations.get x, out := [] }
  { w with stations := w.stations.set x r.toStationUnit, posts := w.posts ++ r.out.map fun n => (x, n) }

/-- Station `x`'s carrier record. -/
def Plant.carrier (p : Plant) (x : Station) : Carrier := (p.stations.get x).carrier

/-- Station `x`'s active pattern (R19). -/
def Plant.active (p : Plant) (x : Station) : Option PatternNo := (p.stations.get x).activePattern

/-! ### Notice queues -/

/-- A notice posted joins the queue, or is discarded from a full one and counted as lost (R161). -/
def Port.post (n : Notice) (p : Port) : Port :=
  if p.notices.length < Config.noticeQueueSize then { p with notices := p.notices ++ [n] }
  else { p with lost := min 255 (p.lost + 1) }

/-- Change one port. -/
def State.onPort (x : Station) (f : Port → Port) (s : State) : State :=
  { s with ports := s.ports.set x (f (s.ports.get x)) }

/-- Each posted notice joins its station's queue, in the order posted (R167). -/
def State.deliver (posts : List (Station × Notice)) (s : State) : State :=
  posts.foldl (fun s q => s.onPort q.1 (Port.post q.2)) s

/-- The state after an event's work: its records take hold and its notices join the queues. -/
def State.finish (w : Work) (s : State) : State :=
  State.deliver w.posts { s with toPlant := w.toPlant }

/-- The working record an event begins with. -/
def State.work (s : State) : Work := { toPlant := s.toPlant, posts := [] }

end Machine
end Sys2Proof
end

