-- ==== Sys2Proof/Machine/Image.lean ====
section
/-! DEFINITION. The configuration image: where each field stands (R168), and what the records mean (chapter 1). -/
namespace Sys2Proof
namespace Machine

/-! ### Contactor records (R1) -/

/-- A contactor's configuration record (R1); the times are in ms. -/
structure ContactorRecord where
  inUse : Bool
  carriesA : Bool
  carriesB : Bool
  rank : Nat
  pulse : Nat
  settle : Nat
  retries : Nat
  deriving DecidableEq, Repr

/-- The offset of a contactor record (R168). -/
def contactorBase (k : ContactorNo) : Nat := 8 + 8 * k.val

/-- Contactor `k`'s configuration record. A carrier set is a station set: A is bit 0, B is bit 1 (R168). -/
def contactorRecord (m : Memory) (k : ContactorNo) : ContactorRecord :=
  let b := contactorBase k
  let set := (Memory.read m (b + 1)).toNat
  { inUse := Memory.read m b == 1
    carriesA := set % 2 == 1
    carriesB := set / 2 % 2 == 1
    rank := (Memory.read m (b + 2)).toNat
    pulse := 10 * (Memory.read m (b + 3)).toNat
    settle := 10 * (Memory.read m (b + 4)).toNat
    retries := (Memory.read m (b + 5)).toNat }

/-- The carrier set of a contactor in use; one not in use carries no station (R2, R3). -/
def carrierSet (m : Memory) (k : ContactorNo) : StationSet :=
  let r := contactorRecord m k
  ⟨r.inUse && r.carriesA, r.inUse && r.carriesB⟩

/-- Station `x` is carried by contactor `k` (R3). -/
def carries (m : Memory) (k : ContactorNo) (x : Station) : Bool := (carrierSet m k).get x

/-- A shared contactor (R3). -/
def isShared (m : Memory) (k : ContactorNo) : Bool := carries m k .A && carries m k .B

/-- The stations carried by some of the contactors (R3). -/
def carriedBy (m : Memory) (ks : List ContactorNo) : StationSet :=
  ⟨ks.any fun k => carries m k .A, ks.any fun k => carries m k .B⟩

/-- One contactor comes before another, or is it, in move order (R4). -/
def movesBefore (m : Memory) (j k : ContactorNo) : Bool :=
  let rj := (contactorRecord m j).rank
  let rk := (contactorRecord m k).rank
  decide (rj < rk) || (rj == rk && decide (j.val ≤ k.val))

/-! ### Station sections: settings (R12) -/

/-- The base of a station's section (R168). -/
def sectionBase : Station → Nat
  | .A => 136
  | .B => 616

/-- The default consent policy's two bits as a policy (R164); 3 is no code. -/
def consentPolicyOf? : Nat → Option ConsentPolicy
  | 0 => some .auto
  | 1 => some .ask
  | 2 => some .refuse
  | _ => none

/-- A schedule policy's code (R143). -/
def schedulePolicyOf? : Nat → Option SchedulePolicy
  | 0 => some .auto
  | 1 => some .manual
  | _ => none

/-- A station's settings record (R12), in the units of R168. -/
structure Settings where
  referenceFloor : Nat
  muteSteps : Nat
  holdSeconds : Nat
  consentWait : Nat
  deferLimit : Nat
  staleTime : Nat
  consentDefault : Option ConsentPolicy
  scheduleDefault : Option SchedulePolicy
  deriving DecidableEq, Repr

/-- Station `x`'s settings record. -/
def settings (m : Memory) (x : Station) : Settings :=
  let s := sectionBase x
  let policies := (Memory.read m (s + 9)).toNat
  { referenceFloor := Memory.read16 m s
    muteSteps := (Memory.read m (s + 2)).toNat
    holdSeconds := Memory.read16 m (s + 3)
    consentWait := (Memory.read m (s + 5)).toNat
    deferLimit := Memory.read16 m (s + 6)
    staleTime := (Memory.read m (s + 8)).toNat
    consentDefault := consentPolicyOf? (policies % 4)
    scheduleDefault := schedulePolicyOf? (policies / 16 % 2) }

/-- The trim of channel X`tower`, tower 1 to 6 (R12). -/
def channelTrim (m : Memory) (x : Station) (tower : Nat) : Int :=
  Memory.readSigned8 m (sectionBase x + 9 + tower)

/-! ### Pattern records (R8 to R11, R14) -/

/-- The offset of a pattern record (R168). -/
def patternBase (x : Station) (p : PatternNo) : Nat := sectionBase x + 16 + 80 * p.val

/-- A pattern record but for its map and its tower parameters (R8 to R11). -/
structure PatternRecord where
  inUse : Bool
  label : List Byte
  power : Nat
  fault : Nat
  towers : Nat
  advisory : Nat
  window : Nat
  verifyCount : Nat
  verifyTimeout : Nat
  rampDown : Nat
  rampUp : Nat
  deriving DecidableEq, Repr

/-- Pattern `p` of station `x`. -/
def pattern (m : Memory) (x : Station) (p : PatternNo) : PatternRecord :=
  let b := patternBase x p
  { inUse := Memory.read m b == 1
    label := Memory.readBlock m (b + 1) 4
    power := Memory.read16 m (b + 5)
    fault := Memory.read16 m (b + 7)
    towers := (Memory.read m (b + 9)).toNat
    advisory := (Memory.read m (b + 10)).toNat
    window := (Memory.read m (b + 11)).toNat
    verifyCount := (Memory.read m (b + 12)).toNat
    verifyTimeout := (Memory.read m (b + 13)).toNat
    rampDown := Memory.read16 m (b + 14)
    rampUp := Memory.read16 m (b + 16) }

/-- A map entry (R14): the required position, or none for ANY. -/
def mapEntry (m : Memory) (x : Station) (p : PatternNo) (k : ContactorNo) : Option Side :=
  match (Memory.read m (patternBase x p + 18 + k.val)).toNat with
  | 1 => some .zero
  | 2 => some .one
  | _ => none

/-- A monitored tower's parameters (R10). -/
structure TowerParameters where
  ratio : Nat
  ratioTolerance : Nat
  phase : Int
  phaseTolerance : Nat
  deriving DecidableEq, Repr

/-- The parameters of tower `i + 2` of pattern `p` of station `x` (R10, R168). -/
def towerParameters (m : Memory) (x : Station) (p : PatternNo) (i : TowerNo) : TowerParameters :=
  let b := patternBase x p + 34 + 8 * i.val
  { ratio := Memory.read16 m b
    ratioTolerance := Memory.read16 m (b + 2)
    phase := Memory.readSigned16 m (b + 4)
    phaseTolerance := Memory.read16 m (b + 6) }

/-- The pattern with a given number 1–4, if it is one (section 1.2). -/
def patternOfNumber? (n : Nat) : Option PatternNo :=
  if h : 1 ≤ n ∧ n ≤ 4 then some ⟨n - 1, by omega⟩ else none

/-- The contactor with a given index 1–16, if it is one (R1). -/
def contactorOfIndex? (n : Nat) : Option ContactorNo :=
  if h : 1 ≤ n ∧ n ≤ 16 then some ⟨n - 1, by omega⟩ else none

/-- The monitored channel of a tower 2–6, if it is one (R90). -/
def channelOfTower? (n : Nat) : Option TowerNo :=
  if h : 2 ≤ n ∧ n ≤ 6 then some ⟨n - 2, by omega⟩ else none

/-! ### Satisfaction and compatibility (R16, R17) -/

/-- Pattern `p`'s map is satisfied by the recorded positions (R16). -/
def satisfied (m : Memory) (positions : Vector Live 16) (x : Station) (p : PatternNo) : Bool :=
  (List.finRange 16).all fun k =>
    match mapEntry m x p k with
    | none => true
    | some side => positions[k].position == some side

/-- Two patterns' maps are compatible: no contactor is POS0 in one and POS1 in the other (R17). -/
def compatible (m : Memory) (x : Station) (p : PatternNo) (y : Station) (q : PatternNo) : Bool :=
  (List.finRange 16).all fun k =>
    match mapEntry m x p k, mapEntry m y q k with
    | some s, some t => s == t
    | _, _ => true

/-! ### Schedule entries (R136, R137) -/

/-- A schedule entry (R136). -/
structure ScheduleEntry where
  target : Nat
  firstDay : Nat
  lastDay : Nat
  minute : Nat
  deriving DecidableEq, Repr

/-- Entry `e + 1` of station `x` (R168). -/
def scheduleEntry (m : Memory) (x : Station) (e : Fin 24) : ScheduleEntry :=
  let b := sectionBase x + 336 + 6 * e.val
  let first := Memory.read16 m b
  { target := first / 512 % 8
    firstDay := first % 512
    lastDay := Memory.read16 m (b + 2) % 512
    minute := Memory.read16 m (b + 4) }

/-- The entry's day range contains a day of year; a first day above the last wraps across the year end (R137). -/
def ScheduleEntry.containsDay (e : ScheduleEntry) (day : Nat) : Bool :=
  if e.firstDay ≤ e.lastDay then decide (e.firstDay ≤ day ∧ day ≤ e.lastDay)
  else decide (e.firstDay ≤ day ∨ day ≤ e.lastDay)

/-- Two entries' day ranges share a day (R136): each range is an arc of the days 1–366, so two of them share a day
exactly when one holds the other's first day. -/
def ScheduleEntry.sharesDay (e f : ScheduleEntry) : Bool := e.containsDay f.firstDay || f.containsDay e.firstDay

/-! ### Validation (R18, R136, R169) -/

/-- A number lies in a range, both ends included. -/
def within (low high n : Nat) : Bool := decide (low ≤ n ∧ n ≤ high)

/-- A signed number lies in a range, both ends included. -/
def withinSigned (low high n : Int) : Bool := decide (low ≤ n ∧ n ≤ high)

/-- The check byte makes the sum of all 1097 bytes 0 modulo 256 (R146). -/
def checkByteHolds (m : Memory) : Bool :=
  ((m.filter fun c => decide (c.1 < Config.imageSize)).map fun c => c.2.toNat).sum % 256 == 0

/-- The checks of one contactor record, each with its offset, in ascending order (R1, R169). -/
def contactorChecks (m : Memory) (k : ContactorNo) : List (Nat × Bool) :=
  let b := contactorBase k
  let n (i : Nat) : Nat := (Memory.read m (b + i)).toNat
  (b, within 0 1 (n 0)) ::
    if n 0 = 1 then
      [(b + 1, within 1 3 (n 1)), (b + 2, within 1 16 (n 2)), (b + 3, within 2 50 (n 3)), (b + 4, within 2 200 (n 4)),
        (b + 5, within 0 2 (n 5))]
    else []

/-- The checks of a settings record (R12, R169). -/
def settingsChecks (m : Memory) (x : Station) : List (Nat × Bool) :=
  let s := sectionBase x
  let r := settings m x
  [(s, within 16 2048 r.referenceFloor), (s + 2, within 2 50 r.muteSteps), (s + 3, within 10 600 r.holdSeconds),
    (s + 5, within 2 60 r.consentWait), (s + 6, within 0 600 r.deferLimit), (s + 8, within 1 10 r.staleTime),
    (s + 9, r.consentDefault.isSome)]
  ++ (List.range 6).map fun i => (s + 10 + i, withinSigned (-31) 31 (channelTrim m x (i + 1)))

/-- A map entry is a code of R168, and constrains only a contactor that carries the station (R15). -/
def mapEntryValid (m : Memory) (x : Station) (p : PatternNo) (k : ContactorNo) : Bool :=
  let code := (Memory.read m (patternBase x p + 18 + k.val)).toNat
  code == 0 || ((code == 1 || code == 2) && carries m k x)

/-- The checks of one monitored tower's parameters (R10). -/
def towerChecks (m : Memory) (x : Station) (p : PatternNo) (i : TowerNo) : List (Nat × Bool) :=
  let b := patternBase x p + 34 + 8 * i.val
  let t := towerParameters m x p i
  [(b, within 0 9999 t.ratio), (b + 2, within 1 500 t.ratioTolerance), (b + 4, withinSigned (-1799) 1800 t.phase),
    (b + 6, within 1 300 t.phaseTolerance)]

/-- The checks of one pattern record, in ascending order of offset (R18, R169). -/
def patternChecks (m : Memory) (x : Station) (p : PatternNo) : List (Nat × Bool) :=
  let b := patternBase x p
  let r := pattern m x p
  (b, within 0 1 (Memory.read m b).toNat) ::
    if r.inUse then
      [(b + 1, r.label.all fun c => within 0x20 0x7E c.toNat), (b + 5, within 50 1000 r.power), (b + 7, decide (r.fault ≤ r.power)),
        (b + 9, within 2 6 r.towers), (b + 10, within 0 99 r.advisory), (b + 11, within 1 8 r.window),
        (b + 12, within 2 64 r.verifyCount), (b + 13, within 5 120 r.verifyTimeout), (b + 14, within 1 1000 r.rampDown),
        (b + 16, within 1 1000 r.rampUp)]
      ++ ((List.finRange 16).map fun k => (b + 18 + k.val, mapEntryValid m x p k))
      ++ (List.finRange 5).flatMap fun i => if i.val + 2 ≤ r.towers then towerChecks m x p i else []
    else []

/-- The target of an entry is a code and names an in-use pattern of the station (R136). -/
def entryTargetValid (m : Memory) (x : Station) (e : ScheduleEntry) : Bool :=
  match patternOfNumber? e.target with
  | none => e.target == 0
  | some p => (pattern m x p).inUse

/-- An earlier in-use entry of the station shares a day and the minute of day (R136). -/
def clashesEarlier (m : Memory) (x : Station) (e : Fin 24) : Bool :=
  let f := scheduleEntry m x e
  (List.finRange 24).any fun d =>
    decide (d.val < e.val) && (scheduleEntry m x d).target != 0 && (scheduleEntry m x d).sharesDay f
      && (scheduleEntry m x d).minute == f.minute

/-- The checks of one schedule entry (R136, R169). -/
def entryChecks (m : Memory) (x : Station) (e : Fin 24) : List (Nat × Bool) :=
  let b := sectionBase x + 336 + 6 * e.val
  let f := scheduleEntry m x e
  if f.target = 0 then []
  else
    [(b, within 1 366 f.firstDay && entryTargetValid m x f), (b + 2, within 1 366 f.lastDay),
      (b + 4, within 0 1439 f.minute && !clashesEarlier m x e)]

/-- The checks of one station's section (R169). -/
def sectionChecks (m : Memory) (x : Station) : List (Nat × Bool) :=
  settingsChecks m x ++ (List.finRange 4).flatMap (patternChecks m x) ++ (List.finRange 24).flatMap (entryChecks m x)

/-- Every check of an image with its offset, in the order they are made (R169): the check byte first, then the fields
in ascending order of offset. -/
def imageChecks (m : Memory) : List (Nat × Bool) :=
  (1096, checkByteHolds m) :: (0, Memory.read m 0 == 3)
    :: ((List.finRange 16).flatMap (contactorChecks m) ++ sectionChecks m .A ++ sectionChecks m .B)

/-- The offset of the first failing check of an image, or none for a sound one (R149, R169). -/
def firstFailure (m : Memory) : Option Nat := ((imageChecks m).find? fun c => !c.2).map fun c => c.1

end Machine
end Sys2Proof
end

