-- ==== Sys2Proof/Machine/Flags.lean ====
section
/-! DEFINITION. The arithmetic of a measurement (chapter 5): amplitudes, and the phase timer's counts; and the conformance
arithmetic (chapter 6): ratio, phase, averages, deviations, margins and statuses. All of it is on whole numbers, with the
rounding each rule states. -/
namespace Sys2Proof
namespace Machine

/-! ### Amplitudes (R92, R94) -/

/-- A raw amplitude corrected by its channel's trim and clamped to 0–4095 (R94). -/
def correctedAmplitude (raw : Nat) (trim : Int) : Nat := min 4095 ((raw : Int) - trim).toNat

/-- The result of an amplitude converter: a code 0–4095, an input above the range giving 4095 (R92). -/
def converterCode (amplitude : Nat) : Nat := min 4095 amplitude

/-! ### The phase timer (R93) -/

/-- The first of some crossings at or after a count-clock period `since`, of those that occur by the completion of the
measurement. A crossing is told by the count-clock periods from the measurement's start. -/
def firstCrossing (since : Nat) (crossings : List Nat) : Option Nat :=
  (crossings.filter fun c => decide (since ≤ c ∧ c ≤ Config.measurementCounts)).min?

/-- The opening crossing: the first rising crossing of the reference IF in the measurement (DEDUCED, log entry 40). -/
def openingCrossing (reference : List Nat) : Option Nat := firstCrossing 0 reference

/-- What a count reads at the completion (R93): the count-clock periods from its opening crossing to its closing one, or to
the completion when that has not occurred, held to at most 8191. A count that never opens reads as one that has counted
from the measurement's start, which is 8191 (DEDUCED, log entry 40). -/
def timerReading (opening closing : Option Nat) : Nat :=
  min Config.countMax (closing.getD Config.measurementCounts - opening.getD 0)

/-- The period count P: from the opening crossing to the next rising crossing of the reference IF (R93). -/
def periodCount (reference : List Nat) : Nat :=
  let opening := openingCrossing reference
  timerReading opening (opening.bind fun o => firstCrossing (o + 1) reference)

/-- The delay count d: from the opening crossing to the first rising crossing of the tower IF that follows it, 0 when the
two fall together (R93). -/
def delayCount (reference tower : List Nat) : Nat :=
  let opening := openingCrossing reference
  timerReading opening (opening.bind fun o => firstCrossing o tower)

/-! ### A sample's ratio and phase (R104, R105) -/

/-- The ratio of a sample in thousandths, rounded half up and held at 9999 (R104). -/
def sampleRatio (reference tower : Nat) : Nat := min 9999 ((2000 * tower + reference) / (2 * reference))

/-- The phase of a sample in tenths of a degree, −1799…+1800 (R105). -/
def samplePhase (period delay : Nat) : Int :=
  let rounded := (7200 * delay + period) / (2 * period)
  let unwrapped := if rounded = 3600 then 0 else rounded
  if unwrapped ≤ 1800 then (unwrapped : Int) else (unwrapped : Int) - 3600

/-! ### Averages and deviations -/

/-- The average of `m` ratios, rounded half up (R108). -/
def ratioAverage (ratios : List Nat) : Nat := (2 * ratios.sum + ratios.length) / (2 * ratios.length)

/-- A sample's phase deviation, wrapped into −1799…+1800 (R109). -/
def phaseDeviation (phase licensed : Int) : Int :=
  let d := phase - licensed
  if d > 1800 then d - 3600 else if d ≤ -1800 then d + 3600 else d

/-- The average of phase deviations, rounded half away from zero (R109). -/
def averageDeviation (deviations : List Int) : Int :=
  let sum := deviations.sum
  let m := deviations.length
  if 0 ≤ sum then (((2 * sum.natAbs + m) / (2 * m) : Nat) : Int) else -(((2 * sum.natAbs + m) / (2 * m) : Nat) : Int)

/-! ### Margin and status -/

/-- The margin of a quantity (R110). -/
def margin (deviation : Int) (tolerance : Nat) : Nat := 100 - min 100 (100 * deviation.natAbs / tolerance)

/-- The status of a quantity (R110). -/
def quantityStatus (deviation : Int) (tolerance advisory : Nat) : Status :=
  if deviation.natAbs > tolerance then .out
  else if margin deviation tolerance ≤ advisory then .advisory
  else .inTolerance

/-- The order of R112: OUT worst, then UNKNOWN, then ADVISORY, then IN best. -/
def Status.rank : Status → Nat
  | .inTolerance => 0
  | .advisory => 1
  | .unknown => 2
  | .out => 3

/-- The worse of two statuses (R111, R112). -/
def Status.worse (s t : Status) : Status := if s.rank < t.rank then t else s

/-- A tower's figures from its averaged samples, against its parameters and the advisory threshold (R108 to R110). -/
def figuresOf (t : TowerParameters) (advisory : Nat) (averaged : List Sample) : Figures :=
  let average := ratioAverage (averaged.map fun s => s.ratio)
  let ratioDeviation := (average : Int) - t.ratio
  let phaseDeviation := averageDeviation (averaged.map fun s => phaseDeviation s.phase t.phase)
  { ratioAverage := average
    ratioDeviation := ratioDeviation
    phaseDeviation := phaseDeviation
    ratioMargin := margin ratioDeviation t.ratioTolerance
    phaseMargin := margin phaseDeviation t.phaseTolerance
    ratioStatus := quantityStatus ratioDeviation t.ratioTolerance advisory
    phaseStatus := quantityStatus phaseDeviation t.phaseTolerance advisory }

/-- The tower status of a tower with figures: the worse of its ratio and phase statuses (R111). -/
def Figures.towerStatus (f : Figures) : Status := f.ratioStatus.worse f.phaseStatus

/-- A measurement's sorting (R99). -/
inductive Sorting where
  | noReference
  | phaseInvalid
  | valid
  deriving DecidableEq, Repr

/-- How a kept measurement is sorted: the reference first, then the counts (R99). The amplitude compared with the floor is
the corrected one, as R94 and R99 say. R92 has a raw reference code of 0 sorted as NO_REF, which a negative trim and a
low floor can make untrue: following R99 there is the model's choice (DESIGN CHOICE, log entry 35). -/
def sorting (correctedReference floor period delay : Nat) : Sorting :=
  if correctedReference < floor then .noReference
  else if period < 6080 ∨ 6720 < period ∨ period ≤ delay then .phaseInvalid
  else .valid

end Machine
end Sys2Proof
end

