-- ==== Sys2Proof/Machine/Conformance.lean ====
section
/-! DEFINITION. The Conformance Unit's records of one station (chapter 6), with the two reports it hands to the station's
Carrier Control Unit (R113) and what that unit does with a status: supervision and the ARRAY_STATUS notice (R127,
R131). -/
namespace Sys2Proof
namespace Machine

/-! ### Array status (R112) -/

/-- Towers 2 to n of the station's active pattern, as channels (R107). -/
def monitoredTowers (m : Memory) (x : Station) (p : PatternNo) : List TowerNo :=
  (List.finRange 5).filter fun i => decide (i.val + 2 ≤ (pattern m x p).towers)

/-- The array status as R112 decides it. -/
def StationUnit.decideStatus (c : Ctx) (u : StationUnit) : Status :=
  match u.activePattern with
  | none => .unknown
  | some p =>
    if u.reference.present then
      (monitoredTowers c.image c.station p).foldl (fun worst i => worst.worse u.channels[i].towerStatus) .inTolerance
    else .unknown

/-! ### What the Carrier Control Unit does with a status -/

/-- The states in which a station is measured: NORMAL, VERIFYING and REDUCED (R73, R95). -/
def CarrierState.measured : CarrierState → Bool
  | .normal | .verifying | .reduced => true
  | _ => false

/-- The ARRAY_STATUS test (R131): the station is in a measured state and the last array status differs from the
notified one. R131 tests the state after the event, and a transition that starts from the pending list at the same event may
then take the station to LOWERING: making the test at the report or the entry itself, before the list is examined, is the
model's choice (DESIGN CHOICE, log entry 41). -/
def StationWork.notifyStatus (w : StationWork) : StationWork :=
  if w.carrier.state.measured && w.carrier.lastStatus != w.carrier.notifiedStatus then
    { w.post (.arrayStatus w.activePattern w.carrier.lastStatus w.carrier.notifiedStatus
        (Vector.ofFn fun i => w.channels[i].towerStatus)) with
      carrier := { w.carrier with notifiedStatus := w.carrier.lastStatus } }
  else w

/-- The out-of-tolerance hold timer after a report taken in NORMAL (R127): it starts when the status becomes OUT, keeps
its expiry while the status stays OUT, and stops when the status leaves OUT. -/
def StationWork.superviseHold (c : Ctx) (before : Status) (w : StationWork) : StationWork :=
  if w.carrier.state = .normal then
    if w.carrier.lastStatus = .out then
      if before = .out then w
      else
        { w with carrier := { w.carrier with
            holdTimer := some (c.now + Config.seconds (settings c.image c.station).holdSeconds) } }
    else { w with carrier := { w.carrier with holdTimer := none } }
  else w

/-- A status handed to the Carrier Control Unit in a report of either kind (R113): the last array status follows it, the
hold is supervised, and the ARRAY_STATUS test is made. -/
def StationWork.takeStatus (c : Ctx) (status : Status) (w : StationWork) : StationWork :=
  let before := w.carrier.lastStatus
  (({ w with arrayStatus := status, carrier := { w.carrier with lastStatus := status } } : StationWork).superviseHold c
    before).notifyStatus

/-- The array status decided afresh at an event that is not an evaluation: a status report is handed if it changed
(R112, R113). -/
def StationWork.statusReport (c : Ctx) (w : StationWork) : StationWork :=
  let status := w.toStationUnit.decideStatus c
  if status = w.arrayStatus then w else w.takeStatus c status

/-- The array status decided afresh inside a change of pattern or of carrier state: the last array status follows a
change at once, and the ARRAY_STATUS test is left to the station's next entry into a measured state (R131). -/
def StationWork.quietReport (c : Ctx) (w : StationWork) : StationWork :=
  let status := w.toStationUnit.decideStatus c
  if status = w.arrayStatus then w
  else { w with arrayStatus := status, carrier := { w.carrier with lastStatus := status } }

/-! ### Channel records -/

/-- A channel's record after the emptying on entry to VERIFYING (R115). -/
def Channel.emptied : Channel := Channel.reset

/-- A channel's record after its stale timer has run out (R114). -/
def Channel.gone (ch : Channel) : Channel :=
  { ch with window := [], staleTimer := none, stale := true, figures := none, towerStatus := .unknown }

/-- A channel's record after a change of the active pattern (R116): no figures, the window kept. -/
def Channel.unjudged (ch : Channel) : Channel := { ch with figures := none, towerStatus := .unknown }

/-- A channel's record after a valid sample (R106): the sample joins the window, which keeps its eight newest. -/
def Channel.withSample (sample : Sample) (expiry : Nat) (ch : Channel) : Channel :=
  let grown := ch.window ++ [sample]
  { ch with
    window := if Config.windowSize < grown.length then grown.tail else grown
    stale := false
    staleTimer := some expiry }

/-- A monitored channel's record after an evaluation (R107): figures from its averaged samples, or none. -/
def Channel.evaluated (t : TowerParameters) (advisory window : Nat) (ch : Channel) : Channel :=
  match ch.window with
  | [] => ch.unjudged
  | _ :: _ =>
    let averaged := ch.window.drop (ch.window.length - min ch.window.length window)
    let f := figuresOf t advisory averaged
    { ch with figures := some f, towerStatus := f.towerStatus }

/-! ### Events of the records -/

/-- The station's windows are emptied and its status decided afresh (R115). -/
def StationWork.emptyWindows (c : Ctx) (w : StationWork) : StationWork :=
  ({ w with channels := Vector.replicate 5 Channel.emptied } : StationWork).quietReport c

/-- The station's active pattern is set (R19): its towers lose their figures and its status is decided afresh (R116). A
pattern set makes verification required (R79). -/
def StationWork.setPattern (p : Option PatternNo) (c : Ctx) (w : StationWork) : StationWork :=
  StationWork.quietReport c
    { w with
      activePattern := p
      channels := Vector.ofFn fun i => w.channels[i].unjudged
      carrier := { w.carrier with verifyRequired := w.carrier.verifyRequired || p.isSome } }

/-- The stale timer of a channel runs out (R114); a stopped timer has no expiry. -/
def StationWork.staleExpiry (i : TowerNo) (c : Ctx) (w : StationWork) : StationWork :=
  match w.channels[i].staleTimer with
  | none => w
  | some _ => ({ w with channels := w.channels.set i w.channels[i].gone } : StationWork).statusReport c

/-- The reference record is written at a kept measurement (R100). -/
def StationWork.writeReference (amplitude floor : Nat) (w : StationWork) : StationWork :=
  { w with reference := ⟨amplitude, decide (floor ≤ amplitude)⟩ }

/-- A valid sample enters its channel's window (R106 steps 1 to 4). -/
def StationWork.takeSample (i : TowerNo) (reference tower period delay : Nat) (c : Ctx) (w : StationWork) : StationWork :=
  let sample : Sample := ⟨sampleRatio reference tower, samplePhase period delay⟩
  let expiry := c.now + Config.seconds (settings c.image c.station).staleTime
  { w with channels := w.channels.set i (w.channels[i].withSample sample expiry) }

/-- The tower figures of the station are computed afresh (R107); a station with no active pattern has none. -/
def StationWork.judgeTowers (c : Ctx) (w : StationWork) : StationWork :=
  match w.activePattern with
  | none => w
  | some p =>
    let r := pattern c.image c.station p
    { w with
      channels := Vector.ofFn fun i =>
        if i.val + 2 ≤ r.towers then
          w.channels[i].evaluated (towerParameters c.image c.station p i) r.advisory r.window
        else w.channels[i] }

end Machine
end Sys2Proof
end

