-- ==== Sys2Proof/Machine/Carrier.lean ====
section
/-! DEFINITION. One Carrier Control Unit: its states, ramps, commands and outputs (chapter 4), verification and on-air
supervision (chapter 7). Every operation acts on its own station's records and posts to its own station. -/
namespace Sys2Proof
namespace Machine

/-! ### Reading the record -/

/-- RF inhibit is asserted exactly in HELD and DARK (R83). -/
def CarrierState.inhibited : CarrierState → Bool
  | .held | .dark => true
  | _ => false

/-- The station's RF inhibit output (R83). -/
def Carrier.rfInhibit (r : Carrier) : Bool := r.state.inhibited

/-- LOWERING toward fault power, which is LOWERING on a ramp of purpose REDUCE (R73). -/
def Carrier.loweringToFault (r : Carrier) : Bool :=
  r.state == .lowering &&
    match r.ramp with
    | some ramp => ramp.purpose == .reduce
    | none => false

/-- The states in which a request for the station's active pattern finds it already active (R22 check 4, R27 step
1). -/
def Carrier.onItsWay (r : Carrier) : Bool :=
  r.state == .normal || r.state == .verifying || r.state == .raising || r.loweringToFault

/-- The return level recorded at QUIESCE entry (R35). -/
def Carrier.returnLevel (r : Carrier) : ReturnLevel :=
  match r.state, r.ramp with
  | .reduced, _ => .fault
  | .lowering, some ramp => if ramp.purpose = .reduce ∨ ramp.purpose = .fault then .fault else .full
  | .raising, some ramp => if ramp.purpose = .reduce ∨ ramp.purpose = .fault then .fault else .full
  | _, _ => .full

/-- A HELD station whose mute is confirmed (R36). -/
def Carrier.quiet (r : Carrier) : Bool := r.state == .held && r.muteConfirmed

/-! ### Changes of carrier state -/

/-- The record leaves its present state: verification and supervision end with it (R120, R125, R127), and so do the mute
timer and mute confirmed of HELD (R86, R87). -/
def Carrier.leave (r : Carrier) : Carrier :=
  match r.state with
  | .verifying => { r with passCount := 0, verifyTimer := none }
  | .normal => { r with holdTimer := none }
  | .held => { r with muteConfirmed := false, muteTimer := none }
  | _ => r

/-- The record takes a new state, with what the entry itself sets (R77, R79, R82, R86 to R88, R126). -/
def Carrier.enter (c : Ctx) (new : CarrierState) (r : Carrier) : Carrier :=
  let r := { r with state := new }
  match new with
  | .held =>
    { r with
      verifyRequired := true
      rfNoticePosted := false
      muteConfirmed := r.rfPresent == some false
      muteTimer := some (c.now + Config.ms (100 * (settings c.image c.station).muteSteps)) }
  | .dark => { r with verifyRequired := true, rfNoticePosted := false, muteConfirmed := false, muteTimer := none }
  | .reduced => { r with verifyRequired := true }
  | .normal => { r with verifyRequired := false }
  | .verifying | .lowering | .raising => r

/-- The CARRIER_STATE notice of the record as it stands (R89). -/
def StationWork.carrierNotice (w : StationWork) : Notice :=
  .carrierState w.carrier.state w.carrier.level w.activePattern
    (if w.carrier.state = .lowering ∨ w.carrier.state = .raising then w.carrier.ramp else none)
    w.carrier.muteConfirmed (w.carrier.rfPresent == some true)

/-- What an entry does after its notice: verification begins in VERIFYING (R121 steps 2 to 4), the hold timer starts in
NORMAL at OUT (R127), and the ARRAY_STATUS test is made in every measured state (R131). -/
def StationWork.settleIn (c : Ctx) (w : StationWork) : StationWork :=
  match w.carrier.state with
  | .verifying =>
    let timeout := match w.activePattern with
      | some p => (pattern c.image c.station p).verifyTimeout
      | none => 0
    ((({ w with carrier := { w.carrier with
        passCount := 0
        verifyEntered := c.now
        verifyTimer := some (c.now + Config.seconds timeout) } } : StationWork).emptyWindows c).notifyStatus)
  | .normal =>
    (if w.carrier.lastStatus = .out then
      ({ w with carrier := { w.carrier with
          holdTimer := some (c.now + Config.seconds (settings c.image c.station).holdSeconds) } } : StationWork)
    else w).notifyStatus
  | .reduced => w.notifyStatus
  | _ => w

/-- A scan stay ends or begins with this change of state (R98): the station enters or leaves the scan set, or enters
VERIFYING. -/
def stayChanges (old new : CarrierState) : Bool := old.measured != new.measured || new == .verifying

/-- The carrier state becomes `new`: the old state is left, the new one entered, a CARRIER_STATE notice posted if the
state changed (R77, R89), and the entry completed. -/
def StationWork.enterState (new : CarrierState) (c : Ctx) (w : StationWork) : StationWork :=
  let old := w.carrier.state
  let w : StationWork :=
    { w with
      carrier := w.carrier.leave.enter c new
      scanStay := if stayChanges old new then w.scanStay + 1 else w.scanStay }
  (if old = new then w else w.post w.carrierNotice).settleIn c

/-! ### The ramp generator -/

/-- The state a completed ramp leads to (R77). -/
def Carrier.completionState (purpose : RampPurpose) (r : Carrier) : CarrierState :=
  match purpose with
  | .hold => .held
  | .reduce | .fault => .reduced
  | .level => .verifying
  | .full => if r.verifyRequired then .verifying else .normal

/-- The ramp is complete (R77). -/
def StationWork.completeRamp (purpose : RampPurpose) (c : Ctx) (w : StationWork) : StationWork :=
  ({ w with carrier := { w.carrier with ramp := none } } : StationWork).enterState (w.carrier.completionState purpose) c

/-- A ramp command, once it is known to have an effect (R75, R76). -/
def StationWork.rampTo (ramp : Ramp) (c : Ctx) (w : StationWork) : StationWork :=
  if ramp.target = w.carrier.level then w.completeRamp ramp.purpose c
  else
    ({ w with carrier := { w.carrier with ramp := some ramp } } : StationWork).enterState
      (if ramp.target < w.carrier.level then .lowering else .raising) c

/-- The active pattern's record, and its number as a step pattern; a station with no active pattern is given no command
that reads it. -/
def StationWork.activeRecord (c : Ctx) (w : StationWork) : PatternNo × PatternRecord :=
  let p := w.activePattern.getD 0
  (p, pattern c.image c.station p)

/-- Lower to hold (R78): no effect in HELD and DARK, and a ramp already going to 0 is kept. -/
def StationWork.lowerToHold (c : Ctx) (w : StationWork) : StationWork :=
  if w.carrier.state = .held ∨ w.carrier.state = .dark then w
  else if w.carrier.state = .lowering ∧ w.carrier.ramp.map (fun r => r.purpose) = some .hold then w
  else w.rampTo ⟨0, .hold, (w.activeRecord c).1⟩ c

/-- Raise to full (R79). -/
def StationWork.raiseToFull (c : Ctx) (w : StationWork) : StationWork :=
  let (p, r) := w.activeRecord c
  w.rampTo ⟨r.power, .full, p⟩ c

/-- Raise to fault (R79). -/
def StationWork.raiseToFault (c : Ctx) (w : StationWork) : StationWork :=
  let (p, r) := w.activeRecord c
  w.rampTo ⟨r.fault, .fault, p⟩ c

/-- Lower to reduce (R81). -/
def StationWork.lowerToReduce (c : Ctx) (w : StationWork) : StationWork :=
  let (p, r) := w.activeRecord c
  w.rampTo ⟨r.fault, .reduce, p⟩ c

/-- Level change to the active pattern, given the pattern being left (R80). -/
def StationWork.levelChange (previous : Option PatternNo) (c : Ctx) (w : StationWork) : StationWork :=
  let (p, r) := w.activeRecord c
  let w : StationWork := { w with carrier := { w.carrier with verifyRequired := true } }
  let step := if r.power < w.carrier.level then previous.getD p else p
  w.rampTo ⟨r.power, .level, step⟩ c

/-- Go dark (R82). -/
def StationWork.goDark (c : Ctx) (w : StationWork) : StationWork :=
  if w.carrier.state = .dark then w
  else
    ({ w with carrier := { w.carrier with ramp := none, level := 0 } } : StationWork).enterState .dark c

/-- The level one tick on (R74). -/
def Carrier.steppedLevel (c : Ctx) (r : Carrier) (ramp : Ramp) : Nat :=
  let p := pattern c.image c.station ramp.stepPattern
  if r.state = .lowering then max ramp.target (r.level - p.rampDown) else min ramp.target (r.level + p.rampUp)

/-- A ramp tick (R74): a LOWERING or RAISING level takes one step, and the ramp completes when it stands at the
target (R77). -/
def StationWork.rampTick (c : Ctx) (w : StationWork) : StationWork :=
  match w.carrier.ramp with
  | none => w
  | some ramp =>
    if w.carrier.state = .lowering ∨ w.carrier.state = .raising then
      let level := w.carrier.steppedLevel c ramp
      let w : StationWork := { w with carrier := { w.carrier with level := level } }
      if level = ramp.target then w.completeRamp ramp.purpose c else w
    else w

/-! ### Transmitter lines -/

/-- The debounced RF present input takes a value (R85); in HELD mute confirmed follows it (R86). -/
def Carrier.takeRfPresent (active : Bool) (r : Carrier) : Carrier :=
  { r with rfPresent := some active, muteConfirmed := if r.state = .held then !active else r.muteConfirmed }

/-- The mute timer stops (R36, R87). -/
def StationWork.stopMuteTimer (_ : Ctx) (w : StationWork) : StationWork :=
  { w with carrier := { w.carrier with muteTimer := none } }

/-- A power-reference period begins: the level as it stands becomes the duty in force (R84). -/
def Carrier.beginPeriod (r : Carrier) : Carrier := { r with dutyInForce := r.level }

/-- The power reference output at a moment of elapsed time (R84): high for as many microseconds of the period in progress
as the duty in force, and constant high at 1000. The period's end is its timer's, and while no period runs, reset being
held, the output is low. R84 gives the length of the high time and not its place in the period: that it stands at the
period's start is the model's choice (DESIGN CHOICE, log entry 37). -/
def Carrier.referenceHigh (now : Nat) (r : Carrier) : Bool :=
  match r.periodTimer with
  | none => false
  | some finish => decide (1000 ≤ r.dutyInForce ∨ now + Config.referencePeriod < finish + Config.us r.dutyInForce)

/-- Station `x`'s power reference output as elapsed time stands (R84). -/
def Plant.powerReference (p : Plant) (x : Station) : Bool := (p.carrier x).referenceHigh p.elapsed

/-! ### Verification (R122 to R124) -/

/-- The pass count after an evaluation report (R122). -/
def passCountAfter (status : Status) (count : Nat) : Nat :=
  match status with
  | .inTolerance | .advisory => count + 1
  | .unknown => count
  | .out => 0

/-- The verification has succeeded (R123): NORMAL is entered, and VERIFIED follows its CARRIER_STATE notice. -/
def StationWork.verified (c : Ctx) (w : StationWork) : StationWork :=
  let seconds := (c.now - w.carrier.verifyEntered) / Config.seconds 1
  (w.enterState .normal c).post (.verified w.activePattern (w.activeRecord c).2.verifyCount seconds)

/-- An evaluation report is taken (R113): the status is taken as any report's, and in VERIFYING the pass count changes
and may reach the verify count (R122, R123). -/
def StationWork.evaluationReport (c : Ctx) (w : StationWork) : StationWork :=
  let status := w.toStationUnit.decideStatus c
  let w := w.takeStatus c status
  if w.carrier.state = .verifying then
    let count := passCountAfter status w.carrier.passCount
    let w : StationWork := { w with carrier := { w.carrier with passCount := count } }
    if (w.activeRecord c).2.verifyCount ≤ count then w.verified c else w
  else w

/-- The verify timer has run out (R124): VERIFY_FAILED, then a lower to reduce. -/
def StationWork.verifyFailed (c : Ctx) (w : StationWork) : StationWork :=
  let notice := Notice.verifyFailed w.activePattern w.carrier.passCount (w.activeRecord c).2.verifyCount w.carrier.lastStatus
  let w : StationWork := { w with carrier := { w.carrier with verifyTimer := none, passCount := 0 } }
  (w.post notice).lowerToReduce c

/-- The out-of-tolerance hold has run out (R128): OUT_OF_TOLERANCE, then a lower to reduce. -/
def StationWork.outOfTolerance (c : Ctx) (w : StationWork) : StationWork :=
  let out := Vector.ofFn fun i : TowerNo =>
    (match w.activePattern with
      | some p => (monitoredTowers c.image c.station p).contains i
      | none => false) && w.channels[i].towerStatus == .out
  let notice := Notice.outOfTolerance w.activePattern (settings c.image c.station).holdSeconds out
  let w : StationWork := { w with carrier := { w.carrier with holdTimer := none } }
  (w.post notice).lowerToReduce c

/-! ### A kept measurement (R99 to R106) -/

/-- A kept measurement reaches the Conformance Unit: the reference record is written first (R100), a NO_REF or
PHASE_INVALID measurement goes no further (R99), and a valid sample enters its window and brings one evaluation
(R101, R106, R107). -/
def StationWork.keptMeasurement (m : Measurement) (reference tower period delay : Nat) (c : Ctx) (w : StationWork) :
    StationWork :=
  let correctedReference := correctedAmplitude reference m.referenceTrim
  let w := w.writeReference correctedReference m.floor
  match sorting correctedReference m.floor period delay with
  | .noReference | .phaseInvalid => w.statusReport c
  | .valid =>
    let w := w.takeSample m.entry.tower correctedReference (correctedAmplitude tower m.towerTrim) period delay c
    (w.judgeTowers c).evaluationReport c

end Machine
end Sys2Proof
end

