-- ==== Sys2Proof/Machine/Sampling.lean ====
section
/-! DEFINITION. The Sample Acquisition Unit (chapter 5): the scan list, the choice of the next entry, and the measurement
in progress. -/
namespace Sys2Proof
namespace Machine

/-- The entries a station contributes to the scan list: towers 2 to n of its active pattern while it is in the scan set
(R95). -/
def Plant.scanEntries (p : Plant) (x : Station) : List ScanEntry :=
  if (p.carrier x).state.measured then
    match p.active x with
    | some q => (monitoredTowers p.activeImage x q).map fun i => ⟨x, i⟩
    | none => []
  else []

/-- The scan list that the scan set and the active patterns call for, in scan order (R95). -/
def Plant.calledList (p : Plant) : List ScanEntry := p.scanEntries .A ++ p.scanEntries .B

/-- An entry's place in the scan cycle A2 … A6, B2 … B6 (R95). -/
def ScanEntry.place (e : ScanEntry) : Nat :=
  match e.station with
  | .A => e.tower.val
  | .B => 5 + e.tower.val

/-- The entry to measure next (R97): the first of the list behind the last entry in the scan cycle, else, after the wrap,
the first of the list. -/
def nextEntry (last : Option ScanEntry) (list : List ScanEntry) : Option ScanEntry :=
  match last with
  | none => list.head?
  | some e => (list.find? fun d => decide (e.place < d.place)).or list.head?

/-- A measurement starts on an entry (R91), and the entry becomes the last entry (R97). -/
def Work.startMeasurement (e : ScanEntry) (w : Work) : Work :=
  let m := w.activeImage
  { w with
    lastEntry := some e
    measurement := some
      { entry := e
        referenceTrim := channelTrim m e.station 1
        towerTrim := channelTrim m e.station (e.tower.val + 2)
        floor := (settings m e.station).referenceFloor
        stay := (w.stations.get e.station).scanStay
        due := w.elapsed + Config.measurementTime } }

/-- The scan list is recomputed, and if it is not empty the next measurement starts at the same event (R96). -/
def Work.recomputeScan (w : Work) : Work :=
  let list := w.calledList
  let w := { w with scanList := list }
  match nextEntry w.lastEntry list with
  | none => w
  | some e => w.startMeasurement e

/-- The end of an event: when no measurement is in progress and a station has entered or left the scan set, or entered
VERIFYING in it, since the event began, the scan list is recomputed (R96). -/
def Work.settleScan (before : Plant) (w : Work) : Work :=
  if w.measurement.isNone &&
      ((before.stations.get .A).scanStay != (w.stations.get .A).scanStay
        || (before.stations.get .B).scanStay != (w.stations.get .B).scanStay) then
    w.recomputeScan
  else w

/-- The measurement is kept: its station's scan stay at the start is still current (R98). -/
def Plant.keeps (p : Plant) (m : Measurement) : Bool :=
  (p.carrier m.entry.station).state.measured && (p.stations.get m.entry.station).scanStay == m.stay

end Machine
end Sys2Proof
end

