-- ==== Sys2Proof/Machine/Schedule.lean ====
section
/-! DEFINITION. The Schedule Unit's clock and table (chapter 8): the calendar, the determining occurrence, the override
test and the conditions of a scheduled request. -/
namespace Sys2Proof
namespace Machine

/-! ### The site clock (R133, R134) -/

/-- A year divisible by 4 (R133). -/
def isLeapYear (year : Nat) : Bool := year % 4 == 0

/-- The number of days of a year (R133). -/
def daysIn (year : Nat) : Nat := if isLeapYear year then 366 else 365

/-- The minute of day of a reading (R133). -/
def Reading.minuteOfDay (r : Reading) : Nat := 60 * r.hour + r.minute

/-- A reading whose fields lie in their ranges, day 366 in leap years only (R133, R134). -/
def Reading.valid (r : Reading) : Bool :=
  within 2000 2099 r.year && within 1 (daysIn r.year) r.day && within 0 23 r.hour && within 0 59 r.minute
    && within 0 59 r.second

/-- The reading one second on, or none past the last second of 2099 (R133). -/
def Reading.tick (r : Reading) : Option Reading :=
  if r.second < 59 then some { r with second := r.second + 1 }
  else if r.minute < 59 then some { r with minute := r.minute + 1, second := 0 }
  else if r.hour < 23 then some { r with hour := r.hour + 1, minute := 0, second := 0 }
  else if r.day < daysIn r.year then some { r with day := r.day + 1, hour := 0, minute := 0, second := 0 }
  else if r.year < 2099 then some ⟨r.year + 1, 1, 0, 0, 0⟩
  else none

/-- The next tick is a minute tick: it brings the second to 0 (R133). -/
def Reading.minuteTickNext (r : Reading) : Bool :=
  match r.tick with
  | some n => n.second == 0
  | none => false

/-- The year and day one day earlier (R137). -/
def yesterday (year day : Nat) : Nat × Nat := if 1 < day then (year, day - 1) else (year - 1, daysIn (year - 1))

/-! ### The determining occurrence (R138) -/

/-- Among some entries, the one with the latest minute (R138); of two equal minutes, which R136 rules out, the later
entry. -/
def latestEntry (m : Memory) (x : Station) (es : List (Fin 24)) : Option (Fin 24) :=
  es.foldl
    (fun best e =>
      match best with
      | none => some e
      | some d => if (scheduleEntry m x d).minute ≤ (scheduleEntry m x e).minute then some e else some d)
    none

/-- Station `x`'s in-use entries whose range contains a day and that meet a further test (R136, R137). -/
def entriesOn (m : Memory) (x : Station) (day : Nat) (test : ScheduleEntry → Bool) : List (Fin 24) :=
  (List.finRange 24).filter fun e =>
    let f := scheduleEntry m x e
    f.target != 0 && f.containsDay day && test f

/-- The determining entry of station `x` at a reading, with its occurrence (R138). -/
def determining (m : Memory) (x : Station) (r : Reading) : Option (Fin 24 × Occurrence) :=
  match latestEntry m x (entriesOn m x r.day fun f => decide (f.minute ≤ r.minuteOfDay)) with
  | some e => some (e, ⟨e.val + 1, r.year, r.day⟩)
  | none =>
    let y := yesterday r.year r.day
    match latestEntry m x (entriesOn m x y.2 fun _ => true) with
    | some e => some (e, ⟨e.val + 1, y.1, y.2⟩)
    | none => none

/-- The determining occurrence as an override records it at an event with a valid clock and an active image (R140,
R142). -/
def recordedOccurrence (m : Memory) (x : Station) (r : Reading) : Recorded :=
  match determining m x r with
  | some d => .occurrence d.2
  | none => .noOccurrence

/-- The occurrence a MANUAL acceptance records (R142): unknown while the clock is invalid or no image is active. -/
def Plant.recordNow (p : Plant) (x : Station) : Recorded :=
  match p.clock, p.image with
  | some r, some m => recordedOccurrence m x r
  | _, _ => .unknown

/-- The override test of an evaluation (R140). -/
def Override.test (present : Recorded) : Override → Override
  | .clear => .clear
  | .set .unknown => .set present
  | .set recorded => if recorded = present then .set recorded else .clear

/-! ### The retry hold (R144) -/

/-- The results that set no retry hold (R144). -/
def Result.spares : Result → Bool
  | .completed | .completedReduced | .superseded => true
  | _ => false

/-- The Transition Engine reports the end of a request to the Schedule Unit (R24, R51, R144). -/
def Work.reportEnd (x : Station) (source : Source) (result : Result) (w : Work) : Work :=
  if source = .schedule ∧ result.spares = false then
    { w with retryHold := w.retryHold.set x Config.retryHoldTicks }
  else w

end Machine
end Sys2Proof
end

