-- ==== Sys2Proof/Machine/Store.lean ====
section
/-! DEFINITION. The Configuration Store (chapter 9): the retained store and its write queue, the load slot and buffer,
readback, and what enters and leaves use when an image becomes active. -/
namespace Sys2Proof
namespace Machine

/-! ### The retained store (R152) -/

/-- The write is an image write. -/
def WriteJob.isImage : WriteJob → Bool
  | .image _ => true
  | .lastState _ => false

/-- The time a write takes (R152). -/
def WriteJob.duration : WriteJob → Nat
  | .image _ => Config.imageWriteTime
  | .lastState _ => Config.lastStateWriteTime

/-- An image write is pending: queued or in progress (R152). -/
def Plant.imageWritePending (p : Plant) : Bool :=
  (p.writing.map fun g => g.job.isImage).getD false || p.writeQueue.any WriteJob.isImage

/-- A write starts: its record becomes TORN (R152). -/
def Work.startWrite (job : WriteJob) (w : Work) : Work :=
  let w := { w with writing := some ⟨job, w.elapsed + job.duration⟩ }
  match job with
  | .image _ => { w with imageRecord := { w.imageRecord with condition := .torn } }
  | .lastState _ => { w with lastRecord := .torn }

/-- When the store is idle and the queue holds a write, the oldest starts (R152). -/
def Work.startNextWrite (w : Work) : Work :=
  match w.writing, w.writeQueue with
  | none, job :: rest => Work.startWrite job { w with writeQueue := rest }
  | _, _ => w

/-- A waiting last-state write is replaced in its place in the queue, or the new one joins the tail (R152). -/
def queueLastState (content : LastState) (queue : List WriteJob) : List WriteJob :=
  if queue.any fun j => !j.isImage then queue.map fun j => if j.isImage then j else .lastState content
  else queue ++ [.lastState content]

/-- A last-state record is handed to the store: each station's active pattern as it stands, and the marker (R50). -/
def Work.handLastState (marker : Bool) (w : Work) : Work :=
  let content : LastState := ⟨w.active .A, w.active .B, marker⟩
  Work.startNextWrite { w with writeQueue := queueLastState content w.writeQueue }

/-- An image write joins the queue (R150 step 5). -/
def Work.queueImage (bytes : Memory) (w : Work) : Work :=
  Work.startNextWrite { w with writeQueue := w.writeQueue ++ [.image bytes] }

/-- The write in progress completes: its record becomes VALID with the new content, and the next write starts (R152). -/
def Work.completeWrite (w : Work) : Work :=
  match w.writing with
  | none => w
  | some g =>
    let w := { w.reach g.due with writing := none }
    Work.startNextWrite <|
      match g.job with
      | .image bytes => { w with imageRecord := ⟨.valid, bytes⟩ }
      | .lastState content => { w with lastRecord := .valid content }

/-- The bytes of an image record whose write is cut short: each that the write would change is the old or the new one,
as a free value says (R151; log entry 4). -/
def tornBytes (draw : Nat) (old new : Memory) : Memory :=
  (List.range Config.imageSize).foldl
    (fun m a =>
      if Memory.read old a = Memory.read new a then m
      else if Config.tornTakesNew draw a then Memory.write m a (Memory.read new a)
      else m)
    old

/-- The image record after a reset: a write in progress is cut short and leaves its record TORN (R152). The
last-state record is TORN from the start of its own write. -/
def Plant.cutImageRecord (p : Plant) : ImageRecord :=
  match p.writing with
  | some ⟨.image new, _⟩ => ⟨.torn, tornBytes p.freeDraws p.imageRecord.bytes new⟩
  | _ => p.imageRecord

/-! ### Loading (R147, R148) -/

/-- The block sizes of R147. -/
def isBlockSize (n : Nat) : Bool := n == 16 || n == 32 || n == 64 || n == 128

/-- The last block index for a size (section 9.2): 1097 is a multiple of none of the four. -/
def lastBlockIndex (size : Nat) : Nat := Config.imageSize / size

/-- The length of the block at an index (R148 step 3). -/
def blockLength (size index : Nat) : Nat := if index < lastBlockIndex size then size else Config.imageSize % size

/-- The load slot becomes FREE: the buffer is discarded and the idle timer stops (R147). -/
def Work.freeSlot (w : Work) : Work := { w with loadSlot := .free, loadBuffer := [], loadIdleTimer := none }

/-- The load idle timer is loaded with 60 s (R147, R148). -/
def Work.reloadIdle (w : Work) : Work := { w with loadIdleTimer := some (w.elapsed + Config.loadIdleTime) }

/-- The slot is held by this port. -/
def LoadSlot.heldBy (slot : LoadSlot) (x : Station) : Bool :=
  match slot with
  | .free => false
  | .held holder _ _ _ => holder == x

/-- What a port reset does in the store (R153, R162): the slot is freed if the port holds it, and its readback is
closed. -/
def Work.storePortReset (x : Station) (w : Work) : Work :=
  let w := if w.loadSlot.heldBy x then w.freeSlot else w
  { w with readback := w.readback.set x none }

/-- The load idle timer runs out (R148). -/
def Work.loadExpired (w : Work) : Work :=
  match w.loadSlot with
  | .free => { w with loadIdleTimer := none }
  | .held holder size expected _ => w.freeSlot.post holder (.loadExpired size expected)

/-! ### Entering and leaving use (R7) -/

/-- The position a contactor's auxiliary contacts show: one of the two alone, or none for a disagreeing combination
(R53). An input with no debounced value is not made. -/
def Aux.shows (x : Aux) : Option Side :=
  match x.made0 == some true, x.made1 == some true with
  | true, false => some .zero
  | false, true => some .one
  | _, _ => none

/-- The live record of a contactor that is not in use (R2). -/
def Aux.unusedLive (x : Aux) : Live := ⟨x.shows, .idle, .noFailure⟩

/-- The live record of a contactor that enters use (R7). -/
def Live.enterUse (l : Live) : Live :=
  match l.position with
  | some side => ⟨some side, .idle, .noFailure⟩
  | none => ⟨none, .failed, .disagree⟩

/-- The live records when an image becomes active, given the one that was (R7). -/
def liveAfter (old : Option Memory) (new : Memory) (aux : Vector Aux 16) (live : Vector Live 16) : Vector Live 16 :=
  Vector.ofFn fun k =>
    let was := match old with
      | some m => (contactorRecord m k).inUse
      | none => false
    let is := (contactorRecord new k).inUse
    if is then (if was then live[k] else live[k].enterUse) else if was then aux[k].unusedLive else live[k]

/-- An image becomes active: contactors enter and leave use, and every block reads it from this event (R7, R21, R150
step 1). -/
def Work.activate (m : Memory) (w : Work) : Work :=
  { w with contactors := liveAfter w.image m w.aux w.contactors, image := some m }

/-- The live policies take the image's defaults (R13). -/
def Work.takeDefaults (m : Memory) (w : Work) : Work :=
  { w with
    consentPolicy := ⟨(settings m .A).consentDefault, (settings m .B).consentDefault⟩
    schedulePolicy := ⟨(settings m .A).scheduleDefault, (settings m .B).scheduleDefault⟩ }

/-- Both overrides are cleared and both retry holds are 0 (R145, R150 step 3, R154 step 6). -/
def Work.clearHolds (w : Work) : Work := { w with override := Pair.both .clear, retryHold := Pair.both 0 }

/-- The commit would leave a station not in DARK without its pattern, its map or its fixed fields (R21, R149 step 4). -/
def Plant.mismatch (p : Plant) (new : Memory) (x : Station) : Bool :=
  match p.active x with
  | none => false
  | some q =>
    (p.carrier x).state != .dark &&
      (let old := pattern p.activeImage x q
       let next := pattern new x q
       !next.inUse || !satisfied new p.contactors x q || old.power != next.power || old.fault != next.fault
         || old.towers != next.towers || old.verifyCount != next.verifyCount)

/-! ### Readback (R151) -/

/-- The bytes a readback reads: the active image, or the found image while UNCONFIGURED (R151). -/
def Plant.readbackBytes (p : Plant) : Memory :=
  match p.image with
  | some m => m
  | none => p.foundImage.getD []

end Machine
end Sys2Proof
end

