-- ==== Sys2Proof/Machine/Transition.lean ====
section
/-! DEFINITION. The coil driver's commands (sections 3.2 and 3.3) and the Transition Engine (chapter 2): requests and tags,
the pending list, PLAN, consent, QUIESCE, SWITCH, REVERSE, RESTORE and CONFIRM, withdraw, disturbances, resolution and
the end of a transition. -/
namespace Sys2Proof
namespace Machine

/-! ### Changing the record -/

/-- Change the transition record, if there is one. -/
def Work.onTransition (f : Transition → Transition) (w : Work) : Work :=
  { w with transition := w.transition.map f }

/-- The restore set (R29): the stations with a station entry, A before B. -/
def Transition.restoreSet (t : Transition) : List Station := t.entries.recorded

/-- The transition's station `x` is in its restore set. -/
def Transition.restores (t : Transition) (x : Station) : Bool := (t.entries.get x).isSome

/-- Every WAITING entry, but one for the contactor named, becomes NOT_DONE (R40, R43, R48). -/
def dropWaiting (except : Option ContactorNo) (es : List MoveEntry) : List MoveEntry :=
  es.map fun e => if e.outcome = .waiting ∧ some e.contactor ≠ except then { e with outcome := .notDone } else e

/-- Write the outcome of a contactor's entry (R60). -/
def writeOutcome (k : ContactorNo) (o : EntryOutcome) (es : List MoveEntry) : List MoveEntry :=
  es.map fun e => if e.contactor = k then { e with outcome := o } else e

/-- Change the live record of a contactor. -/
def Work.onLive (k : ContactorNo) (f : Live → Live) (w : Work) : Work :=
  { w with contactors := w.contactors.set k (f w.contactors[k]) }

/-! ### The coil driver (R55 to R57) -/

/-- The interlock law of a CHECK (R57): the contactor is not FAILED, and every station in its carrier set has RF inhibit
asserted and RF present inactive. -/
def Plant.checkPasses (p : Plant) (k : ContactorNo) : Bool :=
  p.contactors[k].state != .failed &&
    (carrierSet p.activeImage k).members.all fun x =>
      (p.carrier x).rfInhibit && (p.carrier x).rfPresent == some false

/-- A pulse begins (R57, R58): the attempt phase and the live state become PULSING for the pulse time. -/
def Work.beginPulse (move : Move) (w : Work) : Work :=
  let due := w.elapsed + Config.ms (contactorRecord w.activeImage move.contactor).pulse
  Work.onLive move.contactor (fun l => { l with state := .pulsing }) { w with driver := some { move with phase := .pulsing, due := due } }

/-- The move a Move command gives the driver (R56). -/
def Plant.newMove (p : Plant) (k : ContactorNo) (toPos : Side) : Move :=
  { contactor := k, fromPos := p.contactors[k].position, toPos := toPos, attempt := 1, phase := .check, stop := false,
    due := p.elapsed }

/-- Stop (R56): the stop flag of the move in progress is set. -/
def Work.stopDriver (w : Work) : Work := { w with driver := w.driver.map fun m => { m with stop := true } }

/-- The coil output energised at this moment, if any: a contactor and the position it is driven to (R55). -/
def Plant.coil (p : Plant) : Option (ContactorNo × Side) :=
  match p.driver with
  | some m => if m.phase = .pulsing then some (m.contactor, m.toPos) else none
  | none => none

/-! ### Commands to the carriers -/

/-- The Transition Engine sets a station's active pattern (R19). -/
def Work.setPattern (x : Station) (p : Option PatternNo) (w : Work) : Work := w.onStation x (StationWork.setPattern p)

/-- A station is raised back according to its return level (R35); a station in DARK stays there. -/
def Work.raiseBack (x : Station) (w : Work) : Work :=
  if (w.carrier x).state = .dark then w
  else
    match (w.transition.bind fun t => t.entries.get x).bind fun e => e.returnLevel with
    | some .full => w.onStation x StationWork.raiseToFull
    | some .fault => w.onStation x StationWork.raiseToFault
    | none => w

/-- Some stations raised back, in order (R36, R37, R47). -/
def Work.raiseBackAll (xs : List Station) (w : Work) : Work := xs.foldl (fun w x => w.raiseBack x) w

/-! ### The end of a transition (R51) -/

/-- The stations that receive TRANSITION_ENDED (R51): the requester, and the peer when it was in the affected set (it is,
whenever it was sent a consent query). -/
def Transition.informed (t : Transition) : List Station :=
  t.station :: if t.affected.get t.station.peer then [t.station.peer] else []

/-- The active transition ends with a result (R51, steps 1 to 4). The pending list is examined at the end of the event
(step 5, `Work.examinePending`). -/
def Work.endTransition (result : Result) (w : Work) : Work :=
  match w.transition with
  | none => w
  | some t =>
    let notice := Notice.transitionEnded t.tag t.station t.target t.source result (w.active .A) (w.active .B)
    let w := ((w.postAll t.informed notice).handLastState false).reportEnd t.station t.source result
    { w with transition := none, consentTimer := none, deferTimer := none }

/-- An entry of the pending list ends without starting (R24). -/
def Work.endPending (e : PendingEntry) (result : Result) (w : Work) : Work :=
  (w.post e.station (.transitionEnded e.tag e.station e.target e.source result (w.active .A) (w.active .B))).reportEnd
    e.station e.source result

/-! ### Resolution (R49) -/

/-- A pattern is a candidate: in use, its map satisfied (R49). -/
def Plant.candidate (p : Plant) (x : Station) (q : PatternNo) : Bool :=
  (pattern p.activeImage x q).inUse && satisfied p.activeImage p.contactors x q

/-- The candidate chosen: the first of the preferred patterns that is one, else the lowest-numbered (R49). -/
def Plant.resolved (p : Plant) (x : Station) (preferred : List PatternNo) : Option PatternNo :=
  (preferred ++ List.finRange 4).find? fun q => p.candidate x q

/-- A station takes the pattern resolution chose, or none (R49). -/
def Work.carryResolved (x : Station) (choice : Option PatternNo) (w : Work) : Work :=
  match choice with
  | some _ => w.onStation x StationWork.raiseToFull
  | none => w.onStation x StationWork.goDark

/-- A station of the active transition is resolved (R49): its target first for the requester, then its pattern at PLAN,
then the lowest number. -/
def Work.resolve (t : Transition) (x : Station) (w : Work) : Work :=
  let target := if x = t.station then [t.target] else []
  let previous := ((t.entries.get x).bind fun e => e.patternAtPlan).toList
  let choice := w.resolved x (target ++ previous)
  (w.setPattern x choice).carryResolved x choice

/-- Resolution runs for the restore set and the transition ends with the result decided (R41, R43, R44). -/
def Work.resolveAndEnd (result : Result) (w : Work) : Work :=
  match w.transition with
  | none => w
  | some t =>
    ((t.restoreSet.foldl (fun w x => w.resolve t x) w).handLastState false).endTransition (t.result.getD result)

/-! ### Moves commanded (R38, R41) -/

/-- A refused CHECK is taken as RF present on a carried station, with no move in progress: the remaining entries become
NOT_DONE, and resolution runs (R38, R43). -/
def Work.moveRefused (w : Work) : Work :=
  Work.resolveAndEnd .rfDuringSwitch
    (Work.onTransition (fun t => { t with moves := dropWaiting none t.moves }) { w with driver := none })

/-- An attempt opens with its CHECK: the pulse begins, or the move ends REFUSED (R57). -/
def Work.attempt (move : Move) (w : Work) : Work :=
  if w.checkPasses move.contactor then w.beginPulse move else w.moveRefused

/-- A Move command (R56). -/
def Work.commandMove (k : ContactorNo) (toPos : Side) (w : Work) : Work := w.attempt (w.newMove k toPos)

/-- What the requester's carrier state means in RESTORE and CONFIRM (R45, R46): entering VERIFYING brings CONFIRM, and
REDUCED by a fault return, or NORMAL, ends the transition. -/
def Work.restoreCheck (w : Work) : Work :=
  match w.transition with
  | none => w
  | some t =>
    match t.phase, (w.carrier t.station).state with
    | .restore, .verifying => Work.onTransition (fun t => { t with phase := .confirm }) w
    | .restore, .reduced => w.endTransition (t.result.getD .completedReduced)
    | .restore, .normal => w.endTransition (t.result.getD .completed)
    | .confirm, .normal => w.endTransition (t.result.getD .completed)
    | _, _ => w

/-- The switch has succeeded (R39): the requester takes the target and raises to it, and any other station of the restore
set is raised back. A raise complete at once means what any does (R45). -/
def Work.switchSuccess (t : Transition) (w : Work) : Work :=
  let w := Work.onTransition (fun t => { t with phase := .restore }) (w.setPattern t.station (some t.target))
  let raise (w : Work) (x : Station) : Work := if x = t.station then w.onStation x StationWork.raiseToFull else w.raiseBack x
  (t.restoreSet.foldl raise w).restoreCheck

/-- The next move of the list, or the success of the switch (R38, R39). -/
def Work.nextMove (w : Work) : Work :=
  match w.transition with
  | none => w
  | some t =>
    match t.moves.find? fun e => e.outcome == .waiting with
    | some e => w.commandMove e.contactor e.toPos
    | none => w.switchSuccess t

/-- A station at the end of a reversal (R42): raised back when its map is satisfied, resolved when it is not, left in DARK
when it has no pattern. -/
def Work.endReversalFor (t : Transition) (x : Station) (w : Work) : Work :=
  match w.active x with
  | none => w
  | some q => if satisfied w.activeImage w.contactors x q then w.raiseBack x else w.resolve t x

/-- A station of the restore set goes to resolution at the end of the reversal (R42). -/
def Plant.needsResolution (p : Plant) (x : Station) : Bool :=
  match p.active x with
  | none => false
  | some q => !satisfied p.activeImage p.contactors x q

/-- The result of a reversal whose maps are all satisfied, by its cause (R42). -/
def Transition.reversalResult (t : Transition) : Result :=
  if t.cause = some .fault then .switchFaultReverted else .withdrawn

/-- The reversal is complete (R42). -/
def Work.reversalComplete (t : Transition) (w : Work) : Work :=
  if t.restoreSet.any w.needsResolution then
    ((t.restoreSet.foldl (fun w x => w.endReversalFor t x) w).handLastState false).endTransition .switchFaultDark
  else
    let w := Work.onTransition (fun u => { u with phase := .restore, result := some t.reversalResult }) w
    let w := t.restoreSet.foldl (fun w x => w.endReversalFor t x) w
    if (w.carrier t.station).state = .dark then w.endTransition t.reversalResult else w.restoreCheck

/-- The next reversal, latest MOVED entry first, or the end of the reversal (R41, R42). -/
def Work.nextReversal (w : Work) : Work :=
  match w.transition with
  | none => w
  | some t =>
    match t.moves.reverse.find? fun e => e.outcome == .moved with
    | some e => w.commandMove e.contactor (e.fromPos.getD e.toPos.other)
    | none => w.reversalComplete t

/-- REVERSE begins with its cause (R40, R48). -/
def Work.beginReverse (cause : ReversalCause) (w : Work) : Work :=
  Work.nextReversal
    (Work.onTransition (fun t => { t with phase := .reverse, cause := some cause, moves := dropWaiting none t.moves }) w)

/-! ### Outcomes of moves (R60) -/

/-- The entry outcome written for a move made in SWITCH (R38, R43, R48, R60). -/
def MoveOutcome.forSwitch : MoveOutcome → EntryOutcome
  | .moved => .moved
  | .stuck => .stuck
  | .disagree => .disagree
  | .refused | .stopped => .notDone

/-- The entry outcome written for a reversal, by where the contactor came to rest (R41, R43). -/
def MoveOutcome.forReversal : MoveOutcome → EntryOutcome
  | .moved => .notDone
  | .stuck => .stuck
  | .disagree => .disagree
  | .refused | .stopped => .moved

/-- The outcome is written into the move's entry (R38, R43, R60). -/
def Work.writeMoveOutcome (k : ContactorNo) (o : MoveOutcome) (w : Work) : Work :=
  Work.onTransition
    (fun t => { t with
      moves := writeOutcome k (if t.phase = .reverse then o.forReversal else o.forSwitch) t.moves }) w

/-- What follows an outcome in SWITCH with no result decided (R38 to R40, R48). -/
def Work.afterSwitchMove (t : Transition) (o : MoveOutcome) (w : Work) : Work :=
  match o with
  | .stuck | .disagree => w.beginReverse .fault
  | .stopped => w.beginReverse .withdraw
  | .moved => if t.withdrawTaken then w.beginReverse .withdraw else w.nextMove
  | .refused => w.moveRefused

/-- What follows an outcome in REVERSE with no result decided (R41). -/
def Work.afterReversal (o : MoveOutcome) (w : Work) : Work :=
  match o with
  | .moved => w.nextReversal
  | .stuck | .disagree => w.resolveAndEnd .switchFaultDark
  | .stopped | .refused => w.moveRefused

/-- The driver hands an outcome to the Transition Engine and holds no move from then on (R60). A result already decided by
a disturbance is followed by resolution (R43, R44). -/
def Work.moveOutcome (k : ContactorNo) (o : MoveOutcome) (w : Work) : Work :=
  let w := Work.writeMoveOutcome k o { w with driver := none }
  match w.transition with
  | none => w
  | some t =>
    match t.result, t.phase with
    | some r, _ => w.resolveAndEnd r
    | none, .switch => w.afterSwitchMove t o
    | none, .reverse => w.afterReversal o
    | none, _ => w

/-! ### QUIESCE and SWITCH entered (R35, R36, R38) -/

/-- The stations of the affected set, A before B. -/
def Transition.affectedList (t : Transition) : List Station := t.affected.members

/-- Every station of the affected set is HELD with mute confirmed (R36). -/
def Plant.quiesced (p : Plant) (t : Transition) : Bool := t.affectedList.all fun x => (p.carrier x).quiet

/-- QUIESCE ends and SWITCH begins (R36, R38): the mute timers stop, a last-state record with the marker is handed, and
the first move is commanded. -/
def Work.enterSwitch (t : Transition) (w : Work) : Work :=
  let w := t.affectedList.foldl (fun w x => w.onStation x StationWork.stopMuteTimer) w
  let w := Work.onTransition (fun t => { t with phase := .switch }) w
  (w.handLastState true).nextMove

/-- QUIESCE ends at the event after which every affected station is quiet (R36). -/
def Work.quiesceCheck (w : Work) : Work :=
  match w.transition with
  | none => w
  | some t => if t.phase = .quiesce ∧ w.quiesced t then w.enterSwitch t else w

/-- The station entries with the return levels recorded at QUIESCE entry (R35). -/
def Plant.withReturnLevels (p : Plant) (t : Transition) : Pair (Option StationEntry) :=
  let level (x : Station) : Option StationEntry :=
    (t.entries.get x).map fun e =>
      if t.affected.get x then { e with returnLevel := some (p.carrier x).returnLevel } else e
  ⟨level .A, level .B⟩

/-- QUIESCE is entered (R35): return levels are recorded and every affected station is lowered to hold; it ends at once
when none is affected (R36). -/
def Work.enterQuiesce (w : Work) : Work :=
  match w.transition with
  | none => w
  | some t =>
    let w := Work.onTransition (fun t => { t with phase := .quiesce, entries := w.withReturnLevels t }) w
    (t.affectedList.foldl (fun w x => w.onStation x StationWork.lowerToHold) w).quiesceCheck

/-! ### PLAN (R27 to R30) -/

/-- The move list of a target, in move order (R4, R27 step 2). -/
def Plant.moveList (p : Plant) (x : Station) (target : PatternNo) : List MoveEntry :=
  let m := p.activeImage
  let unsorted := (List.finRange 16).filterMap fun k =>
    match mapEntry m x target k with
    | none => none
    | some side =>
      if p.contactors[k].position = some side then none
      else some (⟨k, p.contactors[k].position, side, .waiting⟩ : MoveEntry)
  unsorted.insertionSort fun d e => movesBefore m d.contactor e.contactor

/-- A contactor of the list is FAILED or at UNKNOWN (R27 step 3). -/
def Plant.movesFailed (p : Plant) (es : List MoveEntry) : Bool :=
  es.any fun e => p.contactors[e.contactor].state == .failed || p.contactors[e.contactor].position.isNone

/-- The target is not compatible with the active map of a peer that is not in DARK (R17, R27 step 4). -/
def Plant.conflicts (p : Plant) (x : Station) (target : PatternNo) : Bool :=
  (p.carrier x.peer).state != .dark &&
    match p.active x.peer with
    | some q => !compatible p.activeImage x target x.peer q
    | none => false

/-- The affected set (R29): the stations carried by the moves, less those in DARK. -/
def Plant.affectedSet (p : Plant) (es : List MoveEntry) : StationSet :=
  let carried := carriedBy p.activeImage (es.map fun e => e.contactor)
  ⟨carried.a && (p.carrier .A).state != .dark, carried.b && (p.carrier .B).state != .dark⟩

/-- A station entry for each station of the restore set: the affected set and the requester (R29). -/
def Plant.stationEntries (p : Plant) (requester : Station) (affected : StationSet) : Pair (Option StationEntry) :=
  let entry (x : Station) : Option StationEntry :=
    if affected.get x || x == requester then some ⟨p.active x, none⟩ else none
  ⟨entry .A, entry .B⟩

/-- The estimated hold of a consent query, in units of 100 ms rounded up (R30). -/
def estimatedHold (m : Memory) (es : List MoveEntry) : Nat :=
  ((es.map fun e => (contactorRecord m e.contactor).pulse + (contactorRecord m e.contactor).settle).sum + 99) / 100

/-- The number of shared contactors in the move list (R3, R30). -/
def sharedCount (m : Memory) (es : List MoveEntry) : Nat := (es.filter fun e => isShared m e.contactor).length

/-- The consent query is posted, and CONSENT_WAIT begins with the peer's consent wait (R30). -/
def Work.askConsent (t : Transition) (w : Work) : Work :=
  let peer := t.station.peer
  let m := w.activeImage
  let w := w.post peer (.consentQuery t.tag t.station (sharedCount m t.moves) (estimatedHold m t.moves))
  Work.onTransition (fun t => { t with phase := .consentWait, consent := .asked })
    { w with consentTimer := some (w.elapsed + Config.seconds (settings m peer).consentWait) }

/-- TRANSITION_STARTED goes to the requester, and to an affected peer (R29). -/
def Work.announceStart (t : Transition) (w : Work) : Work :=
  w.postAll t.informed (.transitionStarted t.tag t.station t.target t.source t.moves.length)

/-- A transition with an empty move list is a level change (R28): the requester takes the target, and its carrier is
brought to the target's power level. -/
def Work.beginLevelChange (t : Transition) (w : Work) : Work :=
  let w := Work.announceStart t (Work.onTransition (fun t => { t with phase := .restore }) w)
  let w := w.setPattern t.station (some t.target)
  (w.onStation t.station (StationWork.levelChange t.previous)).restoreCheck

/-- Consent is decided (R29). -/
def Work.decideConsent (t : Transition) (w : Work) : Work :=
  if t.affected.get t.station.peer then
    match w.consentPolicy.get t.station.peer with
    | some .refuse => w.endTransition .refusedByPeer
    | some .ask => (w.announceStart t).askConsent t
    | _ => (w.announceStart t).enterQuiesce
  else (w.announceStart t).enterQuiesce

/-- PLAN, steps 3 to 6, once the move list is formed (R27). -/
def Work.planMoves (t : Transition) (w : Work) : Work :=
  if w.movesFailed t.moves then w.endTransition .contactorFailed
  else if w.conflicts t.station t.target then w.endTransition .conflict
  else if t.moves = [] then
    let t := { t with entries := w.stationEntries t.station ⟨false, false⟩ }
    Work.beginLevelChange t { w with transition := some t }
  else
    let affected := w.affectedSet t.moves
    let t := { t with affected := affected, entries := w.stationEntries t.station affected }
    Work.decideConsent t { w with transition := some t }

/-- PLAN (R27). -/
def Work.plan (t : Transition) (w : Work) : Work :=
  if w.active t.station = some t.target ∧ (w.carrier t.station).onItsWay then w.endTransition .superseded
  else
    let t := { t with moves := w.moveList t.station t.target }
    Work.planMoves t { w with transition := some t }

/-- The record of an entry that starts (R26). -/
def Plant.newTransition (p : Plant) (e : PendingEntry) : Transition :=
  { tag := e.tag, station := e.station, target := e.target, source := e.source, previous := p.active e.station, moves := [],
    affected := ⟨false, false⟩, entries := ⟨none, none⟩, phase := .plan, consent := .notNeeded, withdrawTaken := false,
    cause := none, result := none }

/-- The head of the pending list can start (R25). -/
def Plant.canStart (p : Plant) : Bool := p.transition.isNone && !p.imageWritePending

/-- The pending list is examined: while its head can start, it starts and PLAN runs (R25). The number counts the entries
that can still start at one event. -/
def Work.examineFor (n : Nat) (w : Work) : Work :=
  match n with
  | 0 => w
  | n + 1 =>
    match w.pendingList with
    | [] => w
    | e :: rest =>
      if w.canStart then
        let t := w.newTransition e
        Work.examineFor n (Work.plan t { w with pendingList := rest, transition := some t })
      else w

/-- The pending list is examined at the end of an event (R25). -/
def Work.examinePending (w : Work) : Work := w.examineFor w.pendingList.length

/-! ### Pattern requests and tags (R22 to R24) -/

/-- The reply codes of R165. -/
inductive ReplyCode where
  | accepted
  | alreadyActive
  | badArg
  | unknownKind
  | notConfigured
  | inProgress
  | tooLate
  | nothingToWithdraw
  | staleAnswer
  | busy
  | notOwner
  | stillFailed
  | loadBusy
  | sequence
  | badLength
  | invalid
  | mismatch
  | clockInvalid
  deriving DecidableEq, Repr

/-- The tag one on: from 255 to 1 (R23). -/
def nextTag (tag : Nat) : Nat := if tag < 255 then tag + 1 else 1

/-- The tags in use: the active transition's and those of the pending list (R23). -/
def Plant.tagsInUse (p : Plant) : List Nat :=
  (p.transition.map fun t => t.tag).toList ++ p.pendingList.map fun e => e.tag

/-- The counter advanced past the tags in use; as many advances as there are tags pass them all (R23). -/
def freeTag (inUse : List Nat) (n : Nat) (tag : Nat) : Nat :=
  match n with
  | 0 => tag
  | n + 1 => if inUse.contains tag then freeTag inUse n (nextTag tag) else tag

/-- The tag the next accepted request receives (R23). -/
def Plant.tagToGive (p : Plant) : Nat := freeTag p.tagsInUse p.tagsInUse.length p.tagCounter

/-- Station `x`'s entry of the pending list (R24). -/
def Plant.pendingOf (p : Plant) (x : Station) : Option PendingEntry := p.pendingList.find? fun e => e.station == x

/-- Station `x` owns the active transition (R22). -/
def Plant.owns (p : Plant) (x : Station) : Bool := (p.transition.map fun t => t.station) == some x

/-- Station `x`'s entry leaves the pending list, if it has one, and ends with a result (R24, R47). -/
def Work.dropPending (x : Station) (result : Result) (w : Work) : Work :=
  match w.pendingOf x with
  | none => w
  | some e => Work.endPending e result { w with pendingList := w.pendingList.filter fun d => d.station != x }

/-- An accepted request enters the pending list (R24): in the place of its station's entry, which ends SUPERSEDED, or at
the tail. -/
def Work.enterPending (e : PendingEntry) (w : Work) : Work :=
  match w.pendingOf e.station with
  | some old =>
    Work.endPending old .superseded
      { w with pendingList := w.pendingList.map fun d => if d.station = e.station then e else d }
  | none => { w with pendingList := w.pendingList ++ [e] }

/-- A station's override is set or cleared (R140, R142, R143). -/
def Work.setOverride (x : Station) (o : Override) (w : Work) : Work := { w with override := w.override.set x o }

/-- A request is accepted (R22 step 5): a tag, an entry, and for a MANUAL request the override (R142). -/
def Work.acceptRequest (x : Station) (target : PatternNo) (source : Source) (w : Work) : Work :=
  let tag := w.tagToGive
  let w := Work.enterPending ⟨tag, x, target, source⟩ { w with tagCounter := nextTag tag }
  if source = .manual then w.setOverride x (.set (w.recordNow x)) else w

/-- The in-use pattern a target names (R22 check 2). -/
def Plant.targetPattern? (p : Plant) (x : Station) (target : Nat) : Option PatternNo :=
  match patternOfNumber? target with
  | some q => if (pattern p.activeImage x q).inUse then some q else none
  | none => none

/-- The checks of a pattern request (R22), before the pending list is examined: the work, the outcome, and the tag of an
accepted request. -/
def Work.checkRequest (x : Station) (target : Nat) (source : Source) (w : Work) : Work × ReplyCode × Option Nat :=
  if w.image.isNone then (w, .notConfigured, none)
  else
    match w.targetPattern? x target with
    | none => (w, .badArg, none)
    | some q =>
      if w.owns x then (w, .inProgress, none)
      else if w.active x = some q ∧ (w.carrier x).onItsWay then (w.dropPending x .superseded, .alreadyActive, none)
      else (w.acceptRequest x q source, .accepted, some w.tagToGive)

/-- A pattern request is submitted (R22): checked, and if it is accepted the pending list is examined (R25). -/
def Work.submit (x : Station) (target : Nat) (source : Source) (w : Work) : Work × ReplyCode × Option Nat :=
  let r := w.checkRequest x target source
  (r.1.examinePending, r.2)

/-! ### Consent replies (R31 to R34) -/

/-- The query outstanding to a station (R30), as its transition. -/
def Plant.queryTo (p : Plant) (x : Station) : Option Transition :=
  match p.transition with
  | some t => if t.phase = .consentWait ∧ t.station.peer = x then some t else none
  | none => none

/-- A GRANT is taken (R31). -/
def Work.takeGrant (w : Work) : Work :=
  Work.enterQuiesce
    (Work.onTransition (fun t => { t with consent := .granted }) { w with consentTimer := none, deferTimer := none })

/-- A DEFER is taken from station `x` (R32). -/
def Work.takeDefer (x : Station) (t : Transition) (w : Work) : Work :=
  if t.consent = .deferred then w
  else
    let limit := (settings w.activeImage x).deferLimit
    if limit = 0 then w.endTransition .noConsent
    else
      Work.onTransition (fun t => { t with consent := .deferred })
        { w with consentTimer := none, deferTimer := some (w.elapsed + Config.seconds limit) }

/-- A CONSENT REPLY received on Link `x` (R31 to R33): the answer is checked before the tag. -/
def Work.consentReply (x : Station) (tag answer : Nat) (w : Work) : Work × ReplyCode :=
  if answer ≠ 1 ∧ answer ≠ 2 then (w, .badArg)
  else
    match w.queryTo x with
    | none => (w, .staleAnswer)
    | some t =>
      if t.tag ≠ tag then (w, .staleAnswer)
      else ((if answer = 1 then w.takeGrant else w.takeDefer x t).examinePending, .accepted)

/-! ### Withdraw (R47, R48) -/

/-- CONSENT_WITHDRAWN is posted to the peer when a query ends in CONSENT_WAIT (R34). -/
def Work.withdrawQuery (t : Transition) (w : Work) : Work :=
  if t.phase = .consentWait then
    Work.post t.station.peer (.consentWithdrawn t.tag) { w with consentTimer := none, deferTimer := none }
  else w

/-- A withdraw taken in SWITCH (R48). R48 answers a second withdraw ACCEPTED while withdraw taken is yes, and refuses one
taken after a disturbance has decided the result TOO_LATE, as R43 does. A second withdraw behind such a disturbance meets both:
that it is TOO_LATE is the model's choice (DESIGN CHOICE, log entry 38). -/
def Work.withdrawInSwitch (t : Transition) (w : Work) : Work × ReplyCode :=
  if t.result.isSome then (w, .tooLate)
  else if t.withdrawTaken then (w, .accepted)
  else
    let moving := w.driver.map fun m => m.contactor
    let w := Work.onTransition (fun t => { t with withdrawTaken := true, moves := dropWaiting moving t.moves }) w.stopDriver
    (if moving.isSome then w else w.beginReverse .withdraw, .accepted)

/-- A withdraw of the active transition by its owner, by phase (R47). -/
def Work.withdrawActive (t : Transition) (w : Work) : Work × ReplyCode :=
  match t.phase with
  | .consentWait => ((w.withdrawQuery t).endTransition .withdrawn, .accepted)
  | .quiesce => ((w.raiseBackAll t.affectedList).endTransition .withdrawn, .accepted)
  | .switch => w.withdrawInSwitch t
  | .plan | .reverse | .restore | .confirm => (w, .tooLate)

/-- A WITHDRAW received on Link `x` (R47). -/
def Work.withdraw (x : Station) (w : Work) : Work × ReplyCode :=
  match w.pendingOf x with
  | some _ => (w.dropPending x .withdrawn, .accepted)
  | none =>
    match w.transition with
    | some t =>
      if t.station = x then
        let r := w.withdrawActive t
        (r.1.examinePending, r.2)
      else (w, .nothingToWithdraw)
    | none => (w, .nothingToWithdraw)

/-! ### Disturbances (R37, R43, R44, R46) -/

/-- A disturbance in SWITCH or REVERSE (R43, R44): its result is decided unless one already is, the move in progress is
stopped, the waiting entries become NOT_DONE, and resolution runs at once when no move is in progress. R65 says that the
move-list entry of a contactor that has moved unexpectedly, MOVED or WAITING, is not rewritten, and R44 with R43 that each
remaining WAITING entry becomes NOT_DONE: that the disturbed contactor's own WAITING entry becomes NOT_DONE with the
others, and its MOVED entry stays, is the model's choice (DESIGN CHOICE, log entry 36). -/
def Work.disturbSwitch (result : Result) (w : Work) : Work :=
  let moving := w.driver.map fun m => m.contactor
  let w := Work.onTransition
    (fun t => { t with result := some (t.result.getD result), moves := dropWaiting moving t.moves }) w.stopDriver
  if moving.isSome then w else w.resolveAndEnd result

/-- An RF present event of station `x` going active is an RF disturbance in SWITCH and REVERSE when a contactor of the
move list carries `x` (R43). -/
def Work.rfDisturbance (x : Station) (w : Work) : Work :=
  match w.transition with
  | none => w
  | some t =>
    if (t.phase = .switch ∨ t.phase = .reverse) ∧ t.moves.any (fun e => carries w.activeImage e.contactor x) then
      w.disturbSwitch .rfDuringSwitch
    else w

/-- An unexpected movement is reported to the Transition Engine, with the stations that have gone DARK already there (R37,
R44, R46, R65). -/
def Work.arrayDisturbance (w : Work) : Work :=
  match w.transition with
  | none => w
  | some t =>
    match t.phase with
    | .consentWait => (w.withdrawQuery t).endTransition .arrayDisturbed
    | .quiesce => (w.raiseBackAll t.affectedList).endTransition .arrayDisturbed
    | .switch | .reverse => w.disturbSwitch .arrayDisturbed
    | .restore | .confirm =>
      if (w.carrier t.station).state = .dark then w.endTransition (t.result.getD .arrayDisturbed) else w
    | .plan => w

end Machine
end Sys2Proof
end

