-- ==== Sys2Proof/Machine/Drive.lean ====
section
/-! DEFINITION. The events of the Contactor Drive Unit (chapter 3): the ends of a pulse and of a settle, debounce events,
unexpected movement, and contactor release. -/
namespace Sys2Proof
namespace Machine

/-- The stations of a contactor's carrier set, A before B (R3). -/
def Plant.carrierList (p : Plant) (k : ContactorNo) : List Station := (carrierSet p.activeImage k).members

/-- CONTACTOR_FAULT goes to each station in the contactor's carrier set, with the record as it stands (R60, R64, R67). -/
def Work.postFault (k : ContactorNo) (cause : FaultCause) (w : Work) : Work :=
  w.postAll (w.carrierList k) (.contactorFault k w.contactors[k] cause)

/-! ### The end of a pulse and of a settle (R58, R59) -/

/-- The pulse time ends (R58): the coil turns off, and the settle time begins. -/
def Work.endPulse (w : Work) : Work :=
  match w.driver with
  | none => w
  | some move =>
    if move.phase = .pulsing then
      let w := w.reach move.due
      let due := w.elapsed + Config.ms (contactorRecord w.activeImage move.contactor).settle
      Work.onLive move.contactor (fun l => { l with state := .settling })
        { w with driver := some { move with phase := .settling, due := due } }
    else w

/-- How an attempt ends, by the position shown, the retries left and the stop flag (R59): an outcome of the move, or none
for a further attempt. -/
def attemptEnd (move : Move) (shown : Option Side) (retries : Nat) : Option MoveOutcome :=
  match shown with
  | none => some .disagree
  | some side =>
    if side = move.toPos then some .moved
    else if move.attempt ≤ retries then (if move.stop then some .stopped else none)
    else some .stuck

/-- The live record after an attempt (R59). -/
def Live.afterAttempt (move : Move) (o : Option MoveOutcome) (l : Live) : Live :=
  match o with
  | some .moved => ⟨some move.toPos, .idle, .noFailure⟩
  | some .stuck => { l with state := .failed, failure := .stuck }
  | some .disagree => ⟨none, .failed, .disagree⟩
  | some .stopped | some .refused | none => { l with state := .idle, failure := .noFailure }

/-- The settle time ends (R59): the combination is read, and the attempt ends in an outcome handed to the Transition Engine
(R60) or in a further attempt with its CHECK. -/
def Work.endSettle (w : Work) : Work :=
  match w.driver with
  | none => w
  | some move =>
    if move.phase = .settling then
      let w := w.reach move.due
      let k := move.contactor
      let o := attemptEnd move w.aux[k].shows (contactorRecord w.activeImage k).retries
      let w := w.onLive k (Live.afterAttempt move o)
      match o with
      | none => w.attempt { move with attempt := move.attempt + 1, phase := .check }
      | some o => (if o = .stuck ∨ o = .disagree then w.postFault k .move else w).moveOutcome k o
    else w

/-! ### Debounce events (R53, R54) -/

/-- The debounced values after inputs have held new levels (R53). -/
def Aux.take (made0 made1 : Option Bool) (x : Aux) : Aux := ⟨made0.or x.made0, made1.or x.made1⟩

/-- An input that has no debounced value at the end of the start-up wait is taken as open (R53). -/
def Aux.settled (x : Aux) : Aux := ⟨some (x.made0.getD false), some (x.made1.getD false)⟩

/-- The contactor of the move in progress (R55). -/
def Plant.isMoving (p : Plant) (k : ContactorNo) : Bool := (p.driver.map fun m => m.contactor) == some k

/-- The live record after an unexpected movement (R62). -/
def Live.moved (shown : Option Side) (l : Live) : Live :=
  match shown with
  | some side => { l with position := some side }
  | none => ⟨none, .failed, .disagree⟩

/-- A station whose active map was satisfied before the movement and is not after it goes DARK (R63). -/
def Work.breakMap (before : Plant) (x : Station) (w : Work) : Work :=
  match w.active x with
  | none => w
  | some q =>
    if satisfied before.activeImage before.contactors x q && !satisfied w.activeImage w.contactors x q then
      (w.setPattern x none).onStation x StationWork.goDark
    else w

/-- Unexpected movement of a contactor (R62 to R65): the record, the notice, the stations whose maps are broken, and the
report to the Transition Engine. -/
def Work.unexpectedMovement (k : ContactorNo) (w : Work) : Work :=
  let before := w.toPlant
  let w := w.onLive k (Live.moved w.aux[k].shows)
  let w := w.postFault k .unexpected
  let w := (w.breakMap before .A).breakMap before .B
  w.arrayDisturbance

/-- What a contactor's new combination means (R54). -/
def Work.judgeCombination (k : ContactorNo) (w : Work) : Work :=
  if (contactorRecord w.activeImage k).inUse = false then w.onLive k fun _ => w.aux[k].unusedLive
  else if w.isMoving k then w
  else if w.contactors[k].failure = .disagree then w
  else w.unexpectedMovement k

/-- Inputs of contactor `k` have held new levels for 20 ms (R53, R54). While reset is held no input gains a value. A level
that changes no debounced value is no event. During the start-up wait values are gained without an event, and every
contactor's position follows (R7, R69). -/
def Work.debounce (k : ContactorNo) (made0 made1 : Option Bool) (w : Work) : Work :=
  let aux := w.aux[k].take made0 made1
  match w.phase with
  | .held _ => w
  | .starting _ => Work.onLive k (fun _ => aux.unusedLive) { w with aux := w.aux.set k aux }
  | .running =>
    if aux = w.aux[k] then w
    else (Work.judgeCombination k { w with aux := w.aux.set k aux }).examinePending

/-! ### Contactor release (R66 to R68) -/

/-- A release carried out (R67). -/
def Work.carryRelease (k : ContactorNo) (w : Work) : Work × ReplyCode :=
  match w.aux[k].shows with
  | none => (w, .stillFailed)
  | some side =>
    if w.contactors[k].state = .failed then
      ((w.onLive k fun _ => ⟨some side, .idle, .noFailure⟩).postFault k .release, .accepted)
    else (w, .accepted)

/-- A CONTACTOR RELEASE received on Link `x` (R66). -/
def Work.release (x : Station) (index : Nat) (w : Work) : Work × ReplyCode :=
  match contactorOfIndex? index with
  | none => (w, .badArg)
  | some k =>
    if w.image.isNone then (w, .notConfigured)
    else if (contactorRecord w.activeImage k).inUse = false then (w, .badArg)
    else if carries w.activeImage k x = false then (w, .notOwner)
    else if w.transition.isSome then (w, .busy)
    else w.carryRelease k

/-! ### Transmitter and timer events that reach the Transition Engine -/

/-- The conditions under which RF_WHILE_INHIBITED is posted at an event going active (R88). -/
def Plant.noticesRf (p : Plant) (x : Station) : Bool :=
  (p.carrier x).rfInhibit && !(p.carrier x).rfNoticePosted &&
    match p.transition with
    | some t => !(t.phase == .switch && t.restores x)
    | none => true

/-- RF_WHILE_INHIBITED is posted, once for each entry into DARK or HELD (R88). -/
def Work.noticeRf (x : Station) (w : Work) : Work :=
  if w.noticesRf x then
    let w := w.post x (.rfWhileInhibited (w.carrier x).state w.clock)
    w.onStation x fun _ u => { u with carrier := { u.carrier with rfNoticePosted := true } }
  else w

/-- An RF present event of station `x` (R85): mute confirmation, the notice, then the report to the Transition Engine,
which ends QUIESCE (R36) or takes an RF disturbance (R43). -/
def Work.rfEvent (x : Station) (active : Bool) (w : Work) : Work :=
  let w := w.onStation x fun _ u => { u with carrier := u.carrier.takeRfPresent active }
  if active then ((w.noticeRf x).rfDisturbance x).examinePending else w.quiesceCheck.examinePending

/-- Station `x`'s RF present input has held a level for 10 ms (R85). While reset is held it gains no value. During the
start-up wait the value is only held: the part is held until start-up ends, and STARTED is the first notice of each
link (R153, R154; log entry 7). A level that changes no debounced value is no event. -/
def Work.rfPresent (x : Station) (active : Bool) (w : Work) : Work :=
  match w.phase with
  | .held _ => w
  | .starting _ => w.onStation x fun _ u => { u with carrier := u.carrier.takeRfPresent active }
  | .running => if (w.carrier x).rfPresent = some active then w else w.rfEvent x active

/-- The mute timer of station `x` runs out (R36, R87): MUTE_TIMEOUT when the station is of the affected set in QUIESCE. -/
def Work.muteExpiry (x : Station) (w : Work) : Work :=
  let w := w.onStation x StationWork.stopMuteTimer
  match w.transition with
  | none => w
  | some t =>
    if t.phase = .quiesce ∧ t.affected.get x then
      ((w.raiseBackAll t.affectedList).endTransition .muteTimeout).examinePending
    else w

/-- The ramp tick of station `x` due at `due` (R74), the next 100 ms on, and what its completion means to the Transition
Engine (R36, R45). -/
def Work.rampTick (x : Station) (due : Nat) (w : Work) : Work :=
  let w := w.onStation x fun c u =>
    StationWork.rampTick c { u with carrier := { u.carrier with rampTimer := some (due + Config.rampTick) } }
  w.quiesceCheck.restoreCheck.examinePending

/-- The verify timer of station `x` runs out while it is VERIFYING (R124): a requester in CONFIRM ends the transition
COMPLETED_REDUCED (R46). -/
def Work.verifyExpiry (x : Station) (w : Work) : Work :=
  let w := w.onStation x StationWork.verifyFailed
  match w.transition with
  | none => w
  | some t =>
    if t.phase = .confirm ∧ t.station = x then (w.endTransition (t.result.getD .completedReduced)).examinePending else w

/-- The measurement in progress completes (R98 to R101), the pending list is examined when a verification has ended its
transition (R46), and the next measurement starts (R96). -/
def Work.completeMeasurement (m : Measurement) (reference tower period delay : Nat) (w : Work) : Work :=
  let w := { w with measurement := none }
  let w :=
    if w.keeps m then
      (w.onStation m.entry.station (StationWork.keptMeasurement m reference tower period delay)).restoreCheck.examinePending
    else w
  w.recomputeScan

end Machine
end Sys2Proof
end

