-- ==== Sys2Proof/Machine/Evaluation.lean ====
section
/-! DEFINITION. The schedule evaluation (section 8.4) and the site clock's own events (section 8.1), with the commit of an
image (section 9.3), which makes an evaluation. -/
namespace Sys2Proof
namespace Machine

/-! ### The schedule evaluation (R139 to R141) -/

/-- The override test of an evaluation (R140). -/
def Work.testOverride (x : Station) (present : Recorded) (w : Work) : Work :=
  w.setOverride x ((w.override.get x).test present)

/-- A SCHEDULE request is fired for the station (R141): every condition but the expectation's. -/
def Plant.mayFire (p : Plant) (x : Station) : Bool :=
  p.schedulePolicy.get x == some .auto && p.override.get x == .clear && (p.carrier x).state != .dark
    && !p.owns x && (p.pendingOf x).isNone && p.retryHold.get x == 0

/-- The station's active pattern as a number, 0 for none (R168). -/
def patternNumber : Option PatternNo → Nat
  | some p => p.val + 1
  | none => 0

/-- A SCHEDULE request is submitted, and when it is accepted SCHEDULE_REQUEST follows whatever the acceptance posts
(R141). -/
def Work.fire (x : Station) (target : Nat) (o : Occurrence) (w : Work) : Work :=
  let r := w.submit x target .schedule
  match r.2.2, patternOfNumber? target with
  | some tag, some q => r.1.post x (.scheduleRequest tag q o)
  | _, _ => r.1

/-- One station's part of an evaluation: the override test, then the request (R140, R141). -/
def Work.evaluateStation (m : Memory) (r : Reading) (x : Station) (w : Work) : Work :=
  let w := w.testOverride x (recordedOccurrence m x r)
  match determining m x r with
  | none => w
  | some (e, o) =>
    let target := (scheduleEntry m x e).target
    if w.mayFire x ∧ target ≠ patternNumber (w.active x) then w.fire x target o else w

/-- The retry hold of a station is decreased at a minute tick (R144). -/
def Work.decreaseHold (x : Station) (w : Work) : Work :=
  { w with retryHold := w.retryHold.set x (w.retryHold.get x - 1) }

/-- A schedule evaluation (R139): with a valid clock and an active image, station A first and then station B; at a minute
tick each station's retry hold is decreased before it is dealt with. -/
def Work.evaluate (minuteTick : Bool) (w : Work) : Work :=
  match w.clock, w.image with
  | some r, some m =>
    let deal (x : Station) (w : Work) : Work :=
      Work.evaluateStation m r x (if minuteTick then w.decreaseHold x else w)
    deal .B (deal .A w)
  | _, _ => w

/-! ### The site clock's events (R133, R134) -/

/-- A tick of the site clock due at `due` (R133): one second on, with the next tick a second later; past the end of 2099
the clock is invalid and ticks no more. A tick that brings the second to 0 is a minute tick, with its evaluation
(R139). -/
def Work.clockTick (due : Nat) (r : Reading) (w : Work) : Work :=
  match r.tick with
  | none => { w with clock := none, clockTimer := none }
  | some next =>
    let w := { w with clock := some next, clockTimer := some (due + Config.seconds 1) }
    if next.second = 0 then w.evaluate true else w

/-- A CLOCK SET received on Link `x` (R134). -/
def Work.setClock (x : Station) (r : Reading) (w : Work) : Work × ReplyCode :=
  if r.valid then
    let previous := w.clock
    let w := { w with clock := some r, clockTimer := some (w.elapsed + Config.seconds 1) }
    ((w.postAll [.A, .B] (.clockSet x previous r)).evaluate false, .accepted)
  else (w, .badArg)

/-! ### Commit (R149, R150) -/

/-- The policies at the activation of an image (R13, R150 step 2): the defaults when no image was active before, else as
they were. -/
def Work.firstDefaults (old : Option Memory) (m : Memory) (w : Work) : Work :=
  match old with
  | none => w.takeDefaults m
  | some _ => w

/-- Every open readback is closed, and the found image is kept no longer (R150 step 4, R151). -/
def Work.closeReadbacks (w : Work) : Work := { w with readback := Pair.both none, foundImage := none }

/-- The slot becomes FREE, and its buffer goes to the retained store as an image write (R150 step 5). -/
def Work.storeBuffer (w : Work) : Work := Work.queueImage w.loadBuffer w.freeSlot

/-- What a successful commit does, in the order of R150. -/
def Work.commit (x : Station) (w : Work) : Work :=
  let w := (w.activate w.loadBuffer).firstDefaults w.image w.loadBuffer
  (w.clearHolds.closeReadbacks.storeBuffer.postAll [.A, .B] (.tableChanged x)).evaluate false

/-- A LOAD COMMIT received on Link `x` (R149): the code, and for INVALID the failing offset. -/
def Work.loadCommit (x : Station) (w : Work) : Work × ReplyCode × Option Nat :=
  match w.loadSlot with
  | .held holder _ _ true =>
    if holder ≠ x then (w, .sequence, none)
    else if w.transition.isSome || !w.pendingList.isEmpty || w.imageWritePending then (w, .busy, none)
    else
      match firstFailure w.loadBuffer with
      | some offset => (w, .invalid, some offset)
      | none =>
        if w.mismatch w.loadBuffer .A || w.mismatch w.loadBuffer .B then (w, .mismatch, none)
        else (w.commit x, .accepted, none)
  | _ => (w, .sequence, none)

/-! ### Loading and readback requests (R147, R148, R151) -/

/-- A LOAD OPEN received on Link `x` (R147). -/
def Work.loadOpen (x : Station) (size : Nat) (w : Work) : Work × ReplyCode :=
  if isBlockSize size = false then (w, .badArg)
  else if w.loadSlot ≠ .free ∧ w.loadSlot.heldBy x = false then (w, .loadBusy)
  else (Work.reloadIdle { w with loadSlot := .held x size 0 false, loadBuffer := [] }, .accepted)

/-- A LOAD BLOCK received on Link `x` (R148). -/
def Work.loadBlock (x : Station) (index : Nat) (data : List Byte) (w : Work) : Work × ReplyCode :=
  match w.loadSlot with
  | .held holder size expected false =>
    if holder ≠ x ∨ index ≠ expected then (w, .sequence)
    else if data.length ≠ blockLength size index then (w, .badLength)
    else
      (Work.reloadIdle
        { w with
          loadBuffer := Memory.writeBlock w.loadBuffer (index * size) data
          loadSlot := .held holder size (expected + 1) (index == lastBlockIndex size) }, .accepted)
  | _ => (w, .sequence)

/-- A LOAD CANCEL received on Link `x` (R147). -/
def Work.loadCancel (x : Station) (w : Work) : Work × ReplyCode :=
  if w.loadSlot.heldBy x then (w.freeSlot, .accepted) else (w, .sequence)

/-- A READBACK OPEN received on Link `x` (R151). -/
def Work.readbackOpen (x : Station) (size : Nat) (w : Work) : Work × ReplyCode :=
  if isBlockSize size then ({ w with readback := w.readback.set x (some size) }, .accepted) else (w, .badArg)

/-- A READBACK BLOCK received on Link `x` (R151): the code, and the bytes of the block. -/
def Plant.readbackBlock (p : Plant) (x : Station) (index : Nat) : ReplyCode × List Byte :=
  match p.readback.get x with
  | none => (.sequence, [])
  | some size =>
    if lastBlockIndex size < index then (.badArg, [])
    else (.accepted, Memory.readBlock p.readbackBytes (index * size) (blockLength size index))

/-! ### Policies (R143, R164) -/

/-- A CONSENT POLICY request received on Link `x` (R164). -/
def Work.setConsentPolicy (x : Station) (value : Nat) (w : Work) : Work × ReplyCode :=
  if w.image.isNone then (w, .notConfigured)
  else
    match consentPolicyOf? value with
    | none => (w, .badArg)
    | some policy => ({ w with consentPolicy := w.consentPolicy.set x (some policy) }, .accepted)

/-- A SCHEDULE POLICY request received on Link `x` (R143): AUTO also clears the override. -/
def Work.setSchedulePolicy (x : Station) (value : Nat) (w : Work) : Work × ReplyCode :=
  if w.image.isNone then (w, .notConfigured)
  else
    match schedulePolicyOf? value with
    | none => (w, .badArg)
    | some policy =>
      let w := { w with schedulePolicy := w.schedulePolicy.set x (some policy) }
      (if policy = .auto then w.setOverride x .clear else w, .accepted)

end Machine
end Sys2Proof
end

