-- ==== Sys2Proof/Machine/Operands.lean ====
section
/-! DEFINITION. The formats of chapter 11: the codes, the bodies of requests, the bodies of notices and of the query
records, and the frames of the link. -/
namespace Sys2Proof
namespace Machine

/-! ### Codes (R143, R163 to R168) -/

/-- A station's code (R168). -/
def stationCode : Station → Byte
  | .A => 1
  | .B => 2

/-- A station set's code, A in bit 0 and B in bit 1 (R168). -/
def stationSetCode (s : StationSet) : Byte := flagByte s.a + 2 * flagByte s.b

/-- A pattern's byte: its number, 0 for none (R168). -/
def patternCode (p : Option PatternNo) : Byte := byteOf (patternNumber p)

/-- A carrier state's code (R168). -/
def carrierCode : CarrierState → Byte
  | .dark => 0
  | .normal => 1
  | .lowering => 2
  | .held => 3
  | .raising => 4
  | .verifying => 5
  | .reduced => 6

/-- An array, tower or quantity status's code (R168). -/
def statusCode : Status → Byte
  | .unknown => 0
  | .inTolerance => 1
  | .advisory => 2
  | .out => 3

/-- A phase's code (R168). -/
def phaseCode : Phase → Byte
  | .plan => 1
  | .consentWait => 2
  | .quiesce => 3
  | .switch => 4
  | .reverse => 5
  | .restore => 6
  | .confirm => 7

/-- A ramp purpose's code (R168). -/
def purposeCode : RampPurpose → Byte
  | .hold => 1
  | .reduce => 2
  | .level => 3
  | .full => 4
  | .fault => 5

/-- A source's code (R167). -/
def sourceCode : Source → Byte
  | .manual => 0
  | .schedule => 1

/-- A result's code, in the order of the table of section 2.13 (R167). -/
def resultCode : Result → Byte
  | .completed => 0x00
  | .completedReduced => 0x01
  | .withdrawn => 0x02
  | .superseded => 0x03
  | .conflict => 0x04
  | .contactorFailed => 0x05
  | .refusedByPeer => 0x06
  | .noConsent => 0x07
  | .muteTimeout => 0x08
  | .switchFaultReverted => 0x09
  | .switchFaultDark => 0x0A
  | .rfDuringSwitch => 0x0B
  | .arrayDisturbed => 0x0C

/-- A reply code's value (R165). -/
def replyCodeByte : ReplyCode → Byte
  | .accepted => 0x00
  | .alreadyActive => 0x01
  | .badArg => 0x02
  | .unknownKind => 0x03
  | .notConfigured => 0x04
  | .inProgress => 0x05
  | .tooLate => 0x06
  | .nothingToWithdraw => 0x07
  | .staleAnswer => 0x08
  | .busy => 0x09
  | .notOwner => 0x0A
  | .stillFailed => 0x0B
  | .loadBusy => 0x0C
  | .sequence => 0x0D
  | .badLength => 0x0E
  | .invalid => 0x0F
  | .mismatch => 0x10
  | .clockInvalid => 0x11

/-- A consent policy's code (R164). -/
def consentCode : ConsentPolicy → Byte
  | .auto => 0
  | .ask => 1
  | .refuse => 2

/-- A schedule policy's code (R143). -/
def scheduleCode : SchedulePolicy → Byte
  | .auto => 0
  | .manual => 1

/-- A start-up cause's code (R168). -/
def resetCode : ResetKind → Byte
  | .powerOn => 1
  | .resetLine => 2

/-- A recorded position's code: 00h, 01h, FFh for UNKNOWN (R163). -/
def positionCode : Option Side → Byte
  | some .zero => 0
  | some .one => 1
  | none => 0xFF

/-- A contactor state's code (R163). -/
def liveCode : LiveState → Byte
  | .idle => 0
  | .pulsing => 1
  | .settling => 2
  | .failed => 3

/-- A failure kind's code (R163). -/
def failureCode : FailureKind → Byte
  | .noFailure => 0
  | .stuck => 1
  | .disagree => 2

/-- A fault cause's code (R167). -/
def causeCode : FaultCause → Byte
  | .move => 0
  | .unexpected => 1
  | .release => 2

/-- A clock reading in seven bytes (R163). -/
def readingBytes (r : Reading) : List Byte :=
  bytes16 r.year ++ bytes16 r.day ++ [byteOf r.hour, byteOf r.minute, byteOf r.second]

/-- A clock reading, or seven bytes of 0 when the clock is invalid (R168). -/
def clockBytes : Option Reading → List Byte
  | some r => readingBytes r
  | none => List.replicate 7 0

/-- The statuses of towers 2–6, one byte each. -/
def statusBytes (v : Vector Status 5) : List Byte := v.toList.map statusCode

/-- Flags in bits 0–4 for towers 2–6. -/
def flagBits (v : Vector Bool 5) : Byte :=
  byteOf (v.toList.foldr (fun b n => 2 * n + (if b then 1 else 0)) 0)

/-! ### Notices (R167, R168) -/

/-- A notice's kind and its fields from offset 3 (R167, R168). R8 has a pattern's label reported in the notices that name a
pattern, and the layouts of R167 and R168 name a pattern by its number alone: following the layouts there is the model's
choice (DESIGN CHOICE, log entry 9). -/
def Notice.encode : Notice → Byte × List Byte
  | .started cause interrupted configured a b =>
    (0x40, [resetCode cause, flagByte interrupted, flagByte configured, patternCode a, patternCode b])
  | .transitionStarted tag requester target source moves =>
    (0x41, [byteOf tag, stationCode requester, patternCode (some target), sourceCode source, byteOf moves])
  | .transitionEnded tag requester target source result a b =>
    (0x42, [byteOf tag, stationCode requester, patternCode (some target), sourceCode source, resultCode result,
      patternCode a, patternCode b])
  | .scheduleRequest tag target o =>
    (0x43, [byteOf tag, patternCode (some target), byteOf o.entry] ++ bytes16 o.year ++ bytes16 o.day)
  | .consentQuery tag requester shared hold => (0x44, [byteOf tag, stationCode requester, byteOf shared] ++ bytes16 hold)
  | .consentWithdrawn tag => (0x45, [byteOf tag])
  | .carrierState state level p ramp mute rf =>
    (0x46, [carrierCode state] ++ bytes16 level ++ [patternCode p]
      ++ (match ramp with
          | some r => bytes16 r.target ++ [purposeCode r.purpose]
          | none => [0xFF, 0xFF, 0x00])
      ++ [flagByte mute + 2 * flagByte rf])
  | .arrayStatus p status previous towers =>
    (0x47, [patternCode p, statusCode status, statusCode previous] ++ statusBytes towers)
  | .verified p v seconds => (0x48, [patternCode p, byteOf v, byteOf seconds])
  | .verifyFailed p count v status => (0x49, [patternCode p, byteOf count, byteOf v, statusCode status])
  | .outOfTolerance p hold towers => (0x4A, [patternCode p] ++ bytes16 hold ++ [flagBits towers])
  | .contactorFault k live cause =>
    (0x4B, [byteOf (k.val + 1), positionCode live.position, liveCode live.state, failureCode live.failure, causeCode cause])
  | .rfWhileInhibited state clock => (0x4C, [carrierCode state, flagByte clock.isSome] ++ clockBytes clock)
  | .tableChanged committer => (0x4D, [stationCode committer])
  | .clockSet setter previous reading =>
    (0x4E, [stationCode setter, flagByte previous.isSome] ++ clockBytes previous ++ readingBytes reading)
  | .loadExpired size expected => (0x4F, [byteOf size, byteOf expected])

/-- The body of a notice frame: the kind, the lost count, the station it is sent to, then the fields (R167, R168). -/
def noticeBody (n : Notice) (lost : Nat) (x : Station) : List Byte :=
  let e := n.encode
  [e.1, byteOf lost, stationCode x] ++ e.2

/-! ### Frames (R157, R161, R168) -/

/-- The escape of a body or check byte on the line (R168). -/
def escapeByte (b : Byte) : List Byte :=
  if b = 0xE3 then [0xD6, 0x31]
  else if b = 0xD6 then [0xD6, 0x32]
  else if b = 0x11 then [0xD6, 0x33]
  else if b = 0x13 then [0xD6, 0x34]
  else [b]

/-- The byte an escape stands for, if its second byte is one of the four (R157). -/
def unescape? (b : Byte) : Option Byte :=
  if b = 0x31 then some 0xE3
  else if b = 0x32 then some 0xD6
  else if b = 0x33 then some 0x11
  else if b = 0x34 then some 0x13
  else none

/-- The 8-bit sum of some bytes. -/
def byteSum (bs : List Byte) : Byte := bs.foldl (fun a b => a + b) 0

/-- The check byte: the two's complement of the body's 8-bit sum (R168). -/
def checkByte (body : List Byte) : Byte := -byteSum body

/-- A frame as it is sent: the delimiter, the escaped body and check byte, the delimiter (R161, R168). -/
def frameBytes (body : List Byte) : List Byte := 0xE3 :: ((body ++ [checkByte body]).flatMap escapeByte ++ [0xE3])

/-! ### Requests (R163, R168) -/

/-- A request as its block receives it. -/
inductive Request where
  | patternRequest (target : Byte)
  | withdraw
  | consentReply (tag answer : Byte)
  | consentPolicy (policy : Byte)
  | schedulePolicy (policy : Byte)
  | statusQuery
  | monitorQuery
  | contactorQuery
  | contactorRelease (index : Byte)
  | clockSet (year day : Word16) (hour minute second : Byte)
  | clockQuery
  | loadOpen (size : Byte)
  | loadBlock (index : Byte) (data : List Byte)
  | loadCommit
  | loadCancel
  | readbackOpen (size : Byte)
  | readbackBlock (index : Byte)
  deriving DecidableEq, Repr

/-- A request's kind byte (R163). -/
def Request.kind : Request → Byte
  | .patternRequest _ => 0x01
  | .withdraw => 0x02
  | .consentReply _ _ => 0x03
  | .consentPolicy _ => 0x04
  | .schedulePolicy _ => 0x05
  | .statusQuery => 0x06
  | .monitorQuery => 0x07
  | .contactorQuery => 0x08
  | .contactorRelease _ => 0x09
  | .clockSet _ _ _ _ _ => 0x0A
  | .clockQuery => 0x0B
  | .loadOpen _ => 0x0C
  | .loadBlock _ _ => 0x0D
  | .loadCommit => 0x0E
  | .loadCancel => 0x0F
  | .readbackOpen _ => 0x10
  | .readbackBlock _ => 0x11

/-- A two-byte operand, most significant byte first (R168). -/
def wordBytes (w : Word16) : List Byte := bytes16 w.toNat

/-- A request's body after the kind (R163). -/
def Request.fields : Request → List Byte
  | .patternRequest target => [target]
  | .consentReply tag answer => [tag, answer]
  | .consentPolicy policy | .schedulePolicy policy => [policy]
  | .contactorRelease index => [index]
  | .clockSet year day hour minute second => wordBytes year ++ wordBytes day ++ [hour, minute, second]
  | .loadOpen size | .readbackOpen size => [size]
  | .loadBlock index data => index :: data
  | .readbackBlock index => [index]
  | .withdraw | .statusQuery | .monitorQuery | .contactorQuery | .clockQuery | .loadCommit | .loadCancel => []

/-- A request's frame body (R163, R168). -/
def Request.body (r : Request) : List Byte := r.kind :: r.fields

/-- A body with no operand bytes. -/
def noOperands (r : Request) (fields : List Byte) : Except ReplyCode Request :=
  match fields with
  | [] => .ok r
  | _ => .error .badLength

/-- A body with one operand byte. -/
def oneOperand (r : Byte → Request) (fields : List Byte) : Except ReplyCode Request :=
  match fields with
  | [b] => .ok (r b)
  | _ => .error .badLength

/-- A CONSENT REPLY's two operand bytes. -/
def consentOperands (fields : List Byte) : Except ReplyCode Request :=
  match fields with
  | [tag, answer] => .ok (.consentReply tag answer)
  | _ => .error .badLength

/-- A CLOCK SET's seven operand bytes. -/
def clockOperands (fields : List Byte) : Except ReplyCode Request :=
  match fields with
  | [y1, y0, d1, d0, hour, minute, second] => .ok (.clockSet (y1 ++ y0) (d1 ++ d0) hour minute second)
  | _ => .error .badLength

/-- A LOAD BLOCK's index and data: at least the index (R163 step 2). -/
def blockOperands (fields : List Byte) : Except ReplyCode Request :=
  match fields with
  | index :: data => .ok (.loadBlock index data)
  | [] => .error .badLength

/-- The request of a frame body, or UNKNOWN_KIND or BAD_LENGTH (R163 steps 1 and 2). -/
def parseRequest (body : List Byte) : Except ReplyCode Request :=
  match body with
  | [] => .error .unknownKind
  | kind :: fields =>
    match kind.toNat with
    | 0x01 => oneOperand .patternRequest fields
    | 0x02 => noOperands .withdraw fields
    | 0x03 => consentOperands fields
    | 0x04 => oneOperand .consentPolicy fields
    | 0x05 => oneOperand .schedulePolicy fields
    | 0x06 => noOperands .statusQuery fields
    | 0x07 => noOperands .monitorQuery fields
    | 0x08 => noOperands .contactorQuery fields
    | 0x09 => oneOperand .contactorRelease fields
    | 0x0A => clockOperands fields
    | 0x0B => noOperands .clockQuery fields
    | 0x0C => oneOperand .loadOpen fields
    | 0x0D => blockOperands fields
    | 0x0E => noOperands .loadCommit fields
    | 0x0F => noOperands .loadCancel fields
    | 0x10 => oneOperand .readbackOpen fields
    | 0x11 => oneOperand .readbackBlock fields
    | _ => .error .unknownKind

/-- The answer to a request: its code and the reply data (R165). -/
structure Reply where
  code : ReplyCode
  data : List Byte
  deriving DecidableEq, Repr

/-- A reply's body: the request's kind plus 80h, the code, the data (R168). -/
def Reply.body (kind : Byte) (r : Reply) : List Byte := (kind + 0x80) :: replyCodeByte r.code :: r.data

/-- A reply with no data. -/
def Reply.plain (code : ReplyCode) : Reply := ⟨code, []⟩

/-! ### Query records (R70, R118, R166) -/

/-- The tag byte of an item that may not exist (R166). -/
def tagByte (tag : Option Nat) : Byte := byteOf (tag.getD 0)

/-- The STATUS record of station `x` (R166, R168); the dropped-frame count is its port's. -/
def Plant.statusRecord (p : Plant) (x : Station) (dropped : Nat) : List Byte :=
  let r := p.carrier x
  let label := match p.active x with
    | some q => (pattern p.activeImage x q).label
    | none => List.replicate 4 0x20
  [patternCode (p.active x)] ++ label ++ [carrierCode r.state] ++ bytes16 r.level
    ++ [statusCode (p.stations.get x).arrayStatus, flagByte r.muteConfirmed + 2 * flagByte (r.rfPresent == some true),
      ((p.consentPolicy.get x).map consentCode).getD 0xFF, ((p.schedulePolicy.get x).map scheduleCode).getD 0xFF,
      flagByte (p.override.get x != .clear), tagByte ((p.pendingOf x).map fun e => e.tag),
      tagByte (p.transition.map fun t => t.tag), (p.transition.map fun t => phaseCode t.phase).getD 0,
      (p.transition.map fun t => stationCode t.station).getD 0, tagByte ((p.queryTo x).map fun t => t.tag),
      flagByte p.clock.isSome, (p.startUpCause.map resetCode).getD 0, flagByte p.interrupted, flagByte p.image.isSome]
    ++ bytes16 dropped

/-- A tower's 13 bytes of the MONITOR record (R118, R168). -/
def towerRecord (inPattern : Bool) (ch : Channel) : List Byte :=
  let figures := if inPattern then ch.figures else none
  let status := if inPattern then ch.towerStatus else .unknown
  [flagByte inPattern + 2 * flagByte ch.stale + 4 * flagByte figures.isSome, byteOf ch.window.length, statusCode status]
    ++ match figures with
      | some f =>
        bytes16 f.ratioAverage ++ signed16 f.ratioDeviation ++ signed16 f.phaseDeviation
          ++ [byteOf f.ratioMargin, byteOf f.phaseMargin, statusCode f.ratioStatus, statusCode f.phaseStatus]
      | none => List.replicate 10 0

/-- The MONITOR record of station `x` (R118, R168). -/
def Plant.monitorRecord (p : Plant) (x : Station) : List Byte :=
  let u := p.stations.get x
  let n := match u.activePattern with
    | some q => (pattern p.activeImage x q).towers
    | none => 0
  [statusCode u.arrayStatus] ++ bytes16 u.reference.amplitude ++ [flagByte u.reference.present, byteOf n]
    ++ (List.finRange 5).flatMap fun i => towerRecord (decide (i.val + 2 ≤ n)) u.channels[i]

/-- The 16 entries of a CONTACTOR QUERY's reply (R70, R163). -/
def Plant.contactorEntries (p : Plant) : List Byte :=
  (List.finRange 16).flatMap fun k =>
    let l := p.contactors[k]
    [positionCode l.position, liveCode l.state, failureCode l.failure, stationSetCode (carrierSet p.activeImage k)]

end Machine
end Sys2Proof
end

