-- ==== Sys2Proof/Machine/Requests.lean ====
section
/-! DEFINITION. The request handler of a port (R163): each request's work and its one reply. -/
namespace Sys2Proof
namespace Machine

/-- PATTERN REQUEST (R22): an accepted request carries its tag in the reply. -/
def actPatternRequest (x : Station) (target : Byte) (w : Work) : Work × Reply :=
  let r := w.submit x target.toNat .manual
  (r.1, ⟨r.2.1, (r.2.2.map byteOf).toList⟩)

/-- WITHDRAW (R47, R48). -/
def actWithdraw (x : Station) (w : Work) : Work × Reply :=
  let r := w.withdraw x
  (r.1, .plain r.2)

/-- CONSENT REPLY (R31 to R33). -/
def actConsentReply (x : Station) (tag answer : Byte) (w : Work) : Work × Reply :=
  let r := w.consentReply x tag.toNat answer.toNat
  (r.1, .plain r.2)

/-- CONSENT POLICY (R164). -/
def actConsentPolicy (x : Station) (policy : Byte) (w : Work) : Work × Reply :=
  let r := w.setConsentPolicy x policy.toNat
  (r.1, .plain r.2)

/-- SCHEDULE POLICY (R143). -/
def actSchedulePolicy (x : Station) (policy : Byte) (w : Work) : Work × Reply :=
  let r := w.setSchedulePolicy x policy.toNat
  (r.1, .plain r.2)

/-- STATUS QUERY (R166): no state changes. -/
def actStatusQuery (x : Station) (dropped : Nat) (w : Work) : Work × Reply :=
  (w, ⟨.accepted, w.statusRecord x dropped⟩)

/-- MONITOR QUERY (R118): no state changes. -/
def actMonitorQuery (x : Station) (w : Work) : Work × Reply := (w, ⟨.accepted, w.monitorRecord x⟩)

/-- CONTACTOR QUERY (R70): no state changes. -/
def actContactorQuery (w : Work) : Work × Reply := (w, ⟨.accepted, w.contactorEntries⟩)

/-- CONTACTOR RELEASE (R66, R67). -/
def actContactorRelease (x : Station) (index : Byte) (w : Work) : Work × Reply :=
  let r := w.release x index.toNat
  (r.1, .plain r.2)

/-- CLOCK SET (R134). -/
def actClockSet (x : Station) (year day : Word16) (hour minute second : Byte) (w : Work) : Work × Reply :=
  let r := w.setClock x ⟨year.toNat, day.toNat, hour.toNat, minute.toNat, second.toNat⟩
  (r.1, .plain r.2)

/-- CLOCK QUERY (R135): no state changes. -/
def actClockQuery (w : Work) : Work × Reply :=
  match w.clock with
  | some r => (w, ⟨.accepted, readingBytes r⟩)
  | none => (w, .plain .clockInvalid)

/-- LOAD OPEN (R147). -/
def actLoadOpen (x : Station) (size : Byte) (w : Work) : Work × Reply :=
  let r := w.loadOpen x size.toNat
  (r.1, .plain r.2)

/-- LOAD BLOCK (R148). -/
def actLoadBlock (x : Station) (index : Byte) (data : List Byte) (w : Work) : Work × Reply :=
  let r := w.loadBlock x index.toNat data
  (r.1, .plain r.2)

/-- LOAD COMMIT (R149, R150): INVALID carries the failing offset in two bytes (R165). -/
def actLoadCommit (x : Station) (w : Work) : Work × Reply :=
  let r := w.loadCommit x
  (r.1, ⟨r.2.1, (r.2.2.map bytes16).getD []⟩)

/-- LOAD CANCEL (R147). -/
def actLoadCancel (x : Station) (w : Work) : Work × Reply :=
  let r := w.loadCancel x
  (r.1, .plain r.2)

/-- READBACK OPEN (R151). -/
def actReadbackOpen (x : Station) (size : Byte) (w : Work) : Work × Reply :=
  let r := w.readbackOpen x size.toNat
  (r.1, .plain r.2)

/-- READBACK BLOCK (R151): no state changes, and an accepted one carries the index and the bytes (R163). -/
def actReadbackBlock (x : Station) (index : Byte) (w : Work) : Work × Reply :=
  let r := w.readbackBlock x index.toNat
  (w, ⟨r.1, if r.1 = .accepted then index :: r.2 else []⟩)

/-- A request is acted on by the block it goes to (R163 step 3). -/
def act (x : Station) (dropped : Nat) (r : Request) (w : Work) : Work × Reply :=
  match r with
  | .patternRequest target => actPatternRequest x target w
  | .withdraw => actWithdraw x w
  | .consentReply tag answer => actConsentReply x tag answer w
  | .consentPolicy policy => actConsentPolicy x policy w
  | .schedulePolicy policy => actSchedulePolicy x policy w
  | .statusQuery => actStatusQuery x dropped w
  | .monitorQuery => actMonitorQuery x w
  | .contactorQuery => actContactorQuery w
  | .contactorRelease index => actContactorRelease x index w
  | .clockSet year day hour minute second => actClockSet x year day hour minute second w
  | .clockQuery => actClockQuery w
  | .loadOpen size => actLoadOpen x size w
  | .loadBlock index data => actLoadBlock x index data w
  | .loadCommit => actLoadCommit x w
  | .loadCancel => actLoadCancel x w
  | .readbackOpen size => actReadbackOpen x size w
  | .readbackBlock index => actReadbackBlock x index w

/-- The work of an event, and the state it leaves: the records, the scan list brought into line (R96), and the notices
in their queues. -/
def State.event (f : Work → Work) (s : State) : State := s.finish ((f s.work).settleScan s.toPlant)

/-- A reply is placed in the port's reply slot, which becomes full (R159). -/
def State.placeReply (x : Station) (body : List Byte) (s : State) : State :=
  s.onPort x fun p => { p with reply := some body }

/-- A request is acted on at the event of its handing, and its one reply placed in the slot (R159, R163). -/
def State.answer (x : Station) (r : Request) (s : State) : State :=
  let dropped := (s.ports.get x).dropped
  (s.event fun w => (act x dropped r w).1).placeReply x ((act x dropped r s.work).2.body r.kind)

/-- A good frame is handed to the request handler (R159, R163): UNKNOWN_KIND and BAD_LENGTH change no state but the
slot. -/
def State.handOn (x : Station) (body : List Byte) (s : State) : State :=
  match parseRequest body with
  | .ok r => s.answer x r
  | .error code => s.placeReply x (Reply.body (body.headD 0) (.plain code))

end Machine
end Sys2Proof
end

