-- ==== Sys2Proof/Machine/Link.lean ====
section
/-! DEFINITION. A Station Link Port (chapter 10): the line and the gap timer, the receive FIFO, the frame assembler, handing
on and back-pressure, flow control, the transmitter, and the port reset of a break. -/
namespace Sys2Proof
namespace Machine

/-! ### The line (R155) -/

/-- The rate two straps select (R155): true is high. -/
def strapRate (strap1 strap0 : Bool) : LinkRate :=
  match strap1, strap0 with
  | false, false => .r9600
  | false, true => .r19200
  | true, false => .r38400
  | true, true => .r115200

/-- A character time, 10 bit times (R155), in units of elapsed time (log entry 2). -/
def LinkRate.charTime : LinkRate → Nat
  | .r9600 => 600000
  | .r19200 => 300000
  | .r38400 => 150000
  | .r115200 => 50000

/-- The gap timer runs for 20 character times (R158). -/
def LinkRate.gapTime (r : LinkRate) : Nat := 20 * r.charTime

/-- The delimiter (R157). -/
def delimiter : Byte := 0xE3

/-- The escape (R157). -/
def escapeMark : Byte := 0xD6

/-- The flow character a received byte is, if it is one (R156). -/
def flowChar? (b : Byte) : Option FlowChar := if b = 0x11 then some .xon else if b = 0x13 then some .xoff else none

/-- A flow character's byte (R156). -/
def FlowChar.byte : FlowChar → Byte
  | .xon => 0x11
  | .xoff => 0x13

/-! ### The gap timer (R158) -/

/-- A character received while a frame has begun on the line restarts the gap timer (R158). -/
def Port.restartGap (expiry : Nat) (p : Port) : Port := if p.line = .begun then { p with gapTimer := some expiry } else p

/-- What a received byte other than a flow character means for the line (R158): a delimiter ends a frame begun and stops
the timer, and a content byte that follows a delimiter begins one or goes on with it. -/
def Port.trackLine (b : Byte) (expiry : Nat) (p : Port) : Port :=
  if b = delimiter then { p with line := .delimiter, gapTimer := none }
  else
    match p.line with
    | .noDelimiter => p
    | .delimiter | .begun => { p with line := .begun, gapTimer := some expiry }

/-! ### The frame assembler (R157) -/

/-- The frame in assembly is bad: it is cleared and counted, and the assembler goes on in a given state (R157). -/
def Port.dropFrame (next : AssemblerState) (p : Port) : Port :=
  { p with assembler := next, content := [], damaged := false, dropped := min 65535 (p.dropped + 1) }

/-- A content byte (R157): more than 161 of them make the frame bad. -/
def Port.addContent (b : Byte) (p : Port) : Port :=
  if p.content.length < Config.contentMax then { p with assembler := .body, content := p.content ++ [b] }
  else p.dropFrame .discard

/-- A frame's content is good (R157): its body is not empty, the sum with the check byte is 0, and it is not damaged. -/
def goodContent (content : List Byte) (damaged : Bool) : Bool :=
  decide (2 ≤ content.length) && byteSum content == 0 && !damaged

/-- The closing delimiter in BODY (R157): the body of a good frame, or a frame dropped. -/
def Port.closeFrame (p : Port) : Port × Option (List Byte) :=
  if goodContent p.content p.damaged then
    ({ p with assembler := .opened, content := [], damaged := false }, some p.content.dropLast)
  else (p.dropFrame .opened, none)

/-- The assembler takes a byte that is no delimiter, in OPEN or BODY (R157). -/
def Port.takeContent (b : Byte) (p : Port) : Port :=
  if b = escapeMark then { p with assembler := .escape } else p.addContent b

/-- The assembler takes a byte (R157): the port, and the body of a frame completed good. -/
def Port.takeByte (b : Byte) (p : Port) : Port × Option (List Byte) :=
  match p.assembler with
  | .hunt | .discard => (if b = delimiter then { p with assembler := .opened } else p, none)
  | .opened => (if b = delimiter then p else p.takeContent b, none)
  | .body => if b = delimiter then p.closeFrame else (p.takeContent b, none)
  | .escape =>
    (if b = delimiter then p.dropFrame .opened
      else
        match unescape? b with
        | some v => p.addContent v
        | none => p.dropFrame .discard, none)

/-- A loss mark or a line error takes effect on the assembler (R156, R157): the frame open, or the next to be opened, is
damaged; in DISCARD nothing changes. -/
def Port.takeLoss (p : Port) : Port := if p.assembler = .discard then p else { p with damaged := true }

/-- A gap mark takes effect on the assembler (R157, R158). A frame with content or an escape is dropped and counted; OPEN
before a content byte goes to HUNT with its frame, and so its flag, gone; DISCARD goes to HUNT; HUNT stays. -/
def Port.takeGap (p : Port) : Port :=
  match p.assembler with
  | .hunt => p
  | .opened => { p with assembler := .hunt, damaged := false }
  | .body | .escape => p.dropFrame .hunt
  | .discard => { p with assembler := .hunt }

/-! ### The receive FIFO and the flow toward the sender (R156, R160) -/

/-- The newest byte of the FIFO is marked (R156, R158). -/
def markLast (mark : FifoByte → FifoByte) (fifo : List FifoByte) : List FifoByte :=
  match fifo with
  | [] => []
  | [f] => [mark f]
  | f :: g :: rest => f :: markLast mark (g :: rest)

/-- A flow character is queued for transmission; only the later of two is sent (R160). -/
def Port.queueFlow (c : FlowChar) (p : Port) : Port := { p with flowQueued := some c }

/-- A byte joins the tail of the FIFO, or is lost at a full one and leaves a loss mark on the newest byte (R156). The byte
that brings the FIFO to 48 in state XON queues an XOFF (R160). -/
def Port.enqueue (b : Byte) (p : Port) : Port :=
  if p.fifo.length < Config.fifoSize then
    let p := { p with fifo := p.fifo ++ [⟨b, false, false⟩] }
    if p.fifo.length = Config.fifoHigh ∧ p.flowState = .xon then { p.queueFlow .xoff with flowState := .xoffSent } else p
  else { p with fifo := markLast (fun f => { f with loss := true }) p.fifo }

/-- A line error (R155, R156): a loss mark on the newest byte of the FIFO, or, when it is empty, its effect at once. -/
def Port.lineError (p : Port) : Port :=
  if p.fifo.isEmpty then p.takeLoss else { p with fifo := markLast (fun f => { f with loss := true }) p.fifo }

/-- The gap timer runs out (R158): a gap mark on the newest byte of the FIFO, or, when it is empty, its effect at once. The
next bytes follow no delimiter until one is received. -/
def Port.gapExpired (p : Port) : Port :=
  let p := { p with gapTimer := none, line := .noDelimiter }
  if p.fifo.isEmpty then p.takeGap else { p with fifo := markLast (fun f => { f with gap := true }) p.fifo }

/-- A byte leaves the FIFO's head (R156). The byte that brings the FIFO to 16 in state XOFF_SENT queues an XON (R160). -/
def Port.popped (rest : List FifoByte) (p : Port) : Port :=
  let p := { p with fifo := rest }
  if rest.length = Config.fifoLow ∧ p.flowState = .xoffSent then { p.queueFlow .xon with flowState := .xon } else p

/-- The assembler deals with a byte and then with its marks (R156, R158). R156 and R158 each say what one mark does and
give no order for a byte that carries both: taking the loss before the gap is the model's choice (DESIGN CHOICE, log
entry 27). -/
def Port.takeMarked (f : FifoByte) (p : Port) : Port × Option (List Byte) :=
  let r := p.takeByte f.byte
  let q := if f.loss then r.1.takeLoss else r.1
  (if f.gap then q.takeGap else q, r.2)

/-! ### The transmitter (R159 to R161) -/

/-- A character begins on the line. -/
def Port.send (b : Byte) (closesReply : Bool) (due : Nat) (p : Port) : Port := { p with char := some ⟨b, closesReply, due⟩ }

/-- An idle transmitter sends what is ready: a queued flow character, else, while RUNNING, the next byte of the frame in
progress (R160, R161). -/
def Port.transmit (due : Nat) (p : Port) : Port :=
  match p.char with
  | some _ => p
  | none =>
    match p.flowQueued with
    | some c => Port.send c.byte false due { p with flowQueued := none }
    | none =>
      match p.running, p.frame with
      | true, some ⟨b :: rest, isReply⟩ =>
        Port.send b (isReply && rest.isEmpty) due { p with frame := some ⟨rest, isReply⟩ }
      | _, _ => p

/-- A frame of which every byte has been sent is over (R161). -/
def Port.endFrame (p : Port) : Port :=
  match p.frame with
  | some ⟨[], _⟩ => { p with frame := none }
  | _ => p

/-- The character in transmission ends; the closing delimiter of a reply frame empties the slot (R159, R161). -/
def Port.endChar (c : TxChar) (p : Port) : Port :=
  let p := Port.endFrame { p with char := none }
  if c.closesReply then { p with reply := none } else p

/-- The transmitter can begin a frame (R161): RUNNING, with no frame in progress, no flow character queued and no character
in transmission. -/
def Port.canBegin (p : Port) : Bool := p.running && p.frame.isNone && p.flowQueued.isNone && p.char.isNone

/-- The next frame begins (R161): the reply's, or the head notice's, which leaves the queue with the lost count as it
stands. Its first character is sent at once. -/
def Port.beginFrame (x : Station) (due : Nat) (p : Port) : Port :=
  match p.reply, p.notices with
  | some body, _ => Port.transmit due { p with frame := some ⟨frameBytes body, true⟩ }
  | none, n :: rest =>
    Port.transmit due { p with frame := some ⟨frameBytes (noticeBody n p.lost x), false⟩, notices := rest, lost := 0 }
  | none, [] => p

/-! ### Port reset (R162) -/

/-- The character in progress at a port reset goes on, with no reply behind it to end (R162). -/
def TxChar.orphaned (c : TxChar) : TxChar := { c with closesReply := false }

/-- The port after a break: the values of a port reset, with the dropped-frame count and the character in transmission
left as they are, and the line low until it returns high (R162). R162 clears the frame in assembly and names no completed
frame that the paused assembler holds (R159): that such a frame is lost, neither handed on nor counted as dropped, is the
model's choice (DESIGN CHOICE, log entry 39). -/
def Port.broken (p : Port) : Port :=
  { Port.reset with lineLow := true, dropped := p.dropped, char := p.char.map TxChar.orphaned }

/-! ### The port within the part -/

/-- While a power-on or reset-line reset is held, the ports ignore their lines (R155). -/
def PartPhase.isHeld : PartPhase → Bool
  | .held _ => true
  | .starting _ | .running => false

/-- The port of link `x` receives: reset is not held, and the line has returned high since the last break (R155,
R162). -/
def State.hears (x : Station) (s : State) : Bool := !s.phase.isHeld && !(s.ports.get x).lineLow

/-- The reply slot of link `x` is empty: it counts as full until start-up has ended (R159). -/
def State.slotEmpty (x : Station) (s : State) : Bool := s.phase == .running && (s.ports.get x).reply.isNone

/-- The end of a character that begins now. -/
def State.charEnd (s : State) : Nat := s.elapsed + s.rate.charTime

/-- The expiry of a gap timer restarted now (R158). -/
def State.gapEnd (s : State) : Nat := s.elapsed + s.rate.gapTime

/-- Link `x`'s transmitter sends what is ready. -/
def State.transmit (x : Station) (s : State) : State := s.onPort x (Port.transmit s.charEnd)

/-- A good frame completed is handed on, or held by the paused assembler when the slot is full (R159). -/
def State.completeFrame (x : Station) (body : List Byte) (s : State) : State :=
  if s.slotEmpty x then s.handOn x body else s.onPort x fun p => { p with heldFrame := some body }

/-- What a byte taken by the assembler leaves to do. -/
def State.afterTake (x : Station) (done : Option (List Byte)) (s : State) : State :=
  match done with
  | some body => s.completeFrame x body
  | none => s

/-- The assembler of link `x` takes up to `n` bytes of the FIFO, pausing at a frame it must hold (R156, R159). -/
def State.drain (x : Station) (n : Nat) (s : State) : State :=
  match n with
  | 0 => s
  | n + 1 =>
    let p := s.ports.get x
    match p.heldFrame, p.fifo with
    | none, f :: rest =>
      let r := (p.popped rest).takeMarked f
      State.drain x n ((s.onPort x fun _ => r.1).afterTake x r.2)
    | _, _ => s

/-- The assembler of link `x` takes every byte it can (R156). -/
def State.drainAll (x : Station) (s : State) : State := s.drain x (s.ports.get x).fifo.length

/-- A received flow character sets the transmitter RUNNING or STOPPED (R160). -/
def State.takeFlow (x : Station) (c : FlowChar) (s : State) : State :=
  (s.onPort x fun p => { p.restartGap s.gapEnd with running := c == .xon }).transmit x

/-- A received byte joins the FIFO, and the assembler takes what it can (R156). -/
def State.takeData (x : Station) (b : Byte) (s : State) : State :=
  ((s.onPort x fun p => (p.trackLine b s.gapEnd).enqueue b).drainAll x).transmit x

/-- A character, or a line error, is received on link `x` (R155, R156, R158). -/
def State.receiveChar (x : Station) (b : Byte) (stopLow : Bool) (s : State) : State :=
  if s.hears x then
    if stopLow then s.onPort x fun p => (p.restartGap s.gapEnd).lineError
    else
      match flowChar? b with
      | some c => s.takeFlow x c
      | none => s.takeData x b
  else s

/-- The port at the closing delimiter of a good frame (R157, R158). A request command is such a frame's reception, and takes
whatever stands in the assembler, a damaged flag set in HUNT or OPEN included, to have been cleared before that frame was
opened: where the same characters on that port would bring a bad frame, dropped and counted, the command's frame is good. That
is the model's choice (DESIGN CHOICE, log entry 10). -/
def Port.frameClosed (p : Port) : Port :=
  { p with assembler := .opened, content := [], damaged := false, line := .delimiter, gapTimer := none }

/-- A frame with a given body is received whole on link `x`, its closing delimiter being received at this event (log entry
10). Behind a held frame its line bytes wait in the FIFO as any others do. -/
def State.receiveFrame (x : Station) (body : List Byte) (s : State) : State :=
  if s.hears x then
    match (s.ports.get x).heldFrame with
    | none => (s.onPort x Port.frameClosed).completeFrame x body
    | some _ => (frameBytes body).foldl (fun s b => s.receiveChar x b false) s
  else s

/-- A held frame is handed on once the slot is empty, and the assembler resumes (R159). -/
def State.resume (x : Station) (s : State) : State :=
  match (s.ports.get x).heldFrame with
  | some body =>
    if s.slotEmpty x then
      (((s.onPort x fun p => { p with heldFrame := none }).handOn x body).drainAll x).transmit x
    else s
  | none => s

/-- Elapsed time has reached `t`. -/
def State.reach (t : Nat) (s : State) : State := { s with elapsed := max s.elapsed t }

/-- The character in transmission on link `x` ends (R159 to R161). A flow character queued by then begins before the frame
held behind a reply is handed on and the FIFO is drained: R159 and R160 put both at this event and give no order (DESIGN
CHOICE, log entry 29). -/
def State.charSent (x : Station) (c : TxChar) (s : State) : State :=
  let s := s.reach c.due
  ((s.onPort x (Port.endChar c)).transmit x).resume x

/-- A break on link `x` (R162). -/
def State.breakOn (x : Station) (s : State) : State :=
  (s.event (Work.storePortReset x)).onPort x Port.broken

end Machine
end Sys2Proof
end

