-- ==== Sys2Proof/Machine/CarrierCommands.lean ====
section
/-! DEFINITION. The meanings of the Carrier Control Units' events: MUTE_TIMER_EXPIRY, RAMP_TICK, RF_PRESENT_EVENT,
VERIFY_TIMER_EXPIRY, OUT_OF_TOLERANCE_HOLD_EXPIRY and POWER_REFERENCE_PERIOD_START (chapters 4 and 7). A timer that does
not run has no expiry (log entry 8). -/
namespace Sys2Proof
namespace Machine

/-- MUTE_TIMER_EXPIRY (R36, R87). -/
def execMuteTimerExpiry (x : Station) (s : State) : Host.Outcome State Fault Refusal :=
  .next (s.event fun w => w.whenDue (w.carrier x).muteTimer (Work.muteExpiry x))

/-- A ramp tick of station `x`, when its ticks run (R74). -/
def Work.tickRamp (x : Station) (w : Work) : Work :=
  match (w.carrier x).rampTimer with
  | none => w
  | some due => (w.reach due).rampTick x due

/-- RAMP_TICK (R74). -/
def execRampTick (x : Station) (s : State) : Host.Outcome State Fault Refusal := .next (s.event (Work.tickRamp x))

/-- RF_PRESENT_EVENT (R85). -/
def execRfPresentEvent (x : Station) (active : Bool) (s : State) : Host.Outcome State Fault Refusal :=
  .next (s.event (Work.rfPresent x active))

/-- VERIFY_TIMER_EXPIRY (R124), in VERIFYING. -/
def execVerifyTimerExpiry (x : Station) (s : State) : Host.Outcome State Fault Refusal :=
  .next <| s.event fun w =>
    if (w.carrier x).state = .verifying then w.whenDue (w.carrier x).verifyTimer (Work.verifyExpiry x) else w

/-- OUT_OF_TOLERANCE_HOLD_EXPIRY (R128), in NORMAL. -/
def execOutOfToleranceHoldExpiry (x : Station) (s : State) : Host.Outcome State Fault Refusal :=
  .next <| s.event fun w =>
    if (w.carrier x).state = .normal then
      w.whenDue (w.carrier x).holdTimer fun w => w.onStation x StationWork.outOfTolerance
    else w

/-- A power-reference period of station `x` begins, due at `due`, the next 1000 µs on (R84). -/
def Work.beginPeriod (x : Station) (due : Nat) (w : Work) : Work :=
  w.onStation x fun _ u =>
    { u with carrier := { u.carrier.beginPeriod with periodTimer := some (due + Config.referencePeriod) } }

/-- The start of a power-reference period, when the periods run (R84). -/
def Work.tickPeriod (x : Station) (w : Work) : Work :=
  match (w.carrier x).periodTimer with
  | none => w
  | some due => (w.reach due).beginPeriod x due

/-- POWER_REFERENCE_PERIOD_START (R84). -/
def execPowerReferencePeriodStart (x : Station) (s : State) : Host.Outcome State Fault Refusal :=
  .next (s.event (Work.tickPeriod x))

end Machine
end Sys2Proof
end

