-- ==== Sys2Proof/Machine/ClockCommands.lean ====
section
/-! DEFINITION. The meanings of the site clock's events: SITE_CLOCK_TICK and MINUTE_TICK (R133, R139). -/
namespace Sys2Proof
namespace Machine

/-- A tick of the site clock, of those that a test of the present reading admits (R133); an invalid clock does not tick. -/
def Work.tickClock (admits : Reading → Bool) (w : Work) : Work :=
  match w.clock, w.clockTimer with
  | some r, some due => if admits r then (w.reach due).clockTick due r else w
  | _, _ => w

/-- SITE_CLOCK_TICK (R133): any tick, the evaluation of a minute tick included. -/
def execSiteClockTick (s : State) : Host.Outcome State Fault Refusal := .next (s.event (Work.tickClock fun _ => true))

/-- MINUTE_TICK (R133, R139): the tick that brings the second to 0, when that is the next one. -/
def execMinuteTick (s : State) : Host.Outcome State Fault Refusal := .next (s.event (Work.tickClock Reading.minuteTickNext))

end Machine
end Sys2Proof
end

