-- ==== Sys2Proof/Machine/DriveCommands.lean ====
section
/-! DEFINITION. The meanings of the Contactor Drive Unit's events: PULSE_TIME_END, SETTLE_TIME_END and DEBOUNCE_EVENT
(R53, R54, R58, R59). -/
namespace Sys2Proof
namespace Machine

/-- PULSE_TIME_END (R58), of the attempt in its pulse. -/
def execPulseTimeEnd (s : State) : Host.Outcome State Fault Refusal := .next (s.event Work.endPulse)

/-- SETTLE_TIME_END (R59), of the attempt in its settle time; a transition it ends lets the pending list go on (R51). -/
def execSettleTimeEnd (s : State) : Host.Outcome State Fault Refusal :=
  .next (s.event fun w => w.endSettle.examinePending)

/-- DEBOUNCE_EVENT (R53, R54). -/
def execDebounceEvent (contactor : Nat) (made0 made1 : Option Bool) (s : State) : Host.Outcome State Fault Refusal :=
  match contactorOfIndex? contactor with
  | none => .fault .noSuchContactor
  | some k => .next (s.event (Work.debounce k made0 made1))

end Machine
end Sys2Proof
end

