-- ==== Sys2Proof/Machine/LinkCommands.lean ====
section
/-! DEFINITION. The meanings of the Station Link Ports' events (chapter 10): CHARACTER_RECEIVED, GAP_TIMER_EXPIRY, BREAK,
CHARACTER_TRANSMITTED, FRAME_TRANSMISSION_START and LINE_RETURN_HIGH. -/
namespace Sys2Proof
namespace Machine

/-- CHARACTER_RECEIVED (R155, R156). -/
def execCharacterReceived (x : Station) (char : Byte) (stopLow : Bool) (s : State) : Host.Outcome State Fault Refusal :=
  .next (s.receiveChar x char stopLow)

/-- GAP_TIMER_EXPIRY (R158); a stopped timer has no expiry (log entry 8). -/
def execGapTimerExpiry (x : Station) (s : State) : Host.Outcome State Fault Refusal :=
  .next <|
    match (s.ports.get x).gapTimer with
    | none => s
    | some due => (s.reach due).onPort x Port.gapExpired

/-- BREAK (R162): while reset is held the line is ignored (R155), and the line must return high before another. -/
def execBreak (x : Station) (s : State) : Host.Outcome State Fault Refusal :=
  .next (if s.hears x then s.breakOn x else s)

/-- CHARACTER_TRANSMITTED (R159 to R161), of the character in transmission. -/
def execCharacterTransmitted (x : Station) (s : State) : Host.Outcome State Fault Refusal :=
  .next <|
    match (s.ports.get x).char with
    | none => s
    | some c => s.charSent x c

/-- FRAME_TRANSMISSION_START (R161): with no reply and no notice there is no frame to begin, and while reset is held the
transmit line is idle (R155). -/
def execFrameTransmissionStart (x : Station) (s : State) : Host.Outcome State Fault Refusal :=
  .next <|
    if !s.phase.isHeld && (s.ports.get x).canBegin then s.onPort x (Port.beginFrame x s.charEnd) else s

/-- LINE_RETURN_HIGH (R162). -/
def execLineReturnHigh (x : Station) (s : State) : Host.Outcome State Fault Refusal :=
  .next (s.onPort x fun p => { p with lineLow := false })

end Machine
end Sys2Proof
end

