-- ==== Sys2Proof/Machine/Resets.lean ====
section
/-! DEFINITION. The resets of the whole part and start-up (R153, R154). -/
namespace Sys2Proof
namespace Machine

/-! ### Reset held (R153) -/

/-- A reset cuts an image write short, and so draws a free value. -/
def Plant.cutsImage (p : Plant) : Bool :=
  match p.writing with
  | some ⟨.image _, _⟩ => true
  | _ => false

/-- A power-on or reset-line reset begins (R153): every block takes its reset values. The retained records stay, an image
record whose write is cut short torn (R152). Elapsed time and the free values drawn go on. -/
def State.wholeReset (kind : ResetKind) (s : State) : State :=
  { State.reset with
    phase := .held kind
    elapsed := s.elapsed
    freeDraws := if s.cutsImage then s.freeDraws + 1 else s.freeDraws
    rate := s.rate
    imageRecord := s.cutImageRecord
    lastRecord := s.lastRecord
    pending := s.pending }

/-! ### The end of reset (R74, R84, R154, R155) -/

/-- A carrier unit's own periodic events run from the end of reset: the ramp ticks (R74) and the power-reference periods,
the first of which begins now (R84). -/
def Carrier.startClocks (now : Nat) (r : Carrier) : Carrier :=
  { r.beginPeriod with
    rampTimer := some (now + Config.rampTick)
    periodTimer := some (now + Config.referencePeriod) }

/-- Both carrier units' periodic events start. -/
def Plant.startClocks (p : Plant) : Pair StationUnit :=
  let start (u : StationUnit) : StationUnit := { u with carrier := u.carrier.startClocks p.elapsed }
  ⟨start p.stations.a, start p.stations.b⟩

/-- The reset of a kind ends (R154, R155): the straps are sampled and the start-up wait begins. -/
def State.endReset (kind : ResetKind) (rate : LinkRate) (s : State) : State :=
  { s with
    phase := .starting kind
    rate := rate
    startUpTimer := some (s.elapsed + Config.startUpWait)
    stations := s.startClocks }

/-! ### Start-up (R154) -/

/-- The value an RF present input has after the start-up wait (R85): active when it has gained none. -/
def Carrier.settleRf (r : Carrier) : Carrier := { r with rfPresent := some (r.rfPresent.getD true) }

/-- Step 1: every input that has gained no value is given one, and every contactor's position follows (R7, R53, R85). -/
def Work.settleInputs (w : Work) : Work :=
  let settle (u : StationUnit) : StationUnit := { u with carrier := u.carrier.settleRf }
  { w with
    aux := Vector.ofFn fun k => w.aux[k].settled
    contactors := Vector.ofFn fun k => w.aux[k].settled.unusedLive
    stations := ⟨settle w.stations.a, settle w.stations.b⟩ }

/-- The image record can be activated (step 2): VALID, and sound under the checks of R149 step 3. -/
def ImageRecord.sound (r : ImageRecord) : Bool := r.condition == .valid && (firstFailure r.bytes).isNone

/-- The patterns the last-state record prefers (step 4). -/
def LastRecord.preferred (r : LastRecord) (x : Station) : List PatternNo :=
  match r with
  | .valid content =>
    match x with
    | .A => content.patternA.toList
    | .B => content.patternB.toList
  | .blank | .torn => []

/-- The INTERRUPTED flag that a last-state record gives (step 7). -/
def LastRecord.interrupted (r : LastRecord) : Bool :=
  match r with
  | .valid content => content.marker
  | .torn => true
  | .blank => false

/-- The STARTED notice as the part now stands (step 8). -/
def Plant.startedNotice (p : Plant) (kind : ResetKind) : Notice :=
  .started kind p.interrupted p.image.isSome (p.active .A) (p.active .B)

/-- Steps 7 and 8: the cause and the flag are recorded, and STARTED goes to both links. -/
def Work.announceStartUp (kind : ResetKind) (interrupted : Bool) (w : Work) : Work :=
  let w := { w with startUpCause := some kind, interrupted := interrupted }
  w.postAll [.A, .B] (w.startedNotice kind)

/-- The patterns resolution gives the two stations at start-up, both against the same positions (R49, R154 step 5). -/
def Plant.startChoices (p : Plant) (record : LastRecord) : Pair (Option PatternNo) :=
  ⟨p.resolved .A (record.preferred .A), p.resolved .B (record.preferred .B)⟩

/-- Both stations take their patterns (step 5). -/
def Work.setBoth (c : Pair (Option PatternNo)) (w : Work) : Work := (w.setPattern .A c.a).setPattern .B c.b

/-- Each station with a pattern is raised to full, and one without stays DARK (step 5). -/
def Work.carryBoth (c : Pair (Option PatternNo)) (w : Work) : Work := (w.carryResolved .A c.a).carryResolved .B c.b

/-- Steps 3 to 8 with a sound image: it becomes active, both stations take the patterns resolution gives them, a last-state
record is handed, the policies take the defaults, and the raises follow STARTED. -/
def Work.startConfigured (kind : ResetKind) (m : Memory) (w : Work) : Work :=
  let record := w.lastRecord
  let w := w.activate m
  let choices := w.startChoices record
  let w := (w.setBoth choices).handLastState false
  ((w.takeDefaults m).clearHolds.announceStartUp kind record.interrupted).carryBoth choices

/-- Steps 2, 7 and 8 without a sound image: the part stays UNCONFIGURED. -/
def Work.startUnconfigured (kind : ResetKind) (w : Work) : Work := w.announceStartUp kind w.lastRecord.interrupted

/-- Steps 1 and 2: the wait is over, the inputs have their values, and the image record is read into the found image. -/
def Work.readRecords (w : Work) : Work :=
  { w.settleInputs with startUpTimer := none, phase := .running, foundImage := some w.imageRecord.bytes }

/-- Start-up (R154): the retained records are read, and the part comes into service. The schedule evaluation of step 9
finds the clock invalid. -/
def Work.startUp (kind : ResetKind) (w : Work) : Work :=
  let w := w.readRecords
  (if w.imageRecord.sound then w.startConfigured kind w.imageRecord.bytes else w.startUnconfigured kind).evaluate false

/-- The frames held through start-up are handed on (R159). When both links hold one, which goes first is a free value (log
entry 5). -/
def State.resumeBoth (s : State) : State :=
  if (s.ports.get .A).heldFrame.isSome && (s.ports.get .B).heldFrame.isSome then
    let t := { s with freeDraws := s.freeDraws + 1 }
    if Config.linkBFirst s.freeDraws then (t.resume .B).resume .A else (t.resume .A).resume .B
  else (s.resume .A).resume .B

end Machine
end Sys2Proof
end

