-- ==== Sys2Proof/Machine/RequestCommands.lean ====
section
/-! DEFINITION. The meanings of the request commands (R163): each is the reception, on its link, of a good frame that holds
the request, and is handed on, held or queued as R159 says. The rules of the requests themselves are carried out by
`act` (Machine/Requests.lean). -/
namespace Sys2Proof
namespace Machine

/-- A request is received on link `x` in a good frame (R159, R163). -/
def State.receiveRequest (x : Station) (r : Request) (s : State) : State := s.receiveFrame x r.body

/-- PATTERN_REQUEST (R22). -/
def execPatternRequest (x : Station) (target : Byte) (s : State) : Host.Outcome State Fault Refusal :=
  .next (s.receiveRequest x (.patternRequest target))

/-- WITHDRAW (R47, R48). -/
def execWithdraw (x : Station) (s : State) : Host.Outcome State Fault Refusal := .next (s.receiveRequest x .withdraw)

/-- GRANT (R31): a CONSENT REPLY with answer 01h. -/
def execGrant (x : Station) (tag : Byte) (s : State) : Host.Outcome State Fault Refusal :=
  .next (s.receiveRequest x (.consentReply tag 1))

/-- DEFER (R32): a CONSENT REPLY with answer 02h. -/
def execDefer (x : Station) (tag : Byte) (s : State) : Host.Outcome State Fault Refusal :=
  .next (s.receiveRequest x (.consentReply tag 2))

/-- CONSENT_POLICY (R164). -/
def execConsentPolicy (x : Station) (policy : Byte) (s : State) : Host.Outcome State Fault Refusal :=
  .next (s.receiveRequest x (.consentPolicy policy))

/-- SCHEDULE_POLICY (R143). -/
def execSchedulePolicy (x : Station) (policy : Byte) (s : State) : Host.Outcome State Fault Refusal :=
  .next (s.receiveRequest x (.schedulePolicy policy))

/-- STATUS_QUERY (R166). -/
def execStatusQuery (x : Station) (s : State) : Host.Outcome State Fault Refusal := .next (s.receiveRequest x .statusQuery)

/-- MONITOR_QUERY (R118). -/
def execMonitorQuery (x : Station) (s : State) : Host.Outcome State Fault Refusal :=
  .next (s.receiveRequest x .monitorQuery)

/-- CONTACTOR_QUERY (R70). -/
def execContactorQuery (x : Station) (s : State) : Host.Outcome State Fault Refusal :=
  .next (s.receiveRequest x .contactorQuery)

/-- CONTACTOR_RELEASE (R66, R67). -/
def execContactorRelease (x : Station) (index : Byte) (s : State) : Host.Outcome State Fault Refusal :=
  .next (s.receiveRequest x (.contactorRelease index))

/-- CLOCK_SET (R134). -/
def execClockSet (x : Station) (year day : Word16) (hour minute second : Byte) (s : State) :
    Host.Outcome State Fault Refusal :=
  .next (s.receiveRequest x (.clockSet year day hour minute second))

/-- CLOCK_QUERY (R135). -/
def execClockQuery (x : Station) (s : State) : Host.Outcome State Fault Refusal := .next (s.receiveRequest x .clockQuery)

/-- LOAD_OPEN (R147). -/
def execLoadOpen (x : Station) (size : Byte) (s : State) : Host.Outcome State Fault Refusal :=
  .next (s.receiveRequest x (.loadOpen size))

/-- LOAD_BLOCK (R148). -/
def execLoadBlock (x : Station) (index : Byte) (data : List Byte) (s : State) : Host.Outcome State Fault Refusal :=
  .next (s.receiveRequest x (.loadBlock index data))

/-- LOAD_COMMIT (R149, R150). -/
def execLoadCommit (x : Station) (s : State) : Host.Outcome State Fault Refusal := .next (s.receiveRequest x .loadCommit)

/-- LOAD_CANCEL (R147). -/
def execLoadCancel (x : Station) (s : State) : Host.Outcome State Fault Refusal := .next (s.receiveRequest x .loadCancel)

/-- READBACK_OPEN (R151). -/
def execReadbackOpen (x : Station) (size : Byte) (s : State) : Host.Outcome State Fault Refusal :=
  .next (s.receiveRequest x (.readbackOpen size))

/-- READBACK_BLOCK (R151). -/
def execReadbackBlock (x : Station) (index : Byte) (s : State) : Host.Outcome State Fault Refusal :=
  .next (s.receiveRequest x (.readbackBlock index))

/-- UNKNOWN_KIND (R163 step 1): a good frame whose first body byte is no request kind. -/
def execUnknownKind (x : Station) (kind : Byte) (rest : List Byte) (s : State) : Host.Outcome State Fault Refusal :=
  .next (s.receiveFrame x (kind :: rest))

end Machine
end Sys2Proof
end

