-- ==== Sys2Proof/Machine/ResetCommands.lean ====
section
/-! DEFINITION. The meanings of the reset commands: POWER_ON, RESET_LINE, RESET_END and START_UP (R153 to R155). -/
namespace Sys2Proof
namespace Machine

/-- POWER_ON (R153). -/
def execPowerOn (s : State) : Host.Outcome State Fault Refusal := .next (s.wholeReset .powerOn)

/-- RESET_LINE (R153). -/
def execResetLine (s : State) : Host.Outcome State Fault Refusal := .next (s.wholeReset .resetLine)

/-- RESET_END (R155): the end of the reset that is held; while none is, the part has no such event (log entry 8). -/
def execResetEnd (strap1 strap0 : Bool) (s : State) : Host.Outcome State Fault Refusal :=
  .next <|
    match s.phase with
    | .held kind => s.endReset kind (strapRate strap1 strap0)
    | .starting _ | .running => s

/-- START_UP (R154): the end of the start-up wait; outside it the part has no such event (log entry 8). -/
def execStartUp (s : State) : Host.Outcome State Fault Refusal :=
  .next <|
    match s.phase with
    | .starting kind => (s.event fun w => w.whenDue w.startUpTimer (Work.startUp kind)).resumeBoth
    | .held _ | .running => s

end Machine
end Sys2Proof
end

