-- ==== Sys2Proof/Machine/SamplingCommands.lean ====
section
/-! DEFINITION. The meanings of the sampling events: MEASUREMENT_COMPLETION (R91 to R101) and STALE_TIMER_EXPIRY (R114). -/
namespace Sys2Proof
namespace Machine

/-- The measurement in progress completes with what the converters and the phase timer hold (R92, R93, R98). -/
def Work.measured (rawReference rawTower : Nat) (reference tower : List Nat) (w : Work) : Work :=
  match w.measurement with
  | none => w
  | some m =>
    (w.reach m.due).completeMeasurement m (converterCode rawReference) (converterCode rawTower) (periodCount reference)
      (delayCount reference tower)

/-- MEASUREMENT_COMPLETION (R98). -/
def execMeasurementCompletion (rawReference rawTower : Nat) (reference tower : List Nat) (s : State) :
    Host.Outcome State Fault Refusal :=
  .next (s.event (Work.measured rawReference rawTower reference tower))

/-- STALE_TIMER_EXPIRY (R114). -/
def execStaleTimerExpiry (x : Station) (tower : Nat) (s : State) : Host.Outcome State Fault Refusal :=
  match channelOfTower? tower with
  | none => .fault .noSuchChannel
  | some i =>
    .next <| s.event fun w =>
      w.whenDue (w.stations.get x).channels[i].staleTimer fun w => w.onStation x (StationWork.staleExpiry i)

end Machine
end Sys2Proof
end

