-- ==== Sys2Proof/Machine/StoreCommands.lean ====
section
/-! DEFINITION. The meanings of the Configuration Store's events: LOAD_IDLE_TIMER_EXPIRY (R148), IMAGE_WRITE_COMPLETION and
LAST_STATE_WRITE_COMPLETION (R152). -/
namespace Sys2Proof
namespace Machine

/-- LOAD_IDLE_TIMER_EXPIRY (R148). -/
def execLoadIdleTimerExpiry (s : State) : Host.Outcome State Fault Refusal :=
  .next (s.event fun w => w.whenDue w.loadIdleTimer Work.loadExpired)

/-- The write in progress is of a given kind (R152). -/
def Plant.writes (p : Plant) (image : Bool) : Bool := (p.writing.map fun g => g.job.isImage) == some image

/-- IMAGE_WRITE_COMPLETION (R152): the pending list is examined at it (R25). -/
def execImageWriteCompletion (s : State) : Host.Outcome State Fault Refusal :=
  .next (s.event fun w => if w.writes true then w.completeWrite.examinePending else w)

/-- LAST_STATE_WRITE_COMPLETION (R152). -/
def execLastStateWriteCompletion (s : State) : Host.Outcome State Fault Refusal :=
  .next (s.event fun w => if w.writes false then w.completeWrite else w)

end Machine
end Sys2Proof
end

