-- ==== Sys2Proof/Machine/TransitionCommands.lean ====
section
/-! DEFINITION. The meanings of the Transition Engine's own timers: CONSENT_WAIT_TIMER_EXPIRY and DEFER_TIMER_EXPIRY
(R33). A timer that does not run has no expiry (log entry 8). -/
namespace Sys2Proof
namespace Machine

/-- The active transition waits for consent in a given consent state (R30, R32). -/
def Plant.awaitsConsent (p : Plant) (c : ConsentState) : Bool :=
  match p.transition with
  | some t => t.phase == .consentWait && t.consent == c
  | none => false

/-- The wait for an answer has run out (R33): the transition ends NO_CONSENT, and the pending list is examined. -/
def Work.noConsent (w : Work) : Work := (w.endTransition .noConsent).examinePending

/-- CONSENT_WAIT_TIMER_EXPIRY (R33), in ASKED. -/
def execConsentWaitTimerExpiry (s : State) : Host.Outcome State Fault Refusal :=
  .next (s.event fun w => if w.awaitsConsent .asked then w.whenDue w.consentTimer Work.noConsent else w)

/-- DEFER_TIMER_EXPIRY (R33), in DEFERRED. -/
def execDeferTimerExpiry (s : State) : Host.Outcome State Fault Refusal :=
  .next (s.event fun w => if w.awaitsConsent .deferred then w.whenDue w.deferTimer Work.noConsent else w)

end Machine
end Sys2Proof
end

