-- ==== Sys2Proof/Machine/Dispatch.lean ====
section
/-! DEFINITION. The command table: one arm for each row of spec/opcode_table.json. -/
namespace Sys2Proof
namespace Machine

def exec (i : Instr) (s : State) : Host.Outcome State Fault Refusal :=
  match i with
  | .powerOn => Sys2Proof.Machine.execPowerOn s
  | .resetLine => Sys2Proof.Machine.execResetLine s
  | .resetEnd strap1 strap0 => Sys2Proof.Machine.execResetEnd strap1 strap0 s
  | .startUp => Sys2Proof.Machine.execStartUp s
  | .patternRequest link target => Sys2Proof.Machine.execPatternRequest link target s
  | .withdraw link => Sys2Proof.Machine.execWithdraw link s
  | .grant link tag => Sys2Proof.Machine.execGrant link tag s
  | .defer link tag => Sys2Proof.Machine.execDefer link tag s
  | .consentPolicy link policy => Sys2Proof.Machine.execConsentPolicy link policy s
  | .schedulePolicy link policy => Sys2Proof.Machine.execSchedulePolicy link policy s
  | .statusQuery link => Sys2Proof.Machine.execStatusQuery link s
  | .monitorQuery link => Sys2Proof.Machine.execMonitorQuery link s
  | .contactorQuery link => Sys2Proof.Machine.execContactorQuery link s
  | .contactorRelease link index => Sys2Proof.Machine.execContactorRelease link index s
  | .clockSet link year day hour minute second => Sys2Proof.Machine.execClockSet link year day hour minute second s
  | .clockQuery link => Sys2Proof.Machine.execClockQuery link s
  | .loadOpen link size => Sys2Proof.Machine.execLoadOpen link size s
  | .loadBlock link index data => Sys2Proof.Machine.execLoadBlock link index data s
  | .loadCommit link => Sys2Proof.Machine.execLoadCommit link s
  | .loadCancel link => Sys2Proof.Machine.execLoadCancel link s
  | .readbackOpen link size => Sys2Proof.Machine.execReadbackOpen link size s
  | .readbackBlock link index => Sys2Proof.Machine.execReadbackBlock link index s
  | .unknownKind link kind rest => Sys2Proof.Machine.execUnknownKind link kind rest s
  | .consentWaitTimerExpiry => Sys2Proof.Machine.execConsentWaitTimerExpiry s
  | .deferTimerExpiry => Sys2Proof.Machine.execDeferTimerExpiry s
  | .muteTimerExpiry station => Sys2Proof.Machine.execMuteTimerExpiry station s
  | .rampTick station => Sys2Proof.Machine.execRampTick station s
  | .pulseTimeEnd => Sys2Proof.Machine.execPulseTimeEnd s
  | .settleTimeEnd => Sys2Proof.Machine.execSettleTimeEnd s
  | .debounceEvent contactor made0 made1 => Sys2Proof.Machine.execDebounceEvent contactor made0 made1 s
  | .rfPresentEvent station active => Sys2Proof.Machine.execRfPresentEvent station active s
  | .measurementCompletion rawReference rawTower reference tower => Sys2Proof.Machine.execMeasurementCompletion rawReference rawTower reference tower s
  | .verifyTimerExpiry station => Sys2Proof.Machine.execVerifyTimerExpiry station s
  | .outOfToleranceHoldExpiry station => Sys2Proof.Machine.execOutOfToleranceHoldExpiry station s
  | .staleTimerExpiry station tower => Sys2Proof.Machine.execStaleTimerExpiry station tower s
  | .siteClockTick => Sys2Proof.Machine.execSiteClockTick s
  | .minuteTick => Sys2Proof.Machine.execMinuteTick s
  | .loadIdleTimerExpiry => Sys2Proof.Machine.execLoadIdleTimerExpiry s
  | .imageWriteCompletion => Sys2Proof.Machine.execImageWriteCompletion s
  | .lastStateWriteCompletion => Sys2Proof.Machine.execLastStateWriteCompletion s
  | .characterReceived link char stopLow => Sys2Proof.Machine.execCharacterReceived link char stopLow s
  | .gapTimerExpiry link => Sys2Proof.Machine.execGapTimerExpiry link s
  | .breakEvent link => Sys2Proof.Machine.execBreak link s
  | .characterTransmitted link => Sys2Proof.Machine.execCharacterTransmitted link s
  | .frameTransmissionStart link => Sys2Proof.Machine.execFrameTransmissionStart link s
  | .powerReferencePeriodStart station => Sys2Proof.Machine.execPowerReferencePeriodStart station s
  | .lineReturnHigh link => Sys2Proof.Machine.execLineReturnHigh link s

end Machine
end Sys2Proof
end

