-- ==== Sys2Proof/Machine/Step.lean ====
section
/-! DEFINITION. One step of the part: the command at the front of the queue is taken. -/
namespace Sys2Proof
namespace Machine

/-- On an empty queue nothing is commanded and no event of the part is brought: elapsed time goes on by one unit
(DESIGN CHOICE, log entry 2). -/
def idle (s : State) : State := { s with elapsed := s.elapsed + 1 }

/-- One step: the command at the front of the queue acts on the state with the queue's rest; with an empty queue the part
idles. -/
def step (s : State) : Host.Outcome State Fault Refusal :=
  match s.pending with
  | [] => .next (idle s)
  | c :: rest => exec c { s with pending := rest }

/-- The state with the command that a table word spells put at the front of its queue; no row of the table gives bits, so
no word spells one (Decode.lean). -/
def State.withFetchWord (s : State) (nbits w : Nat) : State :=
  match decodeTableWord nbits w with
  | some c => { s with pending := c :: s.pending }
  | none => s

end Machine
end Sys2Proof
end

