-- ==== Sys2Proof/WellFormed.lean ====
section
/-! DEFINITION. Which commands the part can be given: operands inside the ranges that the part's own structure
has. A request's bytes are not restricted here, for the part itself checks and answers them. -/
namespace Sys2Proof

/-- A request kind of the table of R163: 01h to 11h. -/
def isRequestKind (kind : Byte) : Bool := decide (1 ≤ kind.toNat ∧ kind.toNat ≤ 17)

/-- A contactor index (section 0.5.4). -/
def isContactorIndex (k : Nat) : Bool := decide (1 ≤ k ∧ k ≤ 16)

/-- A monitored tower number, one with a channel record (R103). -/
def isMonitoredTower (k : Nat) : Bool := decide (2 ≤ k ∧ k ≤ 6)

/-- Crossings a measurement can have: in rising order, and within its 20 ms (R91, R93). -/
def areCrossings (crossings : List Nat) : Bool :=
  decide (crossings.Pairwise (· < ·)) && crossings.all fun c => decide (c ≤ Config.measurementCounts)

/-- What a measurement can meet: codes of 12 bits (R92) and crossings on its two channels (R93). -/
def isMeasurement (rawReference rawTower : Nat) (referenceCrossings towerCrossings : List Nat) : Bool :=
  decide (rawReference ≤ 4095 ∧ rawTower ≤ 4095) && areCrossings referenceCrossings && areCrossings towerCrossings

/-- A command with operands the part can be given. A LOAD BLOCK's data fit a body of 160 bytes behind the kind and
the index, an UNKNOWN_KIND frame is a body of at most 160 bytes whose first byte is no request kind, a debounce
event names a contactor and at least one input of it, a measurement's codes and crossings are in range, and a stale
expiry names a channel. -/
def Instr.wellFormed : Instr → Bool
  | .loadBlock _ _ data => decide (data.length ≤ 158)
  | .unknownKind _ kind rest => !isRequestKind kind && decide (rest.length ≤ 159)
  | .debounceEvent k made0 made1 => isContactorIndex k && (made0.isSome || made1.isSome)
  | .measurementCompletion r t p d => isMeasurement r t p d
  | .staleTimerExpiry _ k => isMonitoredTower k
  | _ => true

end Sys2Proof
end

