-- ==== Sys2Proof/Safety.lean ====
section
/-! DEFINITION. What a safe run keeps: the laws the manual states of every state of the part, in the terms the claims use.
Each is a property of one state that every step keeps. -/
namespace Sys2Proof
namespace Machine

/-- A station's carrier record agrees with its state: RF inhibit goes with level 0 (R83), a ramp is there exactly in
LOWERING and RAISING and its target lies on the side the state names (R72, R73, R76), a HOLD ramp goes to 0 (R73), the
mute fields belong to HELD (R86, R87), the verification fields to VERIFYING and the hold timer to NORMAL (R120, R127). -/
structure Carrier.Sound (r : Carrier) : Prop where
  inhibited_level : r.state.inhibited = true → r.level = 0
  ramp_lowering : r.state = .lowering → ∃ ramp, r.ramp = some ramp ∧ ramp.target < r.level
  ramp_raising : r.state = .raising → ∃ ramp, r.ramp = some ramp ∧ r.level < ramp.target
  ramp_absent : r.state ≠ .lowering → r.state ≠ .raising → r.ramp = none
  hold_target : ∀ ramp, r.ramp = some ramp → ramp.purpose = .hold → ramp.target = 0
  mute_held : r.muteConfirmed = true → r.state = .held ∧ r.rfPresent = some false
  muteTimer_held : r.muteTimer ≠ none → r.state = .held
  verifyTimer_verifying : r.verifyTimer ≠ none → r.state = .verifying
  passCount_verifying : r.passCount ≠ 0 → r.state = .verifying
  holdTimer_normal : r.holdTimer ≠ none → r.state = .normal

/-- Both stations' carrier records are sound. -/
def Plant.CarriersSound (p : Plant) : Prop := ∀ x, (p.carrier x).Sound

/-- Until start-up has ended the part is held (R153): no image is active, both stations are DARK, no coil is on, and no
transition, pending entry, measurement, clock or write of the retained store is there. -/
structure Plant.OutOfService (p : Plant) : Prop where
  image : p.image = none
  dark : ∀ x, (p.carrier x).state = .dark
  driver : p.driver = none
  transition : p.transition = none
  pendingList : p.pendingList = []
  measurement : p.measurement = none
  clock : p.clock = none
  writing : p.writing = none
  writeQueue : p.writeQueue = []

/-- The part is out of service while a reset is held and through the start-up wait (R153, R154). -/
def Plant.HeldUntilStarted (p : Plant) : Prop := p.phase ≠ .running → p.OutOfService

/-- The memories a store write holds. -/
def WriteJob.Canonical : WriteJob → Prop
  | .image bytes => Memory.wf bytes = true
  | .lastState _ => True

/-- Every memory of the part is in its one canonical form. -/
structure Plant.Canonical (p : Plant) : Prop where
  image : ∀ m, p.image = some m → Memory.wf m = true
  foundImage : ∀ m, p.foundImage = some m → Memory.wf m = true
  loadBuffer : Memory.wf p.loadBuffer = true
  imageRecord : Memory.wf p.imageRecord.bytes = true
  writing : ∀ g, p.writing = some g → g.job.Canonical
  writeQueue : ∀ j ∈ p.writeQueue, j.Canonical

/-- A port keeps within the sizes the manual gives it: the FIFO (R156), the frame in assembly (R157), the notice queue and
the two counts (R157, R161). -/
structure Port.Bounded (p : Port) : Prop where
  fifo : p.fifo.length ≤ Config.fifoSize
  content : p.content.length ≤ Config.contentMax
  notices : p.notices.length ≤ Config.noticeQueueSize
  lost : p.lost ≤ 255
  dropped : p.dropped ≤ 65535

/-- Both ports keep within their sizes. -/
def State.PortsBounded (s : State) : Prop := ∀ x, (s.ports.get x).Bounded

/-- Cold switching (R57, R60): a move is held only in SWITCH or REVERSE, and while it is, every station that its
contactor carries has RF inhibit asserted. -/
structure Plant.Cold (p : Plant) : Prop where
  switching : p.driver ≠ none → ∃ t, p.transition = some t ∧ (t.phase = .switch ∨ t.phase = .reverse)
  inhibited : ∀ m, p.driver = some m → ∀ x, carries p.activeImage m.contactor x = true → (p.carrier x).rfInhibit = true

/-- No startable head is left waiting (R25): an entry is pending only while a transition is active or an image write is
pending. -/
def Plant.Waiting (p : Plant) : Prop := p.pendingList = [] ∨ p.canStart = false

/-- A station has no active pattern exactly when it is DARK (R19). -/
def Plant.PatternUnlessDark (p : Plant) : Prop := ∀ x, p.active x = none ↔ (p.carrier x).state = .dark

/-- Between events nothing is left undone in the active transition: its requester is of the restore set (R29), QUIESCE goes on
only while some affected station is not quiet (R36), RESTORE only while the requester has not reached VERIFYING, REDUCED or
NORMAL, and CONFIRM only while it has not reached NORMAL (R45, R46). -/
def Plant.Settled (p : Plant) : Prop :=
  ∀ t, p.transition = some t →
    t.restores t.station = true ∧
    (t.phase = .quiesce → p.quiesced t = false) ∧
    (t.phase = .restore → (p.carrier t.station).state.measured = false) ∧
    (t.phase = .confirm → (p.carrier t.station).state ≠ .normal)

/-! ### Words the claims use -/

/-- Link `x` is ready for a request: start-up has ended, the line has not stayed low after a break, no frame is held and
the reply slot is empty (R154, R159, R162). What stands in its assembler, a damaged flag included, does not matter to a
request command, which is the reception of a good frame by the model's choice (log entry 10). -/
abbrev State.Ready (x : Station) (s : State) : Prop :=
  s.phase = .running ∧ (s.ports.get x).lineLow = false ∧ (s.ports.get x).heldFrame = none ∧ (s.ports.get x).reply = none

/-- The state once a request has been received and answered on link `x`, with no change but to that port: the closing
delimiter has been taken (R157, R158), and the slot holds the reply's body: the request's kind plus 80h, the code and
the data (R159, R168). -/
def State.answered (x : Station) (kind : Byte) (code : ReplyCode) (data : List Byte) (s : State) : State :=
  s.onPort x fun p =>
    { p with
      assembler := .opened, content := [], damaged := false, line := .delimiter, gapTimer := none
      reply := some ((kind + 0x80) :: replyCodeByte code :: data) }

/-- The state with station `x`'s carrier record changed. -/
def State.onCarrier (x : Station) (f : Carrier → Carrier) (s : State) : State :=
  let u := s.stations.get x
  { s with stations := s.stations.set x { u with carrier := f u.carrier } }

/-- Station `y`'s return level as its station entry records it (R35). -/
def Transition.returnLevel (t : Transition) (y : Station) : Option ReturnLevel := (t.entries.get y).bind fun e => e.returnLevel

/-- Between `s` and `u` station `y`, which has an active pattern and is not DARK, is raised back by its return level (R35, R75, R77,
R79): from the level it stands at to its power level for FULL and to its fault power for FAULT, by RAISING below it and LOWERING
above it; at that level the ramp is complete at once. -/
def State.RaisedBack (t : Transition) (y : Station) (s u : State) : Prop :=
  ∀ q, s.active y = some q → (s.carrier y).state ≠ .dark →
    let record := pattern s.activeImage y q
    let r := s.carrier y
    u.active y = some q ∧ (u.carrier y).level = r.level ∧
    (t.returnLevel y = some .full →
      (u.carrier y).state = (if r.level < record.power then .raising else if record.power < r.level then .lowering
        else if r.verifyRequired then .verifying else .normal) ∧
      (u.carrier y).ramp = if r.level = record.power then none else some ⟨record.power, .full, q⟩) ∧
    (t.returnLevel y = some .fault →
      (u.carrier y).state =
        (if r.level < record.fault then .raising else if record.fault < r.level then .lowering else .reduced) ∧
      (u.carrier y).ramp = if r.level = record.fault then none else some ⟨record.fault, .fault, q⟩)

/-- Between `s` and `u` station `y`'s active pattern is set or taken, with no entry to VERIFYING at the same event (R116): every
channel loses its figures and its tower status is UNKNOWN, the window, stale timer and stale flag staying as they are. The array
status, decided afresh (R112), is UNKNOWN without a pattern and under one of two towers or more, and the last array status follows
a change. -/
def State.Unjudged (y : Station) (s u : State) : Prop :=
  (∀ i : TowerNo, (u.stations.get y).channels[i] =
    { (s.stations.get y).channels[i] with figures := none, towerStatus := .unknown }) ∧
  ((∀ q, u.active y = some q → 2 ≤ (pattern s.activeImage y q).towers) →
    (u.stations.get y).arrayStatus = .unknown ∧
    (u.carrier y).lastStatus =
      if (s.stations.get y).arrayStatus = .unknown then (s.carrier y).lastStatus else .unknown)

/-- At the event that leaves `u` the scan list has been recomputed and the next measurement begun, the last entry before being `last`.
The list holds towers 2 to n of the active pattern of each station in NORMAL, VERIFYING or REDUCED, in the order of the scan cycle
A2 … A6, B2 … B6 (R95). The entry measured is the first of the list behind the last entry, going round the cycle, and the last entry
itself comes last (R97). The measurement has its station's scan stay (R98), trims and floor as they stand (R91), and lasts 20 ms. -/
def State.ScanRestarts (last : Option ScanEntry) (u : State) : Prop :=
  let place (e : ScanEntry) : Nat := (match e.station with | .A => 0 | .B => 5) + e.tower.val
  let behind (e d : ScanEntry) : Nat := (place d + 9 - place e) % 10
  (∀ e, e ∈ u.scanList ↔
    ((u.carrier e.station).state = .normal ∨ (u.carrier e.station).state = .verifying ∨
      (u.carrier e.station).state = .reduced) ∧
    ∃ q, u.active e.station = some q ∧ e.tower.val + 2 ≤ (pattern u.activeImage e.station q).towers) ∧
  (u.scanList.Pairwise fun d e => place d < place e) ∧
  (u.scanList = [] → u.measurement = none ∧ u.lastEntry = last) ∧
  (u.scanList ≠ [] → ∃ n, u.measurement = some n ∧ n.entry ∈ u.scanList ∧ u.lastEntry = some n.entry ∧
    (∀ d ∈ u.scanList, match last with
      | none => place n.entry ≤ place d
      | some e => behind e n.entry ≤ behind e d) ∧
    n.stay = (u.stations.get n.entry.station).scanStay ∧ n.due = u.elapsed + Config.ms 20 ∧
    n.floor = (settings u.activeImage n.entry.station).referenceFloor ∧
    n.referenceTrim = channelTrim u.activeImage n.entry.station 1 ∧
    n.towerTrim = channelTrim u.activeImage n.entry.station (n.entry.tower.val + 2))

/-- Between `s` and `u` station `x`'s scan stay begins or ends, of which its counter tells (R98, log entry 25). An idle acquisition
unit recomputes the scan list at the event and begins the next measurement, and one with a measurement in progress goes on with
it (R96). -/
def State.StayTurns (x : Station) (s u : State) : Prop :=
  (u.stations.get x).scanStay ≠ (s.stations.get x).scanStay ∧
  (s.measurement = none → u.ScanRestarts s.lastEntry) ∧
  (s.measurement ≠ none → u.measurement = s.measurement ∧ u.scanList = s.scanList ∧ u.lastEntry = s.lastEntry)

/-- Between `s` and `u` station `y` is resolved against the positions as `u` has them (R49): its candidates are its in-use patterns
whose maps the positions satisfy; the requester's target comes first, then the station's pattern at PLAN, then the lowest number.
The pattern chosen is raised to full, a station without a candidate is DARK, and its tower figures go with the change (R116). -/
def State.ResolvedBy (t : Transition) (y : Station) (s u : State) : Prop :=
  let candidate (q : PatternNo) : Prop :=
    (pattern s.activeImage y q).inUse = true ∧ satisfied s.activeImage u.contactors y q = true
  let atPlan := (t.entries.get y).bind fun e => e.patternAtPlan
  (u.active y = none ↔ ∀ q, ¬candidate q) ∧
  (u.active y = none →
    (u.carrier y).state = .dark ∧ ((s.carrier y).state ≠ .dark → (u.carrier y).level = 0 ∧ s.Unjudged y u)) ∧
  ∀ q, u.active y = some q → candidate q ∧
    (y = t.station → candidate t.target → q = t.target) ∧
    (¬(y = t.station ∧ candidate t.target) → ∀ p, atPlan = some p → candidate p → q = p) ∧
    (¬(y = t.station ∧ candidate t.target) → (∀ p, atPlan = some p → ¬candidate p) → ∀ p, candidate p → q ≤ p) ∧
    ((s.carrier y).level < (pattern s.activeImage y q).power →
      (u.carrier y).state = .raising ∧ (u.carrier y).level = (s.carrier y).level ∧
      (u.carrier y).ramp = some ⟨(pattern s.activeImage y q).power, .full, q⟩ ∧ s.Unjudged y u)

end Machine

open Machine in
/-- The frame a request command stands for: the link on which it is received, and its body (R163, R168). -/
def Instr.frame? : Instr → Option (Station × List Byte)
  | .patternRequest x target => some (x, (Request.patternRequest target).body)
  | .withdraw x => some (x, Request.withdraw.body)
  | .grant x tag => some (x, (Request.consentReply tag 1).body)
  | .defer x tag => some (x, (Request.consentReply tag 2).body)
  | .consentPolicy x policy => some (x, (Request.consentPolicy policy).body)
  | .schedulePolicy x policy => some (x, (Request.schedulePolicy policy).body)
  | .statusQuery x => some (x, Request.statusQuery.body)
  | .monitorQuery x => some (x, Request.monitorQuery.body)
  | .contactorQuery x => some (x, Request.contactorQuery.body)
  | .contactorRelease x index => some (x, (Request.contactorRelease index).body)
  | .clockSet x year day hour minute second => some (x, (Request.clockSet year day hour minute second).body)
  | .clockQuery x => some (x, Request.clockQuery.body)
  | .loadOpen x size => some (x, (Request.loadOpen size).body)
  | .loadBlock x index data => some (x, (Request.loadBlock index data).body)
  | .loadCommit x => some (x, Request.loadCommit.body)
  | .loadCancel x => some (x, Request.loadCancel.body)
  | .readbackOpen x size => some (x, (Request.readbackOpen size).body)
  | .readbackBlock x index => some (x, (Request.readbackBlock index).body)
  | .unknownKind x kind rest => some (x, kind :: rest)
  | .powerOn | .resetLine | .resetEnd _ _ | .startUp | .consentWaitTimerExpiry | .deferTimerExpiry
  | .muteTimerExpiry _ | .rampTick _ | .pulseTimeEnd | .settleTimeEnd | .debounceEvent _ _ _ | .rfPresentEvent _ _
  | .measurementCompletion _ _ _ _ | .verifyTimerExpiry _ | .outOfToleranceHoldExpiry _ | .staleTimerExpiry _ _
  | .siteClockTick | .minuteTick | .loadIdleTimerExpiry | .imageWriteCompletion | .lastStateWriteCompletion
  | .characterReceived _ _ _ | .gapTimerExpiry _ | .breakEvent _ | .characterTransmitted _
  | .frameTransmissionStart _ | .powerReferencePeriodStart _ | .lineReturnHigh _ => none

namespace Machine

/-- Between `s` and `u` the frame held on link `x`, which is the request command `c`'s, is handed on and the FIFO drained behind it
(R156, R158, R159, R160). The request has the effect it has on a port with no frame held, but that the assembler and the line
stand as they stood. Then the assembler takes the bytes of the FIFO, each with its marks, up to a completed frame, which it holds,
or to the end. An XON is queued when the FIFO comes down through 16 bytes in state XOFF_SENT, and begins at once with no character
in transmission (log entry 19). -/
def State.HandsOn (x : Station) (c : Instr) (s u : State) : Prop :=
  let p := s.ports.get x
  ∃ t, exec c (s.onPort x fun p => { p with heldFrame := none }) = .next t ∧
    let q : Port := { t.ports.get x with
      assembler := p.assembler, content := p.content, damaged := p.damaged, line := p.line, gapTimer := p.gapTimer }
    let run (fs : List FifoByte) : Port × Option (List Byte) := fs.foldl (fun r f => r.1.takeMarked f) (q, none)
    ∀ taken rest, p.fifo = taken ++ rest → (∀ n < taken.length, (run (taken.take n)).2 = none) →
      (rest = [] ∨ (run taken).2 ≠ none) →
      let xon : Prop := rest.length ≤ 16 ∧ 16 < p.fifo.length ∧ p.flowState = .xoffSent
      u = t.onPort x fun _ =>
        { (run taken).1 with
          fifo := rest
          heldFrame := (run taken).2
          flowState := if rest.length ≤ 16 ∧ 16 < p.fifo.length then .xon else p.flowState
          flowQueued := if xon ∧ p.char ≠ none then some .xon else p.flowQueued
          char := if xon ∧ p.char = none then some ⟨0x11, false, s.elapsed + s.rate.charTime⟩ else p.char }

end Machine
end Sys2Proof
end

