-- ==== Sys2Proof/Certificates/Slice0/Obligations.lean ====
section
/-! DEFINITION. The statements about the part, for the provers. Each says in its docstring which rules it formalises and what
in it is the model's own choice. `State.Ready`, `State.answered`, `Instr.frame?` and the invariants are in Safety.lean. -/

open Sys2Proof Sys2Proof.Machine

/-! ### The queue of commands -/

/-- A step gives the command at the front of the queue to `exec`, with the queue's rest; on an empty queue the part idles for
one unit of elapsed time, which is the model's choice (log entry 2). -/
def Obligations.StepTakesTheFront : Prop :=
  ∀ s : State,
    (∀ c rest, s.pending = c :: rest → step s = exec c { s with pending := rest }) ∧
    (s.pending = [] → step s = .next { s with elapsed := s.elapsed + 1 })

/-! ### Requests on a ready link -/

/-- The four queries are answered from the state as it stands and change nothing but the port: STATUS with the record of R166,
MONITOR with that of R118, CONTACTOR with the sixteen entries of R70 and CLOCK with the reading (R135), each laid out byte by
byte and coded as R168, R163, R164 and R143 say. The start-up cause 00h of a state that has recorded none is the model's choice
(log entry 26), and no run sends it. -/
def Obligations.QueriesChangeNothing : Prop :=
  ∀ (x : Station) (s : State), s.Ready x →
    let two (n : Nat) : List Byte := [byteOf (n / 256), byteOf n]
    let signed (n : Int) : List Byte := two (n % 65536).toNat
    let yes (b : Bool) : Byte := if b then 1 else 0
    let number (q : Option PatternNo) : Byte := match q with
      | some p => byteOf (p.val + 1)
      | none => 0
    let tag (t : Option Nat) : Byte := byteOf (t.getD 0)
    let state : Byte := match (s.carrier x).state with
      | .dark => 0 | .normal => 1 | .lowering => 2 | .held => 3 | .raising => 4 | .verifying => 5 | .reduced => 6
    let status (v : Status) : Byte := match v with
      | .unknown => 0 | .inTolerance => 1 | .advisory => 2 | .out => 3
    let consent : Byte := match s.consentPolicy.get x with
      | some .auto => 0 | some .ask => 1 | some .refuse => 2 | none => 0xFF
    let schedule : Byte := match s.schedulePolicy.get x with
      | some .auto => 0 | some .manual => 1 | none => 0xFF
    let phase : Byte := match s.transition with
      | none => 0
      | some t => match t.phase with
        | .plan => 1 | .consentWait => 2 | .quiesce => 3 | .switch => 4 | .reverse => 5 | .restore => 6 | .confirm => 7
    let owner : Byte := match s.transition with
      | none => 0
      | some t => match t.station with
        | .A => 1 | .B => 2
    let query : Option Nat := match s.transition with
      | some t => if t.phase = .consentWait ∧ t.station.peer = x then some t.tag else none
      | none => none
    let cause : Byte := match s.startUpCause with
      | none => 0 | some .powerOn => 1 | some .resetLine => 2
    let label : List Byte := match s.active x with
      | some q => (pattern s.activeImage x q).label
      | none => [0x20, 0x20, 0x20, 0x20]
    let statusRecord : List Byte :=
      [number (s.active x)] ++ label ++ [state] ++ two (s.carrier x).level ++
      [status (s.stations.get x).arrayStatus,
        yes (s.carrier x).muteConfirmed + 2 * yes (decide ((s.carrier x).rfPresent = some true)), consent, schedule,
        yes (decide (s.override.get x ≠ .clear)), tag ((s.pendingList.find? fun e => e.station == x).map fun e => e.tag),
        tag (s.transition.map fun t => t.tag), phase, owner, tag query, yes s.clock.isSome, cause, yes s.interrupted,
        yes s.image.isSome] ++ two (s.ports.get x).dropped
    let towers : Nat := match s.active x with
      | some q => (pattern s.activeImage x q).towers
      | none => 0
    let tower (i : TowerNo) : List Byte :=
      let ch := (s.stations.get x).channels[i]
      let within := decide (i.val + 2 ≤ towers)
      let figures := if within then ch.figures else none
      [yes within + 2 * yes ch.stale + 4 * yes figures.isSome, byteOf ch.window.length,
        if within then status ch.towerStatus else 0] ++
      match figures with
        | some f => two f.ratioAverage ++ signed f.ratioDeviation ++ signed f.phaseDeviation ++
            [byteOf f.ratioMargin, byteOf f.phaseMargin, status f.ratioStatus, status f.phaseStatus]
        | none => [0, 0, 0, 0, 0, 0, 0, 0, 0, 0]
    let monitorRecord : List Byte :=
      [status (s.stations.get x).arrayStatus] ++ two (s.stations.get x).reference.amplitude ++
      [yes (s.stations.get x).reference.present, byteOf towers] ++ tower 0 ++ tower 1 ++ tower 2 ++ tower 3 ++ tower 4
    let contactor (k : ContactorNo) : List Byte :=
      let live := s.contactors[k]
      let record := contactorRecord s.activeImage k
      [match live.position with | some .zero => 0 | some .one => 1 | none => 0xFF,
        match live.state with | .idle => 0 | .pulsing => 1 | .settling => 2 | .failed => 3,
        match live.failure with | .noFailure => 0 | .stuck => 1 | .disagree => 2,
        yes (record.inUse && record.carriesA) + 2 * yes (record.inUse && record.carriesB)]
    exec (.statusQuery x) s = .next (s.answered x 0x06 .accepted statusRecord) ∧
    exec (.monitorQuery x) s = .next (s.answered x 0x07 .accepted monitorRecord) ∧
    exec (.contactorQuery x) s = .next (s.answered x 0x08 .accepted ((List.finRange 16).flatMap contactor)) ∧
    exec (.clockQuery x) s = .next
      (match s.clock with
        | some r => s.answered x 0x0B .accepted (two r.year ++ two r.day ++ [byteOf r.hour, byteOf r.minute, byteOf r.second])
        | none => s.answered x 0x0B .clockInvalid [])

/-- CONSENT POLICY (R164) and SCHEDULE POLICY (R143): refused with no active image or for a value that is no code, else the
station's live policy takes the value given; AUTO as schedule policy also clears the override, MANUAL leaves it as it is, and
no evaluation is made. -/
def Obligations.PoliciesSet : Prop :=
  ∀ (x : Station) (v : Byte) (s : State), s.Ready x →
    exec (.consentPolicy x v) s = .next
      (if s.image = none then s.answered x 0x04 .notConfigured []
      else if v = 0 then
        ({ s with consentPolicy := s.consentPolicy.set x (some .auto) } : State).answered x 0x04 .accepted []
      else if v = 1 then
        ({ s with consentPolicy := s.consentPolicy.set x (some .ask) } : State).answered x 0x04 .accepted []
      else if v = 2 then
        ({ s with consentPolicy := s.consentPolicy.set x (some .refuse) } : State).answered x 0x04 .accepted []
      else s.answered x 0x04 .badArg []) ∧
    exec (.schedulePolicy x v) s = .next
      (if s.image = none then s.answered x 0x05 .notConfigured []
      else if v = 0 then
        ({ s with
            schedulePolicy := s.schedulePolicy.set x (some .auto)
            override := s.override.set x .clear } : State).answered x 0x05 .accepted []
      else if v = 1 then
        ({ s with schedulePolicy := s.schedulePolicy.set x (some .manual) } : State).answered x 0x05 .accepted []
      else s.answered x 0x05 .badArg [])

/-- CONTACTOR RELEASE (R66, R67): the checks in their order; a release reads the debounced contacts as they stand, and one
that mends a FAILED contactor posts CONTACTOR_FAULT with cause RELEASE to each station the contactor carries. -/
def Obligations.ContactorReleased : Prop :=
  ∀ (x : Station) (index : Byte) (s : State), s.Ready x →
    (index = 0 ∨ 17 ≤ index.toNat →
      exec (.contactorRelease x index) s = .next (s.answered x 0x09 .badArg [])) ∧
    ∀ k : ContactorNo, index.toNat = k.val + 1 →
      exec (.contactorRelease x index) s = .next
        (if s.image = none then s.answered x 0x09 .notConfigured []
        else if (contactorRecord s.activeImage k).inUse = false then s.answered x 0x09 .badArg []
        else if carries s.activeImage k x = false then s.answered x 0x09 .notOwner []
        else if s.transition ≠ none then s.answered x 0x09 .busy []
        else
          match s.aux[k].shows with
          | none => s.answered x 0x09 .stillFailed []
          | some side =>
            if s.contactors[k].state = .failed then
              (State.deliver
                ((carrierSet s.activeImage k).members.map fun y => (y, .contactorFault k ⟨some side, .idle, .noFailure⟩ .release))
                { s with contactors := s.contactors.set k ⟨some side, .idle, .noFailure⟩ }).answered x 0x09 .accepted []
            else s.answered x 0x09 .accepted [])

/-- CLOCK SET (R134). With a field outside its range, or day 366 of a year that is no leap year, it is refused BAD_ARG and the
clock stays. In range it is accepted: the clock takes the five fields, the next tick falls one second later, and both stations
are sent CLOCK_SET with the reading before. With no active image the schedule evaluation does nothing and the state is exactly
that. With one, the evaluation may act on the Transition Engine and the overrides, and the clock, its timer, the reply, the
policies, the load and the images are still as said. -/
def Obligations.ClockIsSet : Prop :=
  ∀ (x : Station) (year day : Word16) (hour minute second : Byte) (s : State), s.Ready x →
    let r : Reading := ⟨year.toNat, day.toNat, hour.toNat, minute.toNat, second.toNat⟩
    let inRange := 2000 ≤ r.year ∧ r.year ≤ 2099 ∧ 1 ≤ r.day ∧ r.day ≤ (if r.year % 4 = 0 then 366 else 365) ∧
      r.hour ≤ 23 ∧ r.minute ≤ 59 ∧ r.second ≤ 59
    (¬inRange → exec (.clockSet x year day hour minute second) s = .next (s.answered x 0x0A .badArg [])) ∧
    (inRange → s.image = none →
      exec (.clockSet x year day hour minute second) s = .next
        ((State.deliver [(.A, .clockSet x s.clock r), (.B, .clockSet x s.clock r)]
          { s with clock := some r, clockTimer := some (s.elapsed + Config.seconds 1) }).answered x 0x0A .accepted [])) ∧
    (inRange → ∃ t, exec (.clockSet x year day hour minute second) s = .next t ∧
      t.clock = some r ∧ t.clockTimer = some (s.elapsed + Config.seconds 1) ∧
      (t.ports.get x).reply = some [0x8A, 0x00] ∧ (t.ports.get x.peer).reply = (s.ports.get x.peer).reply ∧
      t.image = s.image ∧ t.aux = s.aux ∧ t.consentPolicy = s.consentPolicy ∧ t.schedulePolicy = s.schedulePolicy ∧
      t.loadSlot = s.loadSlot ∧ t.loadBuffer = s.loadBuffer ∧ t.readback = s.readback ∧ t.foundImage = s.foundImage ∧
      t.imageRecord.bytes = s.imageRecord.bytes ∧ t.phase = s.phase ∧ t.elapsed = s.elapsed ∧ t.rate = s.rate)

/-- Loading and readback (R147, R148, R151). LOAD OPEN and LOAD CANCEL: a size other than the four is refused BAD_ARG, a slot held
by the other port LOAD_BUSY; an accepted open takes or restarts the load, and a cancel by the holder frees the slot. LOAD BLOCK:
out of sequence, of the wrong length, or placed in the buffer, with the last block making the load COMPLETE; every byte of the
buffer outside the block stays, and the block's bytes stand where the index puts them. READBACK OPEN and READBACK BLOCK: an open
takes one of the four sizes; a block is refused SEQUENCE while closed and BAD_ARG past the last index, and else carries the block
of the active image, or of the found image while UNCONFIGURED. -/
def Obligations.LoadAndReadback : Prop :=
  (∀ (x : Station) (size : Byte) (s : State), s.Ready x →
     exec (.loadOpen x size) s = .next
       (if ¬(size = 16 ∨ size = 32 ∨ size = 64 ∨ size = 128) then s.answered x 0x0C .badArg []
       else if s.loadSlot.heldBy x.peer then s.answered x 0x0C .loadBusy []
       else
         ({ s with
             loadSlot := .held x size.toNat 0 false
             loadBuffer := []
             loadIdleTimer := some (s.elapsed + Config.seconds 60) } : State).answered x 0x0C .accepted []) ∧
     exec (.loadCancel x) s = .next
       (if s.loadSlot.heldBy x then
         ({ s with loadSlot := .free, loadBuffer := [], loadIdleTimer := none } : State).answered x 0x0F .accepted []
       else s.answered x 0x0F .sequence [])) ∧
  (∀ (x : Station) (index : Byte) (data : List Byte) (s : State), s.Ready x →
     ((∀ size expected, s.loadSlot ≠ .held x size expected false) →
       exec (.loadBlock x index data) s = .next (s.answered x 0x0D .sequence [])) ∧
     ∀ size expected, s.loadSlot = .held x size expected false →
       (index.toNat ≠ expected → exec (.loadBlock x index data) s = .next (s.answered x 0x0D .sequence [])) ∧
       (index.toNat = expected → data.length ≠ (if expected < 1097 / size then size else 1097 % size) →
         exec (.loadBlock x index data) s = .next (s.answered x 0x0D .badLength [])) ∧
       (index.toNat = expected → data.length = (if expected < 1097 / size then size else 1097 % size) →
         Memory.wf s.loadBuffer = true →
         ∃ buffer, exec (.loadBlock x index data) s = .next
             (({ s with
                 loadSlot := .held x size (expected + 1) (expected == 1097 / size)
                 loadBuffer := buffer
                 loadIdleTimer := some (s.elapsed + Config.seconds 60) } : State).answered x 0x0D .accepted []) ∧
           Memory.wf buffer = true ∧
           ∀ a, Memory.read buffer a =
             if h : expected * size ≤ a ∧ a < expected * size + data.length then data[a - expected * size]
             else Memory.read s.loadBuffer a)) ∧
  ∀ (x : Station) (b : Byte) (s : State), s.Ready x →
    exec (.readbackOpen x b) s = .next
      (if b = 16 ∨ b = 32 ∨ b = 64 ∨ b = 128 then
        ({ s with readback := s.readback.set x (some b.toNat) } : State).answered x 0x10 .accepted []
      else s.answered x 0x10 .badArg []) ∧
    (s.readback.get x = none → exec (.readbackBlock x b) s = .next (s.answered x 0x11 .sequence [])) ∧
    ∀ size, s.readback.get x = some size →
      exec (.readbackBlock x b) s = .next
        (if 1097 / size < b.toNat then s.answered x 0x11 .badArg []
        else
          s.answered x 0x11 .accepted
            (b :: (List.range (if b.toNat < 1097 / size then size else 1097 % size)).map fun i =>
              Memory.read (s.image.getD (s.foundImage.getD [])) (b.toNat * size + i)))

/-- LOAD COMMIT refused (R149): the checks in their order, each leaving everything but the reply as it was. INVALID carries the
offset of the first failing field in two bytes, which `Obligations.ImageValidated` says. MISMATCH is given when a station not in
DARK has an active pattern that the new image does not have in use, whose map in it the positions do not satisfy, or of which one
of the four fields of R21 differs. -/
def Obligations.LoadCommitRefused : Prop :=
  ∀ (x : Station) (s : State), s.Ready x →
    ((∀ size expected, s.loadSlot ≠ .held x size expected true) →
      exec (.loadCommit x) s = .next (s.answered x 0x0E .sequence [])) ∧
    ∀ size expected, s.loadSlot = .held x size expected true →
      (s.transition ≠ none ∨ s.pendingList ≠ [] ∨ s.imageWritePending = true →
        exec (.loadCommit x) s = .next (s.answered x 0x0E .busy [])) ∧
      (s.transition = none → s.pendingList = [] → s.imageWritePending = false →
        (∀ offset, firstFailure s.loadBuffer = some offset →
          exec (.loadCommit x) s = .next (s.answered x 0x0E .invalid [byteOf (offset / 256), byteOf offset])) ∧
        ∀ y q, firstFailure s.loadBuffer = none → s.active y = some q → (s.carrier y).state ≠ .dark →
          (let old := pattern s.activeImage y q
           let new := pattern s.loadBuffer y q
           new.inUse = false ∨ satisfied s.loadBuffer s.contactors y q = false ∨ new.power ≠ old.power ∨ new.fault ≠ old.fault ∨
             new.towers ≠ old.towers ∨ new.verifyCount ≠ old.verifyCount) →
          exec (.loadCommit x) s = .next (s.answered x 0x0E .mismatch []))

/-- The validation of an image (R169, with the ranges of R1, R8 to R12, R14, R15, R18, R136, R146 and R164). The check byte comes
first: the 1097 bytes sum to 0 modulo 256. Then the fields in ascending order of offset, a field of two bytes at its first: `bad a`
says that the field at offset `a` fails. An image is sound when the check byte holds and no field fails, and else the first failing
offset is reported. That a label fails at its first byte, and a channel trim or a map entry at its own byte, is the model's
choice (log entry 17). -/
def Obligations.ImageValidated : Prop :=
  ∀ m : Memory, Memory.wf m = true →
    let n (a : Nat) : Nat := (Memory.read m a).toNat
    let w (a : Nat) : Nat := 256 * n a + n (a + 1)
    let sb (a : Nat) : Int := if n a < 128 then n a else n a - 256
    let sw (a : Nat) : Int := if w a < 32768 then w a else w a - 65536
    let isCarried (k bit : Nat) : Prop := n (8 + 8 * k) = 1 ∧ n (8 + 8 * k + 1) / bit % 2 = 1
    let badContactor (k a : Nat) : Prop :=
      let b := 8 + 8 * k
      (a = b ∧ 1 < n b) ∨
      (n b = 1 ∧
        ((a = b + 1 ∧ ¬(1 ≤ n a ∧ n a ≤ 3)) ∨ (a = b + 2 ∧ ¬(1 ≤ n a ∧ n a ≤ 16)) ∨ (a = b + 3 ∧ ¬(2 ≤ n a ∧ n a ≤ 50)) ∨
          (a = b + 4 ∧ ¬(2 ≤ n a ∧ n a ≤ 200)) ∨ (a = b + 5 ∧ 2 < n a)))
    let badSettings (b a : Nat) : Prop :=
      (a = b ∧ ¬(16 ≤ w a ∧ w a ≤ 2048)) ∨ (a = b + 2 ∧ ¬(2 ≤ n a ∧ n a ≤ 50)) ∨ (a = b + 3 ∧ ¬(10 ≤ w a ∧ w a ≤ 600)) ∨
      (a = b + 5 ∧ ¬(2 ≤ n a ∧ n a ≤ 60)) ∨ (a = b + 6 ∧ 600 < w a) ∨ (a = b + 8 ∧ ¬(1 ≤ n a ∧ n a ≤ 10)) ∨
      (a = b + 9 ∧ n a % 4 = 3) ∨ (b + 10 ≤ a ∧ a ≤ b + 15 ∧ ¬(-31 ≤ sb a ∧ sb a ≤ 31))
    let badTower (t a : Nat) : Prop :=
      (a = t ∧ 9999 < w a) ∨ (a = t + 2 ∧ ¬(1 ≤ w a ∧ w a ≤ 500)) ∨ (a = t + 4 ∧ ¬(-1799 ≤ sw a ∧ sw a ≤ 1800)) ∨
      (a = t + 6 ∧ ¬(1 ≤ w a ∧ w a ≤ 300))
    let badPattern (bit b a : Nat) : Prop :=
      (a = b ∧ 1 < n b) ∨
      (n b = 1 ∧
        ((a = b + 1 ∧ ∃ i, 1 ≤ i ∧ i ≤ 4 ∧ ¬(0x20 ≤ n (b + i) ∧ n (b + i) ≤ 0x7E)) ∨ (a = b + 5 ∧ ¬(50 ≤ w a ∧ w a ≤ 1000)) ∨
          (a = b + 7 ∧ w (b + 5) < w a) ∨ (a = b + 9 ∧ ¬(2 ≤ n a ∧ n a ≤ 6)) ∨ (a = b + 10 ∧ 99 < n a) ∨
          (a = b + 11 ∧ ¬(1 ≤ n a ∧ n a ≤ 8)) ∨ (a = b + 12 ∧ ¬(2 ≤ n a ∧ n a ≤ 64)) ∨ (a = b + 13 ∧ ¬(5 ≤ n a ∧ n a ≤ 120)) ∨
          (a = b + 14 ∧ ¬(1 ≤ w a ∧ w a ≤ 1000)) ∨ (a = b + 16 ∧ ¬(1 ≤ w a ∧ w a ≤ 1000)) ∨
          (∃ k < 16, a = b + 18 + k ∧ n a ≠ 0 ∧ ¬(n a ≤ 2 ∧ isCarried k bit)) ∨
          ∃ tower, 2 ≤ tower ∧ tower ≤ 6 ∧ tower ≤ n (b + 9) ∧ badTower (b + 34 + 8 * (tower - 2)) a))
    let target (e : Nat) : Nat := w e / 512 % 8
    let holds (e day : Nat) : Prop :=
      if w e % 512 ≤ w (e + 2) % 512 then w e % 512 ≤ day ∧ day ≤ w (e + 2) % 512 else w e % 512 ≤ day ∨ day ≤ w (e + 2) % 512
    let badEntry (base i a : Nat) : Prop :=
      let entry (j : Nat) : Nat := base + 336 + 6 * j
      let e := entry i
      target e ≠ 0 ∧
        ((a = e ∧ ¬(1 ≤ w e % 512 ∧ w e % 512 ≤ 366 ∧ target e ≤ 4 ∧ n (base + 16 + 80 * (target e - 1)) = 1)) ∨
          (a = e + 2 ∧ ¬(1 ≤ w a % 512 ∧ w a % 512 ≤ 366)) ∨
          (a = e + 4 ∧ (1439 < w a ∨ ∃ j < i, target (entry j) ≠ 0 ∧ w (entry j + 4) = w a ∧
            ∃ day, 1 ≤ day ∧ day ≤ 366 ∧ holds (entry j) day ∧ holds e day)))
    let badSection (bit base a : Nat) : Prop :=
      badSettings base a ∨ (∃ p < 4, badPattern bit (base + 16 + 80 * p) a) ∨ ∃ i < 24, badEntry base i a
    let bad (a : Nat) : Prop :=
      (a = 0 ∧ n a ≠ 3) ∨ (∃ k < 16, badContactor k a) ∨ badSection 1 136 a ∨ badSection 2 616 a
    let sum := ((List.range 1097).map n).sum % 256
    (sum ≠ 0 → firstFailure m = some 1096) ∧
    (sum = 0 →
      (firstFailure m = none ↔ ∀ a, ¬bad a) ∧ ∀ a, firstFailure m = some a ↔ bad a ∧ ∀ b < a, ¬bad b)

/-- LOAD COMMIT accepted (R150): the buffer is the active image, the slot is free, every readback is closed, and the reply is
ACCEPTED. While the site clock is invalid, so that the schedule evaluation does nothing, and with no write of the retained
store in progress or waiting, the state is exactly this: contactors enter and leave use, the policies are kept or take the
first defaults, overrides and retry holds are cleared, the image write has begun, and both links are sent TABLE_CHANGED. -/
def Obligations.LoadCommitAccepted : Prop :=
  ∀ (x : Station) (size expected : Nat) (s : State), s.Ready x → s.loadSlot = .held x size expected true →
    s.transition = none → s.pendingList = [] → s.imageWritePending = false →
    firstFailure s.loadBuffer = none → s.mismatch s.loadBuffer .A = false → s.mismatch s.loadBuffer .B = false →
    let m := s.loadBuffer
    (∃ t, exec (.loadCommit x) s = .next t ∧ t.image = some m ∧ t.loadSlot = .free ∧ t.loadBuffer = [] ∧
      t.loadIdleTimer = none ∧ t.readback = ⟨none, none⟩ ∧ t.foundImage = none ∧ t.clock = s.clock ∧ t.aux = s.aux ∧
      (t.ports.get x).reply = some [0x8E, 0x00] ∧ (t.ports.get x.peer).reply = (s.ports.get x.peer).reply) ∧
    (s.clock = none → s.writing = none → s.writeQueue = [] →
    ∃ live consent schedule,
      exec (.loadCommit x) s = .next
        ((State.deliver [(.A, .tableChanged x), (.B, .tableChanged x)]
          { s with
            image := some m
            contactors := live
            consentPolicy := consent
            schedulePolicy := schedule
            override := ⟨.clear, .clear⟩
            retryHold := ⟨0, 0⟩
            readback := ⟨none, none⟩
            foundImage := none
            loadSlot := .free
            loadBuffer := []
            loadIdleTimer := none
            imageRecord := ⟨.torn, s.imageRecord.bytes⟩
            writing := some ⟨.image m, s.elapsed + Config.ms 400⟩ }).answered x 0x0E .accepted []) ∧
      (∀ k : ContactorNo,
        let was := s.image ≠ none ∧ (contactorRecord s.activeImage k).inUse = true
        ((contactorRecord m k).inUse = true → was → live[k] = s.contactors[k]) ∧
        ((contactorRecord m k).inUse = true → ¬was →
          live[k] = if s.contactors[k].position = none then ⟨none, .failed, .disagree⟩
            else ⟨s.contactors[k].position, .idle, .noFailure⟩) ∧
        ((contactorRecord m k).inUse = false → was → live[k] = ⟨s.aux[k].shows, .idle, .noFailure⟩) ∧
        ((contactorRecord m k).inUse = false → ¬was → live[k] = s.contactors[k])) ∧
      (s.image ≠ none → consent = s.consentPolicy ∧ schedule = s.schedulePolicy) ∧
      (s.image = none → ∀ y,
        consent.get y = (settings m y).consentDefault ∧ schedule.get y = (settings m y).scheduleDefault))

/-! ### Pattern requests, withdraws and consent replies -/

/-- PATTERN REQUEST decided by the first four checks (R22): NOT_CONFIGURED, BAD_ARG, IN_PROGRESS, and ALREADY_ACTIVE, whose
pending entry, if there is one, leaves the list with result SUPERSEDED. No tag is given. The station is on its way in NORMAL,
VERIFYING, RAISING and in LOWERING toward fault power, which R73 says is LOWERING on a ramp of purpose REDUCE. The premise
`Waiting` is the invariant of `Obligations.NothingIsLeftUndone`. -/
def Obligations.PatternRequestRefused : Prop :=
  ∀ (x : Station) (target : Byte) (s : State), s.Ready x → s.Waiting →
    (s.image = none → exec (.patternRequest x target) s = .next (s.answered x 0x01 .notConfigured [])) ∧
    (s.image ≠ none →
      (∀ q : PatternNo, target.toNat = q.val + 1 → (pattern s.activeImage x q).inUse = false) →
      exec (.patternRequest x target) s = .next (s.answered x 0x01 .badArg [])) ∧
    ∀ q : PatternNo, s.image ≠ none → target.toNat = q.val + 1 → (pattern s.activeImage x q).inUse = true →
      (s.owns x = true → exec (.patternRequest x target) s = .next (s.answered x 0x01 .inProgress [])) ∧
      (s.owns x = false → s.active x = some q →
        ((s.carrier x).state = .normal ∨ (s.carrier x).state = .verifying ∨ (s.carrier x).state = .raising ∨
          ((s.carrier x).state = .lowering ∧ ∃ ramp, (s.carrier x).ramp = some ramp ∧ ramp.purpose = .reduce)) →
        (s.pendingOf x = none → exec (.patternRequest x target) s = .next (s.answered x 0x01 .alreadyActive [])) ∧
        ∀ e, s.pendingOf x = some e →
          exec (.patternRequest x target) s = .next
            ((State.deliver [(x, .transitionEnded e.tag x e.target e.source .superseded (s.active .A) (s.active .B))]
              { s with pendingList := s.pendingList.filter fun d => d.station != x }).answered x 0x01 .alreadyActive []))

/-- PATTERN REQUEST accepted while the head of the list cannot start (R22 step 5, R23, R24, R142): it receives the tag, the
counter goes one on, the override records the determining occurrence (R138), none, or unknown with the clock invalid, and the
entry joins the tail of the list or takes the
place of the station's own, which ends SUPERSEDED. The tag is the counter's value advanced past the tags in use and no further:
it is in 1–255 and no tag in use. -/
def Obligations.PatternRequestAccepted : Prop :=
  (∀ (x : Station) (target : Byte) (q : PatternNo) (s : State), s.Ready x → s.image ≠ none → target.toNat = q.val + 1 →
    (pattern s.activeImage x q).inUse = true → s.owns x = false →
    ¬(s.active x = some q ∧ (s.carrier x).onItsWay = true) → s.canStart = false →
    let entry : PendingEntry := ⟨s.tagToGive, x, q, .manual⟩
    let recorded : Recorded := match s.clock, s.image with
      | some r, some m => match determining m x r with
        | some d => .occurrence d.2
        | none => .noOccurrence
      | _, _ => .unknown
    (s.pendingOf x = none →
      exec (.patternRequest x target) s = .next
        (({ s with
            tagCounter := nextTag s.tagToGive
            pendingList := s.pendingList ++ [entry]
            override := s.override.set x (.set recorded) } : State).answered x 0x01 .accepted [byteOf s.tagToGive])) ∧
    ∀ e, s.pendingOf x = some e →
      exec (.patternRequest x target) s = .next
        ((State.deliver [(x, .transitionEnded e.tag x e.target e.source .superseded (s.active .A) (s.active .B))]
          { s with
            tagCounter := nextTag s.tagToGive
            pendingList := s.pendingList.map fun d => if d.station = x then entry else d
            override := s.override.set x (.set recorded) }).answered x 0x01 .accepted [byteOf s.tagToGive])) ∧
  ∀ p : Plant, 1 ≤ p.tagCounter → p.tagCounter ≤ 255 → p.tagsInUse.length ≤ 3 →
    1 ≤ p.tagToGive ∧ p.tagToGive ≤ 255 ∧ p.tagToGive ∉ p.tagsInUse ∧
    ∃ n ≤ p.tagsInUse.length, p.tagToGive = nextTag^[n] p.tagCounter ∧ ∀ m < n, nextTag^[m] p.tagCounter ∈ p.tagsInUse

/-- A PATTERN REQUEST that starts at once and whose target map the positions satisfy is a level change (R25, R27, R28, R76,
R80): it is the active transition, the requester takes the target, and its carrier ramps from the level it stands at to the
target's power, by the previous pattern's step when it lowers and the target's when it rises; at a level that is the target's
power it is VERIFYING at once, with its windows empty and the phase CONFIRM. A change of pattern takes the tower figures (R116),
and a station that leaves the scan set or enters VERIFYING ends its scan stay, at which an idle acquisition unit goes on from
the list called for (R96, R98; the stay's counter is log entry 25). TRANSITION_STARTED goes to the requester, and the peer, its
port and the contactors are left alone. That it goes ahead of the CARRIER_STATE of the same event is the model's choice (log
entry 21). -/
def Obligations.LevelChangeStarts : Prop :=
  ∀ (x : Station) (target : Byte) (q : PatternNo) (s : State), s.Ready x → s.image ≠ none → target.toNat = q.val + 1 →
    (pattern s.activeImage x q).inUse = true → s.transition = none → s.pendingList = [] → s.imageWritePending = false →
    ¬(s.active x = some q ∧ (s.carrier x).onItsWay = true) → satisfied s.activeImage s.contactors x q = true →
    s.conflicts x q = false →
    let record := pattern s.activeImage x q
    let equal := record.power = (s.carrier x).level
    let lowers := record.power < (s.carrier x).level
    ∃ t tr, exec (.patternRequest x target) s = .next t ∧
      t.transition = some tr ∧ tr.tag = s.tagToGive ∧ tr.station = x ∧ tr.target = q ∧ tr.source = .manual ∧
      tr.previous = s.active x ∧ tr.moves = [] ∧ tr.affected = ⟨false, false⟩ ∧
      tr.phase = (if equal then .confirm else .restore) ∧ tr.consent = .notNeeded ∧ tr.result = none ∧
      t.active x = some q ∧ (t.carrier x).level = (s.carrier x).level ∧ (t.carrier x).verifyRequired = true ∧
      (t.carrier x).state = (if equal then .verifying else if lowers then .lowering else .raising) ∧
      (t.carrier x).ramp =
        (if equal then none else some ⟨record.power, .level, if lowers then (s.active x).getD q else q⟩) ∧
      (¬equal → s.Unjudged x t) ∧
      (equal ∨ (s.carrier x).state = .normal ∨ (s.carrier x).state = .verifying ∨ (s.carrier x).state = .reduced →
        s.StayTurns x t) ∧
      (equal → (t.carrier x).passCount = 0 ∧
        (t.carrier x).verifyTimer = some (s.elapsed + Config.seconds record.verifyTimeout) ∧
        ∀ i : TowerNo, (t.stations.get x).channels[i] = ⟨[], none, false, none, .unknown⟩) ∧
      t.stations.get x.peer = s.stations.get x.peer ∧ t.contactors = s.contactors ∧ t.driver = s.driver ∧
      t.pendingList = [] ∧ t.tagCounter = nextTag s.tagToGive ∧ t.override = s.override.set x (.set (s.recordNow x)) ∧
      t.ports.get x.peer = s.ports.get x.peer ∧ (t.ports.get x).reply = some [0x81, 0x00, byteOf s.tagToGive] ∧
      ((s.ports.get x).notices = [] →
        (t.ports.get x).notices.head? = some (.transitionStarted s.tagToGive x q .manual 0))

/-- PLAN that ends the transition at once (R27 steps 1, 3 and 4, R29, R51): CONTACTOR_FAILED when a contactor that is to move is
FAILED or at UNKNOWN, else CONFLICT when the peer is not in DARK and the maps require a contactor in two positions, else
REFUSED_BY_PEER when the peer is affected and its policy is REFUSE. TRANSITION_ENDED goes to the requester, and at REFUSED_BY_PEER
to the peer, with no TRANSITION_STARTED, and no carrier and no contactor is touched. SUPERSEDED comes about when an entry that
waited for an image write starts and its station is on its way in the target already. -/
def Obligations.PlanEndsTheRequest : Prop :=
  (∀ (x : Station) (target : Byte) (q : PatternNo) (s : State), s.Ready x → s.image ≠ none → target.toNat = q.val + 1 →
    (pattern s.activeImage x q).inUse = true → s.transition = none → s.pendingList = [] → s.imageWritePending = false →
    ¬(s.active x = some q ∧ (s.carrier x).onItsWay = true) →
    let m := s.activeImage
    let listed (k : ContactorNo) : Prop := ∃ side, mapEntry m x q k = some side ∧ s.contactors[k].position ≠ some side
    let failed : Prop := ∃ k, listed k ∧ (s.contactors[k].state = .failed ∨ s.contactors[k].position = none)
    let clash : Prop := (s.carrier x.peer).state ≠ .dark ∧ ∃ p k a b, s.active x.peer = some p ∧
      mapEntry m x q k = some a ∧ mapEntry m x.peer p k = some b ∧ a ≠ b
    let affected : Prop := (s.carrier x.peer).state ≠ .dark ∧ ∃ k, listed k ∧ carries m k x.peer = true
    let store := s.work.handLastState false
    let ends (result : Result) (told : List Station) : State :=
      (State.deliver
        (told.map fun y => (y, .transitionEnded s.tagToGive x q .manual result (s.active .A) (s.active .B)))
        { s with
          tagCounter := nextTag s.tagToGive
          override := s.override.set x (.set (s.recordNow x))
          consentTimer := none
          deferTimer := none
          writing := store.writing
          writeQueue := store.writeQueue
          imageRecord := store.imageRecord
          lastRecord := store.lastRecord }).answered x 0x01 .accepted [byteOf s.tagToGive]
    (failed → exec (.patternRequest x target) s = .next (ends .contactorFailed [x])) ∧
    (¬failed → clash → exec (.patternRequest x target) s = .next (ends .conflict [x])) ∧
    (¬failed → ¬clash → affected → s.consentPolicy.get x.peer = some .refuse →
      exec (.patternRequest x target) s = .next (ends .refusedByPeer [x, x.peer]))) ∧
  ∀ (s : State) (e : PendingEntry) (bytes : Memory) (due : Nat), s.transition = none → s.pendingList = [e] →
    s.writing = some ⟨.image bytes, due⟩ → s.writeQueue = [] → s.active e.station = some e.target →
    (s.carrier e.station).onItsWay = true →
    let now := max s.elapsed due
    exec .imageWriteCompletion s = .next
      (State.deliver
        [(e.station, .transitionEnded e.tag e.station e.target e.source .superseded (s.active .A) (s.active .B))]
        { s with
          elapsed := now
          imageRecord := ⟨.valid, bytes⟩
          writing := some ⟨.lastState ⟨s.active .A, s.active .B, false⟩, now + Config.ms 20⟩
          lastRecord := .torn
          pendingList := []
          consentTimer := none
          deferTimer := none })

/-- A PATTERN REQUEST that starts at once and has contactors to move (R4, R25, R27, R29, R30, R35, R36, R78). The move list
holds an entry for each contactor that the target's map constrains elsewhere than its recorded position, in move order; the
affected set is the stations carried by them, less those in DARK; the restore set is that and the requester. With the peer
affected and its policy ASK, TRANSITION_STARTED goes to both, CONSENT_QUERY with the shared contactors and the estimated hold to
the peer, and the phase is CONSENT_WAIT with its timer running. With the peer not affected or its policy AUTO the phase is
QUIESCE, every affected station on the air above level 0 being lowered to hold; with the affected set empty QUIESCE ends at the
same event and, the interlock's conditions met, the first move's pulse begins. That TRANSITION_STARTED goes ahead of the
CARRIER_STATE of the same event is the model's choice (log entry 21). -/
def Obligations.MovesArePlanned : Prop :=
  ∀ (x : Station) (target : Byte) (q : PatternNo) (s : State), s.Ready x → s.image ≠ none → target.toNat = q.val + 1 →
    (pattern s.activeImage x q).inUse = true → s.transition = none → s.pendingList = [] → s.imageWritePending = false →
    ¬(s.active x = some q ∧ (s.carrier x).onItsWay = true) → s.conflicts x q = false →
    let m := s.activeImage
    let listed (k : ContactorNo) : Prop := ∃ side, mapEntry m x q k = some side ∧ s.contactors[k].position ≠ some side
    (∀ k, listed k → s.contactors[k].state ≠ .failed ∧ s.contactors[k].position ≠ none) → (∃ k, listed k) →
    let rank (e : MoveEntry) : Nat := (contactorRecord m e.contactor).rank
    let level (r : Carrier) : ReturnLevel :=
      if r.state = .reduced ∨ ((r.state = .lowering ∨ r.state = .raising) ∧
          (r.ramp.map (fun ramp => ramp.purpose) = some .reduce ∨ r.ramp.map (fun ramp => ramp.purpose) = some .fault))
        then .fault else .full
    ∃ moves : List MoveEntry,
      (moves.Pairwise fun d e => rank d < rank e ∨ (rank d = rank e ∧ d.contactor < e.contactor)) ∧
      (∀ e : MoveEntry, e ∈ moves ↔ mapEntry m x q e.contactor = some e.toPos ∧
        e.fromPos = s.contactors[e.contactor].position ∧ e.fromPos ≠ some e.toPos ∧ e.outcome = .waiting) ∧
      let affects (y : Station) : Bool := moves.any (fun e => carries m e.contactor y) && decide ((s.carrier y).state ≠ .dark)
      let entry (y : Station) (l : Option ReturnLevel) : Option StationEntry :=
        if affects y = true ∨ y = x then some ⟨s.active y, l⟩ else none
      let back (y : Station) : Option ReturnLevel := if affects y then some (level (s.carrier y)) else none
      let begun (phase : Phase) (consent : ConsentState) (l : Station → Option ReturnLevel) : Transition :=
        { tag := s.tagToGive, station := x, target := q, source := .manual, previous := s.active x, moves := moves
          affected := ⟨affects .A, affects .B⟩, entries := ⟨entry .A (l .A), entry .B (l .B)⟩, phase := phase
          consent := consent, withdrawTaken := false, cause := none, result := none }
      let started := Notice.transitionStarted s.tagToGive x q .manual moves.length
      let accepted : State := { s with
        tagCounter := nextTag s.tagToGive, override := s.override.set x (.set (s.recordNow x)) }
      (affects x.peer = true → s.consentPolicy.get x.peer = some .ask →
        let shared := (moves.filter fun e => carries m e.contactor .A && carries m e.contactor .B).length
        let times := (moves.map fun e => (contactorRecord m e.contactor).pulse + (contactorRecord m e.contactor).settle).sum
        exec (.patternRequest x target) s = .next
          ((State.deliver
            [(x, started), (x.peer, started), (x.peer, .consentQuery s.tagToGive x shared ((times + 99) / 100))]
            { accepted with
              transition := some (begun .consentWait .asked fun _ => none)
              consentTimer := some (s.elapsed + Config.seconds (settings m x.peer).consentWait) }).answered
            x 0x01 .accepted [byteOf s.tagToGive])) ∧
      (affects x.peer = false ∨ s.consentPolicy.get x.peer = some .auto →
        (∃ y, affects y = true ∧ (s.carrier y).rfInhibit = false ∧ 0 < (s.carrier y).level) →
        ∃ u, exec (.patternRequest x target) s = .next u ∧ u.transition = some (begun .quiesce .notNeeded back) ∧
          u.tagCounter = accepted.tagCounter ∧ u.override = accepted.override ∧ u.pendingList = [] ∧
          u.contactors = s.contactors ∧ u.driver = s.driver ∧ (∀ y, u.active y = s.active y) ∧
          (u.ports.get x).reply = some [0x81, 0x00, byteOf s.tagToGive] ∧
          (∀ y, affects y = false → u.stations.get y = s.stations.get y) ∧
          (affects x.peer = false → u.ports.get x.peer = s.ports.get x.peer) ∧
          (∀ y, y = x ∨ affects y = true → (s.ports.get y).notices = [] → (u.ports.get y).notices.head? = some started) ∧
          ∀ y p, affects y = true → (s.carrier y).rfInhibit = false → 0 < (s.carrier y).level → s.active y = some p →
            (u.carrier y).state = .lowering ∧ (u.carrier y).level = (s.carrier y).level ∧
            (u.carrier y).ramp =
              if (s.carrier y).state = .lowering ∧ (s.carrier y).ramp.map (fun r => r.purpose) = some .hold then
                (s.carrier y).ramp
              else some ⟨0, .hold, p⟩) ∧
      ∀ e rest, affects x = false → affects x.peer = false → moves = e :: rest →
        (∀ y, carries m e.contactor y = true → (s.carrier y).rfInhibit = true ∧ (s.carrier y).rfPresent = some false) →
        let store := s.work.handLastState true
        let live := s.contactors[e.contactor]
        exec (.patternRequest x target) s = .next
          ((State.deliver [(x, started)]
            { accepted with
              transition := some (begun .switch .notNeeded fun _ => none)
              driver := some ⟨e.contactor, live.position, e.toPos, 1, .pulsing, false,
                s.elapsed + Config.ms (contactorRecord m e.contactor).pulse⟩
              contactors := s.contactors.set e.contactor { live with state := .pulsing }
              writing := store.writing
              writeQueue := store.writeQueue
              imageRecord := store.imageRecord
              lastRecord := store.lastRecord }).answered x 0x01 .accepted [byteOf s.tagToGive])

/-- WITHDRAW of a pending entry, of nothing, or too late (R47): the entry ends WITHDRAWN, and one of source SCHEDULE sets the
retry hold (R144). In SWITCH (R48): too late once a result is decided, of no further effect once taken, and else taken: the move
in progress finishes its attempt, its stop flag is set, and every other WAITING entry becomes NOT_DONE. That a second withdraw
behind a disturbance that has decided the result is too late is the model's choice (log entry 38). -/
def Obligations.WithdrawAnswered : Prop :=
  (∀ (x : Station) (s : State), s.Ready x →
     (∀ e, s.pendingOf x = some e →
       exec (.withdraw x) s = .next
         ((State.deliver [(x, .transitionEnded e.tag x e.target e.source .withdrawn (s.active .A) (s.active .B))]
           { s with
             pendingList := s.pendingList.filter fun d => d.station != x
             retryHold := if e.source = .schedule then s.retryHold.set x 10 else s.retryHold }).answered x 0x02 .accepted [])) ∧
     (s.pendingOf x = none → s.owns x = false →
       exec (.withdraw x) s = .next (s.answered x 0x02 .nothingToWithdraw [])) ∧
     ∀ t, s.pendingOf x = none → s.transition = some t → t.station = x →
       (t.phase = .reverse ∨ t.phase = .restore ∨ t.phase = .confirm) →
       exec (.withdraw x) s = .next (s.answered x 0x02 .tooLate [])) ∧
  ∀ (x : Station) (s : State) (t : Transition), s.Ready x → s.pendingOf x = none → s.transition = some t →
    t.station = x → t.phase = .switch →
    (t.result ≠ none → exec (.withdraw x) s = .next (s.answered x 0x02 .tooLate [])) ∧
    (t.result = none → t.withdrawTaken = true → exec (.withdraw x) s = .next (s.answered x 0x02 .accepted [])) ∧
    ∀ m, t.result = none → t.withdrawTaken = false → s.driver = some m →
      exec (.withdraw x) s = .next
        (({ s with
            driver := some { m with stop := true }
            transition := some { t with
              withdrawTaken := true
              moves := t.moves.map fun e =>
                if e.outcome = .waiting ∧ e.contactor ≠ m.contactor then { e with outcome := .notDone } else e } } : State).answered
          x 0x02 .accepted [])

/-- WITHDRAW in CONSENT_WAIT and in QUIESCE, with nothing else pending (R47, R51): in CONSENT_WAIT the query ends with
CONSENT_WITHDRAWN before TRANSITION_ENDED; in QUIESCE every affected station is raised back, and one of return level FULL
below its power level is then RAISING to it. The record is deleted and a last-state record handed. -/
def Obligations.WithdrawBeforeSwitch : Prop :=
  ∀ (x : Station) (s : State) (t : Transition), s.Ready x → s.pendingList = [] → s.transition = some t → t.station = x →
    let store := s.work.handLastState false
    let ended := Notice.transitionEnded t.tag x t.target t.source .withdrawn (s.active .A) (s.active .B)
    (t.phase = .consentWait →
      exec (.withdraw x) s = .next
        ((State.deliver ((x.peer, .consentWithdrawn t.tag) :: t.informed.map fun y => (y, ended))
          { s with
            transition := none
            consentTimer := none
            deferTimer := none
            writing := store.writing
            writeQueue := store.writeQueue
            imageRecord := store.imageRecord
            lastRecord := store.lastRecord
            retryHold := if t.source = .schedule then s.retryHold.set x 10 else s.retryHold }).answered x 0x02 .accepted [])) ∧
    (t.phase = .quiesce →
      ∃ u, exec (.withdraw x) s = .next u ∧ u.transition = none ∧ u.contactors = s.contactors ∧ u.driver = s.driver ∧
        (∀ y, u.active y = s.active y) ∧ (u.ports.get x).reply = some [0x82, 0x00] ∧
        ((s.ports.get x).notices.length ≤ 12 → ended ∈ (u.ports.get x).notices) ∧
        (∀ y, t.affected.get y = false → u.stations.get y = s.stations.get y) ∧
        ∀ y q, t.affected.get y = true → s.active y = some q → (s.carrier y).state ≠ .dark →
          (t.entries.get y).bind (fun e => e.returnLevel) = some .full →
          (s.carrier y).level < (pattern s.activeImage y q).power →
          (u.carrier y).state = .raising ∧ (u.carrier y).level = (s.carrier y).level ∧
          (u.carrier y).ramp = some ⟨(pattern s.activeImage y q).power, .full, q⟩ ∧ (u.carrier y).rfInhibit = false)

/-- GRANT of the outstanding query (R31, R35, R36, R78): the running timer stops, the phase becomes QUIESCE with the return levels
recorded, and every affected station is lowered to hold. With one of them on the air above level 0 QUIESCE goes on: each such
station is LOWERING from its level to 0 with purpose HOLD, whatever its ramp was before, a HOLD ramp under way being kept. With
each HELD and confirmed already, or on the air at level 0 with RF present inactive, QUIESCE ends at the event of its entry and,
the interlock's conditions met, the first WAITING move's pulse begins. -/
def Obligations.GrantTaken : Prop :=
  ∀ (x : Station) (tag : Byte) (s : State) (t : Transition), s.Ready x → s.transition = some t → t.phase = .consentWait →
    t.station = x.peer → t.tag = tag.toNat →
    let fault (r : Carrier) : Bool := r.state == .reduced ||
      ((r.state == .lowering || r.state == .raising) &&
        match r.ramp with
        | some ramp => ramp.purpose == .reduce || ramp.purpose == .fault
        | none => false)
    let entry (y : Station) : Option StationEntry :=
      (t.entries.get y).map fun e =>
        if t.affected.get y then { e with returnLevel := some (if fault (s.carrier y) then .fault else .full) } else e
    let granted : Transition := { t with consent := .granted, entries := ⟨entry .A, entry .B⟩ }
    let keeps (y : Station) : Prop :=
      (s.carrier y).state = .lowering ∧ (s.carrier y).ramp.map (fun ramp => ramp.purpose) = some .hold
    ((∃ y, t.affected.get y = true ∧ (s.carrier y).rfInhibit = false ∧ 0 < (s.carrier y).level) →
      ∃ u, exec (.grant x tag) s = .next u ∧ u.transition = some { granted with phase := .quiesce } ∧
        u.consentTimer = none ∧ u.deferTimer = none ∧ u.pendingList = s.pendingList ∧ u.contactors = s.contactors ∧
        u.driver = s.driver ∧ (∀ y, u.active y = s.active y) ∧ (u.ports.get x).reply = some [0x83, 0x00] ∧
        (∀ y, t.affected.get y = false → u.stations.get y = s.stations.get y) ∧
        ∀ y, t.affected.get y = true → (s.carrier y).rfInhibit = false → 0 < (s.carrier y).level →
          (u.carrier y).state = .lowering ∧ (u.carrier y).level = (s.carrier y).level ∧
          (keeps y → (u.carrier y).ramp = (s.carrier y).ramp) ∧
          (¬keeps y → ∀ q, s.active y = some q → (u.carrier y).ramp = some ⟨0, .hold, q⟩)) ∧
    ∀ e, (∀ y, t.affected.get y = true → (s.carrier y).quiet = true ∨
        ((s.carrier y).rfInhibit = false ∧ (s.carrier y).level = 0 ∧ ¬keeps y ∧ (s.carrier y).rfPresent = some false)) →
      t.moves.find? (fun d => d.outcome == .waiting) = some e → s.contactors[e.contactor].state ≠ .failed →
      (∀ y, carries s.activeImage e.contactor y = true →
        (s.carrier y).rfPresent = some false ∧ ((s.carrier y).rfInhibit = true ∨ t.affected.get y = true)) →
      let store := s.work.handLastState true
      let live := s.contactors[e.contactor]
      ∃ u, exec (.grant x tag) s = .next u ∧ u.transition = some { granted with phase := .switch } ∧
        u.driver = some ⟨e.contactor, live.position, e.toPos, 1, .pulsing, false,
          s.elapsed + Config.ms (contactorRecord s.activeImage e.contactor).pulse⟩ ∧
        u.contactors = s.contactors.set e.contactor { live with state := .pulsing } ∧ u.consentTimer = none ∧
        u.deferTimer = none ∧ u.pendingList = s.pendingList ∧ (∀ y, u.active y = s.active y) ∧
        u.writing = store.writing ∧ u.writeQueue = store.writeQueue ∧ u.lastRecord = store.lastRecord ∧
        (u.ports.get x).reply = some [0x83, 0x00] ∧
        ∀ y, (t.affected.get y = true → (u.carrier y).state = .held ∧ (u.carrier y).level = (s.carrier y).level ∧
            (u.carrier y).muteTimer = none ∧ (u.carrier y).muteConfirmed = true) ∧
          (t.affected.get y = false → u.stations.get y = s.stations.get y)

/-- DEFER, and the refused answers (R32, R33). With the tag of the query outstanding: in DEFERRED nothing changes; in ASKED the
defer timer starts with the peer's limit, or with a limit of 0 and nothing else pending the transition ends NO_CONSENT. With no
query outstanding to the station, or another tag, a GRANT or DEFER is refused STALE_ANSWER and leaves the record unchanged. -/
def Obligations.DeferAndStaleAnswers : Prop :=
  (∀ (x : Station) (tag : Byte) (s : State) (t : Transition), s.Ready x → s.transition = some t → t.phase = .consentWait →
    t.station = x.peer → t.tag = tag.toNat →
    let limit := (settings s.activeImage x).deferLimit
    let store := s.work.handLastState false
    let ended := Notice.transitionEnded t.tag x.peer t.target t.source .noConsent (s.active .A) (s.active .B)
    (t.consent = .deferred → exec (.defer x tag) s = .next (s.answered x 0x03 .accepted [])) ∧
    (t.consent ≠ .deferred → 0 < limit →
      exec (.defer x tag) s = .next
        (({ s with
            transition := some { t with consent := .deferred }
            consentTimer := none
            deferTimer := some (s.elapsed + Config.seconds limit) } : State).answered x 0x03 .accepted [])) ∧
    (t.consent ≠ .deferred → limit = 0 → s.pendingList = [] →
      exec (.defer x tag) s = .next
        ((State.deliver (t.informed.map fun y => (y, ended))
          { s with
            transition := none
            consentTimer := none
            deferTimer := none
            writing := store.writing
            writeQueue := store.writeQueue
            imageRecord := store.imageRecord
            lastRecord := store.lastRecord
            retryHold := if t.source = .schedule then s.retryHold.set x.peer 10 else s.retryHold }).answered x 0x03 .accepted []))) ∧
  ∀ (x : Station) (tag : Byte) (s : State), s.Ready x →
    (∀ t, s.transition = some t → t.phase = .consentWait → t.station = x.peer → t.tag ≠ tag.toNat) →
    exec (.grant x tag) s = .next (s.answered x 0x03 .staleAnswer []) ∧
    exec (.defer x tag) s = .next (s.answered x 0x03 .staleAnswer [])

/-! ### Frames -/

/-- A request frame received while the reply slot is full, or before start-up has ended, is held by the paused assembler and
changes nothing else (R159), a damaged flag set before it notwithstanding, which is the model's choice (log entry 10); one
received while the line is not heard, a reset being held (R155) or the line low after a break (log entry 12), changes nothing.
The request a body spells is the one whose body it is and no other; a body whose first byte is no request kind is UNKNOWN_KIND,
and every other body BAD_LENGTH (R163 steps 1 and 2). A frame of the first sort is answered so and changes nothing else; the
kind of its reply is the byte plus 80h, modulo 256, which is the model's choice (log entry 11). -/
def Obligations.RequestFramesRead : Prop :=
  (∀ (c : Instr) (x : Station) (body : List Byte) (s : State), c.frame? = some (x, body) →
     (s.phase.isHeld = true ∨ (s.ports.get x).lineLow = true → exec c s = .next s) ∧
     (s.phase.isHeld = false → (s.ports.get x).lineLow = false → (s.ports.get x).heldFrame = none →
       (s.phase ≠ .running ∨ (s.ports.get x).reply ≠ none) →
       exec c s = .next (s.onPort x fun p =>
         { p with
           assembler := .opened, content := [], damaged := false, line := .delimiter, gapTimer := none
           heldFrame := some body }))) ∧
  (∀ (body : List Byte) (r : Request), parseRequest body = .ok r ↔ body = r.body) ∧
  (∀ (kind : Byte) (fields : List Byte), parseRequest (kind :: fields) = .error .unknownKind ↔ kind = 0 ∨ 18 ≤ kind.toNat) ∧
  (∀ (kind : Byte) (fields : List Byte), (∀ r : Request, kind :: fields ≠ r.body) → kind ≠ 0 → kind.toNat ≤ 17 →
    parseRequest (kind :: fields) = .error .badLength) ∧
  ∀ (x : Station) (kind : Byte) (rest : List Byte) (s : State), s.Ready x → (kind = 0 ∨ 18 ≤ kind.toNat) →
    exec (.unknownKind x kind rest) s = .next (s.answered x kind .unknownKind [])

/-- A request command is what its frame's characters bring (R156 to R159, R168): on a link whose assembler holds no frame in
assembly, with nothing in the FIFO and the transmitter with no character ready, receiving the delimiter, the escaped body and
check byte and the closing delimiter one by one leaves exactly the state that the command leaves. -/
def Obligations.FrameRoundTrip : Prop :=
  ∀ (c : Instr) (x : Station) (body : List Byte) (s : State), c.wellFormed = true → c.frame? = some (x, body) →
    s.phase.isHeld = false →
    (let p := s.ports.get x
     p.lineLow = false ∧ p.fifo = [] ∧ p.heldFrame = none ∧ (p.assembler = .hunt ∨ p.assembler = .opened) ∧ p.content = [] ∧
       p.damaged = false ∧ (p.char ≠ none ∨ (p.flowQueued = none ∧ (p.running = false ∨ p.frame = none)))) →
    exec c s = .next ((frameBytes body).foldl (fun s b => s.receiveChar x b false) s)

/-! ### Resets and start-up -/

/-- POWER_ON and RESET_LINE (R153, with the values R7, R13, R19, R23, R53, R55, R72, R83, R84, R103, R112, R120, R133, R140,
R144, R147, R151, R156, R157, R160 and R161 give for them). The retained records stay, but an image write in progress leaves its
record TORN, each byte the old one or the new one (R151, R152). Five clauses are the model's choice: that the start-up cause is
absent, the load buffer empty and the last entry absent (log entry 15), that elapsed time and the line rate go on (log entry
13), and that a port's content, damaged flag, held frame, gap timer, and frame and character in transmission are cleared (log
entry 42).

RESET_END (R154 step 1, R155, R74, R84): the straps set the line rate by the table of R155, the start-up wait of 100 ms begins,
and each carrier unit's ramp ticks and power-reference periods run. With no reset held it is no event of the part, which is the
model's choice (log entry 8). A character time is ten bit times at the rate. -/
def Obligations.ResetHeldAndEnded : Prop :=
  (∀ (c : Instr) (kind : ResetKind) (s : State),
     (c = .powerOn ∧ kind = .powerOn) ∨ (c = .resetLine ∧ kind = .resetLine) →
     ∃ t, exec c s = .next t ∧ t.phase = .held kind ∧ t.startUpTimer = none ∧ t.startUpCause = none ∧
       t.image = none ∧ t.foundImage = none ∧ t.loadSlot = .free ∧ t.loadBuffer = [] ∧ t.loadIdleTimer = none ∧
       t.readback = ⟨none, none⟩ ∧ t.writing = none ∧ t.writeQueue = [] ∧
       t.tagCounter = 1 ∧ t.pendingList = [] ∧ t.transition = none ∧ t.consentTimer = none ∧ t.deferTimer = none ∧
       t.consentPolicy = ⟨none, none⟩ ∧ t.schedulePolicy = ⟨none, none⟩ ∧ t.driver = none ∧ t.coil = none ∧
       t.measurement = none ∧ t.scanList = [] ∧ t.lastEntry = none ∧ t.clock = none ∧ t.clockTimer = none ∧
       t.override = ⟨.clear, .clear⟩ ∧ t.retryHold = ⟨0, 0⟩ ∧
       (∀ k : ContactorNo, t.contactors[k] = ⟨none, .idle, .noFailure⟩ ∧ t.aux[k] = ⟨none, none⟩) ∧
       (∀ x, t.active x = none ∧ (t.carrier x).state = .dark ∧ (t.carrier x).rfInhibit = true ∧ (t.carrier x).level = 0 ∧
         (t.carrier x).ramp = none ∧ (t.carrier x).verifyRequired = true ∧ (t.carrier x).muteConfirmed = false ∧
         (t.carrier x).muteTimer = none ∧ (t.carrier x).rfNoticePosted = false ∧ (t.carrier x).rfPresent = none ∧
         (t.carrier x).passCount = 0 ∧ (t.carrier x).verifyTimer = none ∧ (t.carrier x).holdTimer = none ∧
         t.powerReference x = false ∧
         (t.carrier x).lastStatus = .unknown ∧ (t.carrier x).notifiedStatus = .unknown ∧
         (∀ i : TowerNo, (t.stations.get x).channels[i] = ⟨[], none, false, none, .unknown⟩) ∧
         (t.stations.get x).reference = ⟨0, false⟩ ∧ (t.stations.get x).arrayStatus = .unknown ∧
         (t.ports.get x).fifo = [] ∧ (t.ports.get x).assembler = .hunt ∧ (t.ports.get x).content = [] ∧
         (t.ports.get x).damaged = false ∧ (t.ports.get x).heldFrame = none ∧ (t.ports.get x).gapTimer = none ∧
         (t.ports.get x).reply = none ∧ (t.ports.get x).notices = [] ∧ (t.ports.get x).lost = 0 ∧
         (t.ports.get x).dropped = 0 ∧ (t.ports.get x).flowState = .xon ∧ (t.ports.get x).flowQueued = none ∧
         (t.ports.get x).running = true ∧ (t.ports.get x).frame = none ∧ (t.ports.get x).char = none) ∧
       t.elapsed = s.elapsed ∧ t.rate = s.rate ∧ t.lastRecord = s.lastRecord ∧
       ((∀ m due, s.writing ≠ some ⟨.image m, due⟩) → t.imageRecord = s.imageRecord) ∧
       ∀ m due, s.writing = some ⟨.image m, due⟩ →
         t.imageRecord.condition = .torn ∧
         (Memory.wf s.imageRecord.bytes = true → ∀ a, a < 1097 →
           Memory.read t.imageRecord.bytes a = Memory.read s.imageRecord.bytes a ∨
           Memory.read t.imageRecord.bytes a = Memory.read m a)) ∧
  ∀ (strap1 strap0 : Bool) (s : State),
    (∀ kind, s.phase = .held kind →
      exec (.resetEnd strap1 strap0) s = .next
        (((({ s with
            phase := .starting kind
            rate := if strap1 then (if strap0 then .r115200 else .r38400) else if strap0 then .r19200 else .r9600
            startUpTimer := some (s.elapsed + Config.ms 100) } : State).onCarrier .A fun r =>
          { r with
            rampTimer := some (s.elapsed + Config.ms 100)
            dutyInForce := r.level
            periodTimer := some (s.elapsed + Config.ms 1) }).onCarrier .B fun r =>
          { r with
            rampTimer := some (s.elapsed + Config.ms 100)
            dutyInForce := r.level
            periodTimer := some (s.elapsed + Config.ms 1) }))) ∧
    ((∀ kind, s.phase ≠ .held kind) → exec (.resetEnd strap1 strap0) s = .next s) ∧
    LinkRate.charTime .r9600 * 9600 = 10 * Config.seconds 1 ∧ LinkRate.charTime .r19200 * 19200 = 10 * Config.seconds 1 ∧
    LinkRate.charTime .r38400 * 38400 = 10 * Config.seconds 1 ∧
    LinkRate.charTime .r115200 * 115200 = 10 * Config.seconds 1

/-- START_UP with an image record that is BLANK, TORN or unsound (R154 steps 1, 2, 7 and 8; R53, R85): the inputs with no value
take one, the part stays UNCONFIGURED with both stations DARK, and STARTED goes to both links. Nothing else changes. -/
def Obligations.StartUpUnconfigured : Prop :=
  ∀ (kind : ResetKind) (due : Nat) (s : State), s.phase = .starting kind → s.startUpTimer = some due → s.OutOfService →
    (∀ x, s.active x = none) → (∀ x, (s.ports.get x).heldFrame = none) →
    (s.imageRecord.condition ≠ .valid ∨ firstFailure s.imageRecord.bytes ≠ none) →
    let interrupted := match s.lastRecord with
      | .blank => false
      | .torn => true
      | .valid content => content.marker
    ∃ (aux : Vector Aux 16) (live : Vector Live 16),
      exec .startUp s = .next
        (State.deliver [(.A, .started kind interrupted false none none), (.B, .started kind interrupted false none none)]
          ((({ s with
              phase := .running
              elapsed := max s.elapsed due
              startUpTimer := none
              foundImage := some s.imageRecord.bytes
              startUpCause := some kind
              interrupted := interrupted
              aux := aux
              contactors := live } : State).onCarrier .A fun r => { r with rfPresent := some (r.rfPresent.getD true) }).onCarrier
            .B fun r => { r with rfPresent := some (r.rfPresent.getD true) })) ∧
      ∀ k : ContactorNo,
        aux[k] = ⟨some (s.aux[k].made0.getD false), some (s.aux[k].made1.getD false)⟩ ∧
        live[k] = ⟨if aux[k].made0 = some true ∧ aux[k].made1 = some false then some .zero
          else if aux[k].made0 = some false ∧ aux[k].made1 = some true then some .one else none, .idle, .noFailure⟩

/-- START_UP with a sound image record (R154, R7, R13, R49): the image becomes active and the contactors in use enter use; each
station takes the pattern its last-state record prefers when that is a candidate, else the lowest candidate, and is raised to
full, or stays DARK without one; a last-state record with the marker clear is handed; the policies take the defaults; and
STARTED is the first notice of each link, with the CARRIER_STATE of a raise behind it. The premise `CarriersSound` is the
invariant of `Obligations.CarriersStaySound`. -/
def Obligations.StartUpConfigured : Prop :=
  ∀ (kind : ResetKind) (due : Nat) (m : Memory) (s : State), s.phase = .starting kind → s.startUpTimer = some due →
    s.OutOfService → (∀ x, s.active x = none) → (∀ x, (s.carrier x).level = 0) →
    (∀ x, (s.ports.get x).heldFrame = none) → (∀ x, (s.ports.get x).notices = []) → s.CarriersSound →
    s.imageRecord = ⟨.valid, m⟩ → firstFailure m = none →
    let now := max s.elapsed due
    let interrupted := match s.lastRecord with
      | .blank => false
      | .torn => true
      | .valid content => content.marker
    let prefers (x : Station) : Option PatternNo := match s.lastRecord with
      | .valid content => (match x with | .A => content.patternA | .B => content.patternB)
      | .blank | .torn => none
    ∃ t, exec .startUp s = .next t ∧ t.phase = .running ∧ t.elapsed = now ∧ t.startUpCause = some kind ∧
      t.interrupted = interrupted ∧ t.image = some m ∧ t.foundImage = some m ∧ t.override = ⟨.clear, .clear⟩ ∧
      t.retryHold = ⟨0, 0⟩ ∧ t.transition = none ∧ t.clock = none ∧
      t.lastRecord = .torn ∧ t.writing = some ⟨.lastState ⟨t.active .A, t.active .B, false⟩, now + Config.ms 20⟩ ∧
      (∀ k : ContactorNo,
        t.aux[k] = ⟨some (s.aux[k].made0.getD false), some (s.aux[k].made1.getD false)⟩ ∧
        t.contactors[k] = (if (contactorRecord m k).inUse = true ∧ t.aux[k].shows = none then ⟨none, .failed, .disagree⟩
          else ⟨t.aux[k].shows, .idle, .noFailure⟩)) ∧
      ∀ x,
        let candidate (q : PatternNo) : Prop := (pattern m x q).inUse = true ∧ satisfied m t.contactors x q = true
        let rf := (s.carrier x).rfPresent.getD true
        t.consentPolicy.get x = (settings m x).consentDefault ∧ t.schedulePolicy.get x = (settings m x).scheduleDefault ∧
        (t.active x = none ↔ ∀ q, ¬candidate q) ∧
        (∀ q, t.active x = some q → candidate q ∧
          ((∃ p, prefers x = some p ∧ candidate p) → prefers x = some q) ∧
          ((∀ p, prefers x = some p → ¬candidate p) → ∀ p, candidate p → q ≤ p)) ∧
        (t.carrier x).rfPresent = some rf ∧
        (t.active x = none → (t.carrier x).state = .dark ∧ (t.carrier x).rfInhibit = true ∧
          (t.ports.get x).notices = [.started kind interrupted true (t.active .A) (t.active .B)]) ∧
        ∀ q, t.active x = some q →
          let ramp : Ramp := ⟨(pattern m x q).power, .full, q⟩
          (t.carrier x).state = .raising ∧ (t.carrier x).rfInhibit = false ∧ (t.carrier x).level = 0 ∧
          (t.carrier x).ramp = some ramp ∧ (t.carrier x).verifyRequired = true ∧
          (t.ports.get x).notices = [.started kind interrupted true (t.active .A) (t.active .B),
            .carrierState .raising 0 (some q) (some ramp) false rf]

/-! ### The timers of the Transition Engine and of the carriers -/

/-- CONSENT_WAIT_TIMER_EXPIRY in ASKED and DEFER_TIMER_EXPIRY in DEFERRED (R33, R51), with nothing else pending: the transition
ends NO_CONSENT, with TRANSITION_ENDED to the requester and the peer it asked and no CONSENT_WITHDRAWN (R34), a last-state
record handed and the retry hold set for a SCHEDULE request (R144). In any other state of the consent neither timer has an
event, which is the model's choice (log entry 8). -/
def Obligations.ConsentWaitExpires : Prop :=
  ∀ (s : State) (t : Transition) (due : Nat), s.transition = some t → t.phase = .consentWait → s.pendingList = [] →
    let now := max s.elapsed due
    let store := ({ s with elapsed := now } : State).work.handLastState false
    let ended := Notice.transitionEnded t.tag t.station t.target t.source .noConsent (s.active .A) (s.active .B)
    let after := State.deliver (t.informed.map fun y => (y, ended))
      { s with
        elapsed := now
        transition := none
        consentTimer := none
        deferTimer := none
        writing := store.writing
        writeQueue := store.writeQueue
        imageRecord := store.imageRecord
        lastRecord := store.lastRecord
        retryHold := if t.source = .schedule then s.retryHold.set t.station 10 else s.retryHold }
    (t.consent = .asked → s.consentTimer = some due → exec .consentWaitTimerExpiry s = .next after) ∧
    (t.consent = .deferred → s.deferTimer = some due → exec .deferTimerExpiry s = .next after) ∧
    (t.consent ≠ .asked → exec .consentWaitTimerExpiry s = .next s) ∧
    (t.consent ≠ .deferred → exec .deferTimerExpiry s = .next s)

/-- MUTE_TIMER_EXPIRY (R36, R87): the timer is stopped, and in QUIESCE, with the station in the affected set and nothing else
pending, the transition ends MUTE_TIMEOUT with every affected station raised back: one of return level FULL below its power
level is then RAISING to it, and one of FAULT below its fault power RAISING to that. -/
def Obligations.MuteTimerExpires : Prop :=
  ∀ (x : Station) (due : Nat) (s : State), (s.carrier x).muteTimer = some due →
    ((∀ t, s.transition = some t → ¬(t.phase = .quiesce ∧ t.affected.get x = true)) →
      exec (.muteTimerExpiry x) s = .next
        (({ s with elapsed := max s.elapsed due } : State).onCarrier x fun r => { r with muteTimer := none })) ∧
    ∀ t, s.transition = some t → t.phase = .quiesce → t.affected.get x = true → s.pendingList = [] →
      ∃ u, exec (.muteTimerExpiry x) s = .next u ∧ u.transition = none ∧ u.contactors = s.contactors ∧ u.driver = s.driver ∧
        u.elapsed = max s.elapsed due ∧ (∀ y, u.active y = s.active y) ∧
        (∀ y, t.affected.get y = false → u.stations.get y = s.stations.get y) ∧
        ((s.ports.get t.station).notices.length ≤ 12 →
          Notice.transitionEnded t.tag t.station t.target t.source .muteTimeout (s.active .A) (s.active .B) ∈
            (u.ports.get t.station).notices) ∧
        ∀ y q, t.affected.get y = true → s.active y = some q → (s.carrier y).state ≠ .dark →
          let record := pattern s.activeImage y q
          ((t.entries.get y).bind (fun e => e.returnLevel) = some .full → (s.carrier y).level < record.power →
            (u.carrier y).state = .raising ∧ (u.carrier y).level = (s.carrier y).level ∧
            (u.carrier y).ramp = some ⟨record.power, .full, q⟩ ∧
            ((s.carrier y).state = .held → (u.carrier y).muteTimer = none ∧ (u.carrier y).muteConfirmed = false)) ∧
          ((t.entries.get y).bind (fun e => e.returnLevel) = some .fault → (s.carrier y).level < record.fault →
            (u.carrier y).state = .raising ∧ (u.carrier y).ramp = some ⟨record.fault, .fault, q⟩)

/-- RAMP_TICK short of the target (R74), and the power reference (R84). A LOWERING or RAISING level takes one step of the step
pattern's ramp step, held at the target, and in any other state, or with no ramp, the tick changes nothing; the next tick falls
100 ms on. At POWER_REFERENCE_PERIOD_START the level as it stands becomes the duty in force, and the next period begins 1000 µs
later; with the periods stopped it is no event, which is the model's choice (log entry 8). Within a period the output is high for
as many microseconds from its start as the duty in force, and low for the rest, the high time standing first by the model's choice
(log entry 37); with the periods stopped, in reset, it is low. -/
def Obligations.CarrierClocksTick : Prop :=
  (∀ (x : Station) (due : Nat) (s : State), (s.carrier x).rampTimer = some due → s.Settled → s.Waiting →
    let next := some (due + Config.ms 100)
    let s1 : State := { s with elapsed := max s.elapsed due }
    ((s.carrier x).ramp = none ∨ ((s.carrier x).state ≠ .lowering ∧ (s.carrier x).state ≠ .raising) →
      exec (.rampTick x) s = .next (s1.onCarrier x fun r => { r with rampTimer := next })) ∧
    ∀ ramp, (s.carrier x).ramp = some ramp →
      let record := pattern s.activeImage x ramp.stepPattern
      let lowered := max ramp.target ((s.carrier x).level - record.rampDown)
      let raised := min ramp.target ((s.carrier x).level + record.rampUp)
      ((s.carrier x).state = .lowering → lowered ≠ ramp.target →
        exec (.rampTick x) s = .next (s1.onCarrier x fun r => { r with rampTimer := next, level := lowered })) ∧
      ((s.carrier x).state = .raising → raised ≠ ramp.target →
        exec (.rampTick x) s = .next (s1.onCarrier x fun r => { r with rampTimer := next, level := raised }))) ∧
  ∀ (x : Station) (s : State),
    (∀ due, (s.carrier x).periodTimer = some due →
      exec (.powerReferencePeriodStart x) s = .next
        (({ s with elapsed := max s.elapsed due } : State).onCarrier x fun r =>
          { r with dutyInForce := r.level, periodTimer := some (due + Config.ms 1) })) ∧
    ((s.carrier x).periodTimer = none →
      exec (.powerReferencePeriodStart x) s = .next s ∧ s.powerReference x = false) ∧
    ∀ start since, (s.carrier x).periodTimer = some (start + Config.ms 1) → s.elapsed = start + since → since < Config.us 1000 →
      (s.carrier x).dutyInForce ≤ 1000 →
      (s.powerReference x = true ↔ since < Config.us (s.carrier x).dutyInForce)

/-- The tick at which a HOLD ramp reaches 0 (R77, R83, R86, R87, R89): the station is HELD with RF inhibit asserted, its mute
timer running for the mute timeout, verify required yes and RF notice posted no. With RF present active mute confirmed is no
and that is all; with it inactive mute confirmed is yes, and QUIESCE goes on when another affected station is not quiet. When
every other affected station is quiet, QUIESCE ends at this tick (R36, R38): the mute timers stop, a last-state record with the
marker set is handed, the phase becomes SWITCH and, the interlock's conditions met, the first WAITING move's pulse begins. -/
def Obligations.HoldRampCompletes : Prop :=
  ∀ (x : Station) (due : Nat) (ramp : Ramp) (s : State), (s.carrier x).rampTimer = some due → s.Settled → s.Waiting →
    (s.carrier x).state = .lowering → (s.carrier x).ramp = some ramp → ramp.purpose = .hold → ramp.target = 0 →
    (s.carrier x).level ≤ (pattern s.activeImage x ramp.stepPattern).rampDown →
    let confirmed := (s.carrier x).rfPresent == some false
    let now := max s.elapsed due
    let post := (x, Notice.carrierState .held 0 (s.active x) none confirmed ((s.carrier x).rfPresent == some true))
    ((confirmed = false ∨ ∀ t, s.transition = some t → t.phase = .quiesce →
        ∃ y, y ≠ x ∧ t.affected.get y = true ∧ (s.carrier y).quiet = false) →
      ∃ t, exec (.rampTick x) s = .next t ∧ (t.carrier x).rfInhibit = true ∧
        t = State.deliver [post]
          (({ s with elapsed := now } : State).onCarrier x fun r =>
            { r with
              state := .held
              level := 0
              ramp := none
              rampTimer := some (due + Config.ms 100)
              verifyRequired := true
              rfNoticePosted := false
              muteConfirmed := confirmed
              muteTimer := some (now + Config.ms (100 * (settings s.activeImage x).muteSteps)) })) ∧
    ∀ t e, confirmed = true → s.transition = some t → t.phase = .quiesce →
      (∀ y, y ≠ x → t.affected.get y = true → (s.carrier y).quiet = true) →
      t.moves.find? (fun d => d.outcome == .waiting) = some e → s.contactors[e.contactor].state ≠ .failed →
      (∀ y, carries s.activeImage e.contactor y = true →
        (y ≠ x → (s.carrier y).rfInhibit = true) ∧ (s.carrier y).rfPresent = some false) →
      let store := ({ s with elapsed := now } : State).work.handLastState true
      let live := s.contactors[e.contactor]
      ∃ u, exec (.rampTick x) s = .next u ∧ u.transition = some { t with phase := .switch } ∧
        u.driver = some ⟨e.contactor, live.position, e.toPos, 1, .pulsing, false,
          now + Config.ms (contactorRecord s.activeImage e.contactor).pulse⟩ ∧
        u.contactors = s.contactors.set e.contactor { live with state := .pulsing } ∧ u.elapsed = now ∧
        u.ports = (State.deliver [post] s).ports ∧ u.pendingList = s.pendingList ∧
        u.writing = store.writing ∧ u.writeQueue = store.writeQueue ∧ u.lastRecord = store.lastRecord ∧
        (u.carrier x).state = .held ∧ (u.carrier x).level = 0 ∧ (u.carrier x).ramp = none ∧
        (u.carrier x).verifyRequired = true ∧ (u.carrier x).rampTimer = some (due + Config.ms 100) ∧
        ∀ y, u.active y = s.active y ∧
          (t.affected.get y = true → (u.carrier y).muteConfirmed = true ∧ (u.carrier y).muteTimer = none) ∧
          (y ≠ x → (u.carrier y).state = (s.carrier y).state ∧ (u.carrier y).level = (s.carrier y).level)

/-- The tick at which any other ramp reaches its target (R77, R121): REDUCE and FAULT lead to REDUCED, LEVEL to VERIFYING, and
FULL to VERIFYING or, with verify required no, to NORMAL. VERIFYING begins with no passes, its timer running for the verify
timeout and every window empty. The station enters the scan set, at which its scan stay begins and an idle acquisition unit
recomputes the scan list and begins a measurement (R96, R98; the stay's counter is log entry 25). The requester of a transition
in RESTORE so brings CONFIRM, and ends the transition at REDUCED (R45, R46), and at NORMAL, which is the model's choice (log
entry 28). -/
def Obligations.RampCompletes : Prop :=
  ∀ (x : Station) (due : Nat) (ramp : Ramp) (q : PatternNo) (s : State), (s.carrier x).rampTimer = some due → s.Settled →
    s.pendingList = [] → s.active x = some q → (s.carrier x).ramp = some ramp → ramp.purpose ≠ .hold →
    (let record := pattern s.activeImage x ramp.stepPattern
     ((s.carrier x).state = .lowering ∧ (s.carrier x).level ≤ ramp.target + record.rampDown) ∨
     ((s.carrier x).state = .raising ∧ ramp.target ≤ (s.carrier x).level + record.rampUp)) →
    let now := max s.elapsed due
    let entered : CarrierState := match ramp.purpose with
      | .hold => .held
      | .reduce | .fault => .reduced
      | .level => .verifying
      | .full => if (s.carrier x).verifyRequired then .verifying else .normal
    ∃ u, exec (.rampTick x) s = .next u ∧ (u.carrier x).state = entered ∧ (u.carrier x).level = ramp.target ∧
      (u.carrier x).ramp = none ∧ (u.carrier x).rfInhibit = false ∧ u.active x = s.active x ∧
      u.stations.get x.peer = s.stations.get x.peer ∧ u.contactors = s.contactors ∧
      s.StayTurns x u ∧ (entered = .reduced → (u.carrier x).verifyRequired = true) ∧
      (entered = .normal → (u.carrier x).verifyRequired = false ∧
        ((s.carrier x).lastStatus = .out →
          (u.carrier x).holdTimer = some (now + Config.seconds (settings s.activeImage x).holdSeconds))) ∧
      (entered = .verifying → (u.carrier x).passCount = 0 ∧
        (u.carrier x).verifyTimer = some (now + Config.seconds (pattern s.activeImage x q).verifyTimeout) ∧
        ∀ i : TowerNo, (u.stations.get x).channels[i] = ⟨[], none, false, none, .unknown⟩) ∧
      (∀ t, s.transition = some t → t.station = x → t.phase = .restore →
        u.transition = if entered = .verifying then some { t with phase := .confirm } else none) ∧
      (∀ t, s.transition = some t → (t.station ≠ x ∨ t.phase ≠ .restore) → (t.station ≠ x ∨ t.phase ≠ .confirm) →
        u.transition = s.transition)

/-- RF_PRESENT_EVENT outside SWITCH and REVERSE (R85, R86, R88): the debounced value changes and mute confirmed of a HELD station
follows it; an event going active in HELD or DARK posts RF_WHILE_INHIBITED once for each entry. While a reset is held the input
gains no value. Two clauses are the model's choice: that a level which is already the value is no event (log entry 8), and that
every value taken through the start-up wait, the first and any later one, is taken without an event (log entry 7; R85 says it of
the first). -/
def Obligations.RfPresentFollowed : Prop :=
  ∀ (x : Station) (active : Bool) (s : State),
    (∀ kind, s.phase = .held kind → exec (.rfPresentEvent x active) s = .next s) ∧
    (∀ kind, s.phase = .starting kind → (s.carrier x).state = .dark →
      exec (.rfPresentEvent x active) s = .next (s.onCarrier x fun r => { r with rfPresent := some active })) ∧
    (s.phase = .running → (s.carrier x).rfPresent = some active → exec (.rfPresentEvent x active) s = .next s) ∧
    (s.phase = .running → (s.carrier x).rfPresent ≠ some active → s.Settled → s.Waiting →
      (∀ t, s.transition = some t → t.phase ≠ .switch ∧ t.phase ≠ .reverse) →
      (active = true →
        exec (.rfPresentEvent x active) s = .next
          (State.deliver
            (if (s.carrier x).rfInhibit && !(s.carrier x).rfNoticePosted then
              [(x, .rfWhileInhibited (s.carrier x).state s.clock)] else [])
            (s.onCarrier x fun r =>
              { r with
                rfPresent := some true
                muteConfirmed := if r.state = .held then false else r.muteConfirmed
                rfNoticePosted := r.rfNoticePosted || r.rfInhibit }))) ∧
      (active = false →
        (∀ t, s.transition = some t → t.phase = .quiesce →
          (∃ y, y ≠ x ∧ t.affected.get y = true ∧ (s.carrier y).quiet = false) ∨
          (t.affected.get x = true ∧ (s.carrier x).state ≠ .held)) →
        exec (.rfPresentEvent x active) s = .next
          (s.onCarrier x fun r =>
            { r with rfPresent := some false, muteConfirmed := if r.state = .held then true else r.muteConfirmed })))

/-- RF_PRESENT_EVENT going active in SWITCH or REVERSE on a station that a contactor of the move list carries, with a move in
progress (R43): the result RF_DURING_SWITCH is decided unless one already is, the move's stop flag is set so that no further
attempt begins, and every other WAITING entry becomes NOT_DONE; the pulse is not cut short. RF_WHILE_INHIBITED is not posted
in SWITCH to a station of the restore set (R88). -/
def Obligations.RfDisturbsSwitch : Prop :=
  ∀ (x : Station) (s : State) (t : Transition) (m : Move), s.phase = .running → (s.carrier x).rfPresent ≠ some true →
    s.transition = some t → (t.phase = .switch ∨ t.phase = .reverse) → s.driver = some m →
    t.moves.any (fun e => carries s.activeImage e.contactor x) = true →
    let posts := (s.carrier x).rfInhibit && !(s.carrier x).rfNoticePosted && !(t.phase == .switch && (t.entries.get x).isSome)
    exec (.rfPresentEvent x true) s = .next
      (State.deliver (if posts then [(x, .rfWhileInhibited (s.carrier x).state s.clock)] else [])
        (({ s with
            driver := some { m with stop := true }
            transition := some { t with
              result := some (t.result.getD .rfDuringSwitch)
              moves := t.moves.map fun e =>
                if e.outcome = .waiting ∧ e.contactor ≠ m.contactor then { e with outcome := .notDone } else e } } : State).onCarrier
          x fun r =>
            { r with
              rfPresent := some true
              muteConfirmed := if r.state = .held then false else r.muteConfirmed
              rfNoticePosted := r.rfNoticePosted || posts }))

/-- RF_PRESENT_EVENT going inactive on the last affected station that was not quiet ends QUIESCE (R36, R38, R56, R57, R58): the
mute timers of the affected stations stop, a last-state record with the marker set is handed, the phase becomes SWITCH, and with
the interlock's conditions met the first WAITING move is taken and its pulse begins. -/
def Obligations.QuiesceEndsInSwitch : Prop :=
  ∀ (x : Station) (s : State) (t : Transition) (e : MoveEntry), s.phase = .running →
    (s.carrier x).rfPresent ≠ some false → s.transition = some t → t.phase = .quiesce → t.affected.get x = true →
    (s.carrier x).state = .held → (∀ y, y ≠ x → t.affected.get y = true → (s.carrier y).quiet = true) →
    t.moves.find? (fun d => d.outcome == .waiting) = some e → s.contactors[e.contactor].state ≠ .failed →
    (∀ y, carries s.activeImage e.contactor y = true →
      (s.carrier y).rfInhibit = true ∧ (y ≠ x → (s.carrier y).rfPresent = some false)) →
    let store := s.work.handLastState true
    let live := s.contactors[e.contactor]
    let due := s.elapsed + Config.ms (contactorRecord s.activeImage e.contactor).pulse
    ∃ u, exec (.rfPresentEvent x false) s = .next u ∧ u.transition = some { t with phase := .switch } ∧
      u.driver = some ⟨e.contactor, live.position, e.toPos, 1, .pulsing, false, due⟩ ∧
      u.coil = some (e.contactor, e.toPos) ∧
      u.contactors = s.contactors.set e.contactor { live with state := .pulsing } ∧
      u.writing = store.writing ∧ u.writeQueue = store.writeQueue ∧ u.lastRecord = store.lastRecord ∧
      u.imageRecord = store.imageRecord ∧ u.ports = s.ports ∧ u.pendingList = s.pendingList ∧ u.elapsed = s.elapsed ∧
      ∀ y, (u.carrier y).state = (s.carrier y).state ∧ u.active y = s.active y ∧
        (t.affected.get y = true → (u.carrier y).muteTimer = none ∧ (u.carrier y).muteConfirmed = true) ∧
        (t.affected.get y = false → u.stations.get y = s.stations.get y)

/-- VERIFY_TIMER_EXPIRY in VERIFYING (R124, R81): VERIFY_FAILED, then a lower to reduce, LOWERING to a fault power below the level
and REDUCED at once at one equal to it; a requester in CONFIRM, with nothing else pending that would start at the same event,
ends COMPLETED_REDUCED. In another state the timer has no event, which is the model's choice (log entry 8). -/
def Obligations.VerifyTimerExpires : Prop :=
  ∀ (x : Station) (due : Nat) (q : PatternNo) (s : State), (s.carrier x).verifyTimer = some due →
    ((s.carrier x).state ≠ .verifying → exec (.verifyTimerExpiry x) s = .next s) ∧
    ((s.carrier x).state = .verifying → s.active x = some q →
      (∀ t, s.transition = some t → t.station = x → t.phase = .confirm → s.pendingList = []) →
      let record := pattern s.activeImage x q
      let r := s.carrier x
      record.fault ≤ r.level →
      let reduced := record.fault = r.level
      let ramp : Ramp := ⟨record.fault, .reduce, q⟩
      ∃ u, exec (.verifyTimerExpiry x) s = .next u ∧
        (u.carrier x).state = (if reduced then .reduced else .lowering) ∧ (u.carrier x).level = r.level ∧
        (u.carrier x).ramp = (if reduced then none else some ramp) ∧ (u.carrier x).verifyTimer = none ∧
        (u.carrier x).passCount = 0 ∧ u.active x = s.active x ∧ u.elapsed = max s.elapsed due ∧
        u.contactors = s.contactors ∧
        ((s.ports.get x).notices = [] →
          (u.ports.get x).notices.take 2 =
            [.verifyFailed (some q) r.passCount record.verifyCount r.lastStatus,
              .carrierState (if reduced then .reduced else .lowering) r.level (some q) (if reduced then none else some ramp)
                r.muteConfirmed (r.rfPresent == some true)]) ∧
        ((∀ t, s.transition = some t → ¬(t.station = x ∧ t.phase = .confirm)) → u.transition = s.transition) ∧
        ∀ t, s.transition = some t → t.station = x → t.phase = .confirm →
          u.transition = none ∧
          ((s.ports.get x).notices = [] →
            (u.ports.get x).notices.getLast? = some (.transitionEnded t.tag x t.target t.source
              (t.result.getD .completedReduced) (s.active .A) (s.active .B))))

/-- OUT_OF_TOLERANCE_HOLD_EXPIRY in NORMAL (R128, R81): OUT_OF_TOLERANCE with the hold and each monitored tower that is OUT,
then a lower to reduce. That the notice carries the hold of the active image as it stands at the expiry is the model's choice
(log entry 23), and so is that in another state the timer has no event (log entry 8). -/
def Obligations.OutOfToleranceExpires : Prop :=
  ∀ (x : Station) (due : Nat) (q : PatternNo) (s : State), (s.carrier x).holdTimer = some due →
    ((s.carrier x).state ≠ .normal → exec (.outOfToleranceHoldExpiry x) s = .next s) ∧
    ((s.carrier x).state = .normal → s.active x = some q →
      let record := pattern s.activeImage x q
      let r := s.carrier x
      record.fault ≤ r.level →
      let reduced := record.fault = r.level
      let ramp : Ramp := ⟨record.fault, .reduce, q⟩
      ∃ u out, exec (.outOfToleranceHoldExpiry x) s = .next u ∧
        (∀ i : TowerNo, out[i] = true ↔ i.val + 2 ≤ record.towers ∧ (s.stations.get x).channels[i].towerStatus = .out) ∧
        (u.carrier x).state = (if reduced then .reduced else .lowering) ∧ (u.carrier x).level = r.level ∧
        (u.carrier x).ramp = (if reduced then none else some ramp) ∧ (u.carrier x).holdTimer = none ∧
        u.active x = s.active x ∧ u.elapsed = max s.elapsed due ∧ u.contactors = s.contactors ∧
        u.transition = s.transition ∧ u.stations.get x.peer = s.stations.get x.peer ∧
        ((s.ports.get x).notices = [] →
          (u.ports.get x).notices.take 2 =
            [.outOfTolerance (some q) (settings s.activeImage x).holdSeconds out,
              .carrierState (if reduced then .reduced else .lowering) r.level (some q) (if reduced then none else some ramp)
                r.muteConfirmed (r.rfPresent == some true)]))

/-! ### The coil driver -/

/-- PULSE_TIME_END and the further attempt of SETTLE_TIME_END (R55, R57, R58, R59). The coil is on for the pulse time and no
longer, and the settle time follows; with no pulse in progress PULSE_TIME_END is no event, which is the model's choice (log entry
8). At the end of a settle, with the contactor still in its from position, a retry left and the stop flag clear, the attempt
number rises and the CHECK is made at once: it passes when every station that the contactor carries has RF inhibit asserted and RF
present inactive, and the pulse begins; else the move ends with no coil on and, nothing else being pending, the transition with
it (R38). -/
def Obligations.AttemptsRun : Prop :=
  ∀ (s : State) (m : Move), s.driver = some m →
    let k := m.contactor
    let was := s.contactors[k]
    let record := contactorRecord s.activeImage k
    let now := max s.elapsed m.due
    (m.phase = .pulsing →
      s.coil = some (k, m.toPos) ∧
      ∃ t, exec .pulseTimeEnd s = .next t ∧ t.coil = none ∧
        t = { s with
          elapsed := now
          driver := some { m with phase := .settling, due := now + Config.ms record.settle }
          contactors := s.contactors.set k { was with state := .settling } }) ∧
    (m.phase ≠ .pulsing → exec .pulseTimeEnd s = .next s ∧ s.coil = none) ∧
    (m.phase = .settling → s.aux[k].shows = some m.toPos.other → m.attempt ≤ record.retries → m.stop = false → s.Waiting →
      let ready (y : Station) : Prop := (s.carrier y).rfInhibit = true ∧ (s.carrier y).rfPresent = some false
      ((∀ y, carries s.activeImage k y = true → ready y) →
        exec .settleTimeEnd s = .next
          { s with
            elapsed := now
            driver := some { m with attempt := m.attempt + 1, phase := .pulsing, due := now + Config.ms record.pulse }
            contactors := s.contactors.set k ⟨was.position, .pulsing, .noFailure⟩ }) ∧
      ((∃ y, carries s.activeImage k y = true ∧ ¬ready y) → s.pendingList = [] →
        ∃ u, exec .settleTimeEnd s = .next u ∧ u.driver = none ∧ u.coil = none ∧ u.transition = none ∧
          u.contactors = s.contactors.set k ⟨was.position, .idle, .noFailure⟩))

/-- What SETTLE_TIME_END reads (R59): the live record by the combination the debounced contacts show, the retries left and the
stop flag, whatever the Transition Engine then does at the same event. The inputs themselves are only read. With no attempt in
its settle time the command is no event, which is the model's choice (log entry 8). -/
def Obligations.AttemptIsRead : Prop :=
  ∀ s : State,
    ((∀ m, s.driver = some m → m.phase ≠ .settling) → s.Waiting → exec .settleTimeEnd s = .next s) ∧
    ∀ m, s.driver = some m → m.phase = .settling →
      let k := m.contactor
      let was := s.contactors[k]
      ∃ t, exec .settleTimeEnd s = .next t ∧ t.elapsed = max s.elapsed m.due ∧ t.aux = s.aux ∧ t.image = s.image ∧
        (s.aux[k].shows = some m.toPos →
          t.contactors[k].position = some m.toPos ∧ t.contactors[k].failure = .noFailure ∧ t.contactors[k].state ≠ .failed) ∧
        (s.aux[k].shows = some m.toPos.other → m.attempt ≤ (contactorRecord s.activeImage k).retries →
          t.contactors[k].position = was.position ∧ t.contactors[k].failure = .noFailure ∧ t.contactors[k].state ≠ .failed) ∧
        (s.aux[k].shows = some m.toPos.other → (contactorRecord s.activeImage k).retries < m.attempt →
          t.contactors[k] = ⟨was.position, .failed, .stuck⟩) ∧
        (s.aux[k].shows = none → t.contactors[k] = ⟨none, .failed, .disagree⟩)

/-- A move of SWITCH that ends MOVED with no withdraw or disturbance taken (R38, R39, R56): the next WAITING move is commanded
at the same event and, with the interlock's conditions met, its pulse begins; behind the last one the requester takes the
target, loses its tower figures (R116) and raises to it, any other station of the restore set is raised back, and the phase is
RESTORE. -/
def Obligations.MoveIsMade : Prop :=
  ∀ (s : State) (m : Move) (t : Transition), s.driver = some m → m.phase = .settling → s.aux[m.contactor].shows = some m.toPos →
    s.transition = some t → t.phase = .switch → t.result = none → t.withdrawTaken = false →
    let k := m.contactor
    let now := max s.elapsed m.due
    let moves := t.moves.map fun e => if e.contactor = k then { e with outcome := .moved } else e
    let live := s.contactors.set k ⟨some m.toPos, .idle, .noFailure⟩
    (∀ e, moves.find? (fun d => d.outcome == .waiting) = some e → s.contactors[e.contactor].state ≠ .failed →
      (∀ y, carries s.activeImage e.contactor y = true →
        (s.carrier y).rfInhibit = true ∧ (s.carrier y).rfPresent = some false) →
      exec .settleTimeEnd s = .next
        { s with
          elapsed := now
          transition := some { t with moves := moves }
          driver := some ⟨e.contactor, s.contactors[e.contactor].position, e.toPos, 1, .pulsing, false,
            now + Config.ms (contactorRecord s.activeImage e.contactor).pulse⟩
          contactors := live.set e.contactor { s.contactors[e.contactor] with state := .pulsing } }) ∧
    ((∀ e ∈ moves, e.outcome ≠ .waiting) → (t.entries.get t.station).isSome = true →
      (s.carrier t.station).level < (pattern s.activeImage t.station t.target).power →
      ∃ u, exec .settleTimeEnd s = .next u ∧ u.driver = none ∧ u.contactors = live ∧
        u.transition = some { t with moves := moves, phase := .restore } ∧ u.active t.station = some t.target ∧
        (u.carrier t.station).state = .raising ∧ (u.carrier t.station).level = (s.carrier t.station).level ∧
        (u.carrier t.station).ramp = some ⟨(pattern s.activeImage t.station t.target).power, .full, t.target⟩ ∧
        (u.carrier t.station).verifyRequired = true ∧ s.Unjudged t.station u ∧ u.active t.station.peer = s.active t.station.peer ∧
        (t.entries.get t.station.peer = none → u.stations.get t.station.peer = s.stations.get t.station.peer) ∧
        ∀ q entry, t.entries.get t.station.peer = some entry → s.active t.station.peer = some q →
          (s.carrier t.station.peer).state ≠ .dark → entry.returnLevel = some .full →
          (s.carrier t.station.peer).level < (pattern s.activeImage t.station.peer q).power →
          (u.carrier t.station.peer).state = .raising ∧
          (u.carrier t.station.peer).ramp = some ⟨(pattern s.activeImage t.station.peer q).power, .full, q⟩)

/-- A move of SWITCH after which earlier moves are undone (R40, R41, R48, R59, R60, R61): one that ends STUCK or DISAGREE, with
its CONTACTOR_FAULT notices, and one that ends MOVED or STOPPED once a withdraw is taken. Every WAITING entry becomes NOT_DONE,
the phase is REVERSE with the cause, and the latest MOVED entry is commanded back at the same event with the full allowance of
attempts; with the interlock's conditions met its pulse begins. -/
def Obligations.ReversalBegins : Prop :=
  ∀ (s : State) (m : Move) (t : Transition) (e : MoveEntry) (after : Live) (written : EntryOutcome) (cause : ReversalCause)
      (faulty : Bool),
    s.driver = some m → m.phase = .settling → s.transition = some t → t.phase = .switch → t.result = none →
    let k := m.contactor
    let was := s.contactors[k]
    let retry := m.attempt ≤ (contactorRecord s.activeImage k).retries
    ((s.aux[k].shows = some m.toPos ∧ t.withdrawTaken = true ∧ after = ⟨some m.toPos, .idle, .noFailure⟩ ∧ written = .moved ∧
        cause = .withdraw ∧ faulty = false) ∨
      (s.aux[k].shows = some m.toPos.other ∧ retry ∧ m.stop = true ∧ after = ⟨was.position, .idle, .noFailure⟩ ∧
        written = .notDone ∧ cause = .withdraw ∧ faulty = false) ∨
      (s.aux[k].shows = some m.toPos.other ∧ ¬retry ∧ after = ⟨was.position, .failed, .stuck⟩ ∧ written = .stuck ∧
        cause = .fault ∧ faulty = true) ∨
      (s.aux[k].shows = none ∧ after = ⟨none, .failed, .disagree⟩ ∧ written = .disagree ∧ cause = .fault ∧ faulty = true)) →
    let moves := t.moves.map fun d =>
      if d.contactor = k then { d with outcome := written }
      else if d.outcome = .waiting then { d with outcome := .notDone } else d
    let live := s.contactors.set k after
    let now := max s.elapsed m.due
    moves.reverse.find? (fun d => d.outcome == .moved) = some e → live[e.contactor].state ≠ .failed →
    (∀ y, carries s.activeImage e.contactor y = true → (s.carrier y).rfInhibit = true ∧ (s.carrier y).rfPresent = some false) →
    exec .settleTimeEnd s = .next
      (State.deliver
        (if faulty then (carrierSet s.activeImage k).members.map fun y => (y, .contactorFault k after .move) else [])
        { s with
          elapsed := now
          transition := some { t with phase := .reverse, cause := some cause, moves := moves }
          driver := some ⟨e.contactor, live[e.contactor].position, e.fromPos.getD e.toPos.other, 1, .pulsing, false,
            now + Config.ms (contactorRecord s.activeImage e.contactor).pulse⟩
          contactors := live.set e.contactor { live[e.contactor] with state := .pulsing } })

/-- SETTLE_TIME_END in or before a reversal that goes on or ends (R38, R40, R41, R42, R45, R48, R50, R60). A reversal that
succeeds is followed at the same event by the next, of the latest MOVED entry, with the interlock's conditions met. One that
ends STUCK or DISAGREE is followed by the resolution of every station of the restore set and the end SWITCH_FAULT_DARK. When no
MOVED entry is left, behind a reversal that succeeds as behind a first fault or a withdraw with nothing moved, the reversal is
complete: with every active map of the restore set satisfied each station is raised back, the result, WITHDRAWN or
SWITCH_FAULT_REVERTED by the cause, is decided, and the phase is RESTORE, or the transition ends at once with a requester in
DARK or at its fault power; with a map unsatisfied its station is resolved, the others are raised back, and the transition ends
SWITCH_FAULT_DARK. That CONTACTOR_FAULT goes ahead of the other notices of the event is the model's choice (log entry 21). -/
def Obligations.ReversalEnds : Prop :=
  ∀ (s : State) (m : Move) (t : Transition), s.driver = some m → m.phase = .settling → s.transition = some t → t.result = none →
    let k := m.contactor
    let was := s.contactors[k]
    let retry := m.attempt ≤ (contactorRecord s.activeImage k).retries
    let now := max s.elapsed m.due
    let reached : Live := ⟨some m.toPos, .idle, .noFailure⟩
    let stuck : Live := ⟨was.position, .failed, .stuck⟩
    let split : Live := ⟨none, .failed, .disagree⟩
    let last (u : State) (result : Result) : Prop := (s.ports.get t.station).notices.length ≤ 8 →
      (u.ports.get t.station).notices.getLast? =
        some (.transitionEnded t.tag t.station t.target t.source result (u.active .A) (u.active .B))
    let told (u : State) (after : Live) : Prop := ∀ y, carries s.activeImage k y = true → (s.ports.get y).notices = [] →
      (u.ports.get y).notices.head? = some (.contactorFault k after .move)
    (∀ e side, t.phase = .reverse → s.aux[k].shows = some m.toPos →
      let moves := t.moves.map fun d => if d.contactor = k then { d with outcome := .notDone } else d
      let live := s.contactors.set k reached
      moves.reverse.find? (fun d => d.outcome == .moved) = some e → e.fromPos = some side → live[e.contactor].state ≠ .failed →
      (∀ y, carries s.activeImage e.contactor y = true →
        (s.carrier y).rfInhibit = true ∧ (s.carrier y).rfPresent = some false) →
      exec .settleTimeEnd s = .next
        { s with
          elapsed := now
          transition := some { t with moves := moves }
          driver := some ⟨e.contactor, live[e.contactor].position, side, 1, .pulsing, false,
            now + Config.ms (contactorRecord s.activeImage e.contactor).pulse⟩
          contactors := live.set e.contactor { live[e.contactor] with state := .pulsing } }) ∧
    (∀ after, t.phase = .reverse →
      ((s.aux[k].shows = some m.toPos.other ∧ ¬retry ∧ after = stuck) ∨ (s.aux[k].shows = none ∧ after = split)) →
      s.pendingList = [] →
      ∃ u, exec .settleTimeEnd s = .next u ∧ u.driver = none ∧ u.coil = none ∧ u.transition = none ∧
        u.contactors = s.contactors.set k after ∧ told u after ∧ last u .switchFaultDark ∧
        ∀ y, (t.restores y = true → s.ResolvedBy t y u) ∧ (t.restores y = false → u.stations.get y = s.stations.get y)) ∧
    ∀ (after : Live) (written : EntryOutcome) (cause : Option ReversalCause),
      ((t.phase = .reverse ∧ s.aux[k].shows = some m.toPos ∧ after = reached ∧ written = .notDone ∧ cause = t.cause) ∨
        (t.phase = .switch ∧ s.aux[k].shows = some m.toPos.other ∧ retry ∧ m.stop = true ∧
          after = ⟨was.position, .idle, .noFailure⟩ ∧ written = .notDone ∧ cause = some .withdraw) ∨
        (t.phase = .switch ∧ s.aux[k].shows = some m.toPos.other ∧ ¬retry ∧ after = stuck ∧ written = .stuck ∧
          cause = some .fault) ∨
        (t.phase = .switch ∧ s.aux[k].shows = none ∧ after = split ∧ written = .disagree ∧ cause = some .fault)) →
      let moves := t.moves.map fun d =>
        if d.contactor = k then { d with outcome := written }
        else if t.phase = .switch ∧ d.outcome = .waiting then { d with outcome := .notDone } else d
      (∀ d ∈ moves, d.outcome ≠ .moved) →
      let live := s.contactors.set k after
      let kept (y : Station) : Prop := ∀ q, s.active y = some q → satisfied s.activeImage live y q = true
      let result : Result := if cause = some .fault then .switchFaultReverted else .withdrawn
      let requester := s.carrier t.station
      let faultOf (q : PatternNo) : Nat := (pattern s.activeImage t.station q).fault
      ((∀ y, t.restores y = true → kept y) →
        (∀ q, s.active t.station = some q → t.restores t.station = true → requester.state ≠ .dark →
          ((t.returnLevel t.station = some .full ∧ requester.level < (pattern s.activeImage t.station q).power) ∨
            (t.returnLevel t.station = some .fault ∧ requester.level < faultOf q)) →
          ∃ u, exec .settleTimeEnd s = .next u ∧ u.driver = none ∧ u.coil = none ∧ u.contactors = live ∧
            u.transition = some { t with moves := moves, phase := .restore, cause := cause, result := some result } ∧
            (after.state = .failed → told u after) ∧
            ∀ y, (t.restores y = true → s.RaisedBack t y u) ∧ (t.restores y = false → u.stations.get y = s.stations.get y)) ∧
        (requester.state = .dark ∨ (∃ q, s.active t.station = some q ∧ t.restores t.station = true ∧
            t.returnLevel t.station = some .fault ∧ requester.level = faultOf q) → s.pendingList = [] →
          ∃ u, exec .settleTimeEnd s = .next u ∧ u.driver = none ∧ u.coil = none ∧ u.contactors = live ∧
            u.transition = none ∧ last u result ∧ (after.state = .failed → told u after) ∧
            (requester.state = .dark → (u.carrier t.station).state = .dark) ∧
            ∀ y, (t.restores y = true → s.RaisedBack t y u) ∧
              (t.restores y = false → u.stations.get y = s.stations.get y))) ∧
      (¬(∀ y, t.restores y = true → kept y) → s.pendingList = [] →
        ∃ u, exec .settleTimeEnd s = .next u ∧ u.driver = none ∧ u.coil = none ∧ u.contactors = live ∧ u.transition = none ∧
          last u .switchFaultDark ∧ (after.state = .failed → told u after) ∧
          ∀ y, (t.restores y = true → ¬kept y → s.ResolvedBy t y u) ∧ (t.restores y = true → kept y → s.RaisedBack t y u) ∧
            (t.restores y = false → u.stations.get y = s.stations.get y))

/-- The attempt that was in progress when a disturbance decided the result ends without a further attempt (R43, R44, R49): every
station of the restore set is resolved against the positions as they stand, a requester preferring the target and then each
station its pattern at PLAN, then the lowest number; a station without a candidate goes DARK; a pattern given or taken
takes the tower figures with it (R116); the driver holds no move, no coil
is on, and the transition ends. Nothing else is pending. -/
def Obligations.ResolutionEndsTheSwitch : Prop :=
  ∀ (s : State) (m : Move) (t : Transition) (result : Result), s.driver = some m → m.phase = .settling → m.stop = true →
    s.transition = some t → (t.phase = .switch ∨ t.phase = .reverse) → t.result = some result → s.pendingList = [] →
    ∃ u, exec .settleTimeEnd s = .next u ∧ u.driver = none ∧ u.coil = none ∧ u.transition = none ∧
      (∀ k : ContactorNo, k ≠ m.contactor → u.contactors[k] = s.contactors[k]) ∧
      ((s.ports.get t.station).notices.length ≤ 8 →
        (u.ports.get t.station).notices.getLast? =
          some (.transitionEnded t.tag t.station t.target t.source result (u.active .A) (u.active .B))) ∧
      ∀ y,
        let candidate (q : PatternNo) : Prop :=
          (pattern s.activeImage y q).inUse = true ∧ satisfied s.activeImage u.contactors y q = true
        let atPlan := (t.entries.get y).bind fun e => e.patternAtPlan
        (t.entries.get y = none → u.active y = s.active y ∧ u.carrier y = s.carrier y) ∧
        ((t.entries.get y).isSome = true →
          (u.active y = none ↔ ∀ q, ¬candidate q) ∧
          (u.active y = none → (u.carrier y).state = .dark ∧ (u.carrier y).level = (if (s.carrier y).state = .dark then
            (s.carrier y).level else 0) ∧ ((s.carrier y).state ≠ .dark → s.Unjudged y u)) ∧
          ∀ q, u.active y = some q → candidate q ∧
            (y = t.station → candidate t.target → q = t.target) ∧
            (¬(y = t.station ∧ candidate t.target) → ∀ p, atPlan = some p → candidate p → q = p) ∧
            (¬(y = t.station ∧ candidate t.target) → (∀ p, atPlan = some p → ¬candidate p) → ∀ p, candidate p → q ≤ p) ∧
            ((s.carrier y).level < (pattern s.activeImage y q).power →
              (u.carrier y).state = .raising ∧ (u.carrier y).ramp = some ⟨(pattern s.activeImage y q).power, .full, q⟩ ∧
              s.Unjudged y u))

/-! ### The auxiliary contacts -/

/-- DEBOUNCE_EVENT (R53, R54, R2, R7): a contactor index outside 1–16 is no event of the part and stops as a fault, which is the
model's choice (log entry 14). While a reset is held no value is gained; through the start-up wait values are gained and every
position follows them. Then: a level that changes no value is no event, which is the model's choice (log entry 8); a contactor not
in use follows its contacts; the moving contactor, and one FAILED with DISAGREE, keep their records; and any other event is
unexpected movement, which with no active map broken and no transition active changes the record and posts CONTACTOR_FAULT to
the contactor's stations (R62, R64). -/
def Obligations.DebounceJudged : Prop :=
  ∀ (index : Nat) (made0 made1 : Option Bool) (s : State),
    (index = 0 ∨ 17 ≤ index → exec (.debounceEvent index made0 made1) s = .fault .noSuchContactor) ∧
    ∀ k : ContactorNo, index = k.val + 1 →
      let value : Aux := ⟨made0.or s.aux[k].made0, made1.or s.aux[k].made1⟩
      let aux := s.aux.set k value
      let inUse := (contactorRecord s.activeImage k).inUse
      let live : Live := match value.shows with
        | some side => { s.contactors[k] with position := some side }
        | none => ⟨none, .failed, .disagree⟩
      (∀ kind, s.phase = .held kind → exec (.debounceEvent index made0 made1) s = .next s) ∧
      (∀ kind, s.phase = .starting kind →
        exec (.debounceEvent index made0 made1) s = .next
          { s with aux := aux, contactors := s.contactors.set k ⟨value.shows, .idle, .noFailure⟩ }) ∧
      (s.phase = .running → value = s.aux[k] → exec (.debounceEvent index made0 made1) s = .next s) ∧
      (s.phase = .running → value ≠ s.aux[k] → s.Waiting →
        (inUse = false →
          exec (.debounceEvent index made0 made1) s = .next
            { s with aux := aux, contactors := s.contactors.set k ⟨value.shows, .idle, .noFailure⟩ }) ∧
        (inUse = true → ((∃ m, s.driver = some m ∧ m.contactor = k) ∨ s.contactors[k].failure = .disagree) →
          exec (.debounceEvent index made0 made1) s = .next { s with aux := aux }) ∧
        (inUse = true → (∀ m, s.driver = some m → m.contactor ≠ k) → s.contactors[k].failure ≠ .disagree →
          s.transition = none →
          (∀ x q, s.active x = some q → satisfied s.activeImage s.contactors x q = true →
            satisfied s.activeImage (s.contactors.set k live) x q = true) →
          exec (.debounceEvent index made0 made1) s = .next
            (State.deliver ((carrierSet s.activeImage k).members.map fun y => (y, .contactorFault k live .unexpected))
              { s with aux := aux, contactors := s.contactors.set k live })))

/-- Unexpected movement (R62, R63, R64, R34, R37, R44, R51, R65): each station whose active map was satisfied before and is not
after goes DARK at the event, off the air at level 0 with RF inhibit asserted, no active pattern and no tower figures (R116),
and any other station stays as it is while no transition raises it. In CONSENT_WAIT the transition then ends ARRAY_DISTURBED
with CONSENT_WITHDRAWN to the peer; in QUIESCE it ends ARRAY_DISTURBED and every affected station that kept its map is raised
back; and in SWITCH and REVERSE with a move in progress the result ARRAY_DISTURBED is decided unless one is, and the move's stop
flag set; that a WAITING entry of the disturbed contactor itself becomes NOT_DONE with the others is the model's choice (log
entry 36). -/
def Obligations.MovementBreaksMaps : Prop :=
  ∀ (k : ContactorNo) (made0 made1 : Option Bool) (s : State), s.phase = .running → s.Waiting →
    let value : Aux := ⟨made0.or s.aux[k].made0, made1.or s.aux[k].made1⟩
    let live : Live := match value.shows with
      | some side => { s.contactors[k] with position := some side }
      | none => ⟨none, .failed, .disagree⟩
    let contactors := s.contactors.set k live
    value ≠ s.aux[k] → (contactorRecord s.activeImage k).inUse = true → (∀ m, s.driver = some m → m.contactor ≠ k) →
    s.contactors[k].failure ≠ .disagree →
    (∀ t, s.transition = some t → (t.phase = .consentWait ∨ t.phase = .quiesce → s.pendingList = []) ∧
      (t.phase = .switch ∨ t.phase = .reverse → s.driver ≠ none) ∧ (t.phase = .restore ∨ t.phase = .confirm → s.pendingList = [])) →
    let broken (x : Station) : Prop := ∃ q, s.active x = some q ∧ satisfied s.activeImage s.contactors x q = true ∧
      satisfied s.activeImage contactors x q = false
    ∃ u, exec (.debounceEvent (k.val + 1) made0 made1) s = .next u ∧ u.contactors = contactors ∧ u.aux = s.aux.set k value ∧
      (∀ x, broken x → u.active x = none ∧ (u.carrier x).state = .dark ∧ (u.carrier x).rfInhibit = true ∧
        ((s.carrier x).state ≠ .dark → (u.carrier x).level = 0 ∧ (u.carrier x).ramp = none ∧ (u.carrier x).muteTimer = none ∧
          (u.carrier x).verifyRequired = true ∧ s.Unjudged x u)) ∧
      (∀ x, ¬broken x → (∀ t, s.transition = some t → t.phase = .quiesce → t.affected.get x = false) →
        u.stations.get x = s.stations.get x) ∧
      (∀ t, s.transition = some t → t.phase = .consentWait ∨ t.phase = .quiesce →
        u.transition = none ∧ u.consentTimer = none ∧ u.deferTimer = none ∧
        ((s.ports.get t.station).notices.length ≤ 10 →
          Notice.transitionEnded t.tag t.station t.target t.source .arrayDisturbed (u.active .A) (u.active .B) ∈
            (u.ports.get t.station).notices) ∧
        (t.phase = .consentWait → (s.ports.get t.station.peer).notices.length ≤ 10 →
          Notice.consentWithdrawn t.tag ∈ (u.ports.get t.station.peer).notices) ∧
        (t.phase = .quiesce → ∀ y, t.affected.get y = true → ¬broken y → s.RaisedBack t y u)) ∧
      (∀ t, s.transition = some t → (t.phase = .restore ∨ t.phase = .confirm) → broken t.station → u.transition = none) ∧
      ∀ t m, s.transition = some t → (t.phase = .switch ∨ t.phase = .reverse) → s.driver = some m →
        u.driver = some { m with stop := true } ∧
        u.transition = some { t with
          result := some (t.result.getD .arrayDisturbed)
          moves := t.moves.map fun e =>
            if e.outcome = .waiting ∧ e.contactor ≠ m.contactor then { e with outcome := .notDone } else e }

/-! ### Measurement -/

/-- MEASUREMENT_COMPLETION (R92 to R100, R106, R107, R111, R112, R122, R123, R127, R131, R46), with nothing else pending. A
measurement whose scan stay is over is dropped whole. A kept one writes the reference record; a NO_REF or PHASE_INVALID one goes
no further than the array status; a valid sample joins its window, which keeps the eight newest, reloads its stale timer, and
brings an evaluation: each tower of the active pattern has the figures of its newest samples, as many as the average window at
most (`Obligations.FiguresJudged`), and the worse of its two quantity statuses, and without a sample no figures and UNKNOWN. The
evaluation's status starts, keeps or stops the hold timer of a NORMAL station, posts ARRAY_STATUS when it differs from the
notified one, and counts a pass of a VERIFYING station, which at the verify count is NORMAL with CARRIER_STATE and VERIFIED, a
requester in CONFIRM ending the transition COMPLETED. The scan list is then recomputed and the next measurement begins
(`State.ScanRestarts`). The counts are those the phase timer makes of the crossings (R93, `Obligations.SampleMeasures`). With no
measurement in progress the command is no event, which is the model's choice (log entry 8), and so is the sorting by the
corrected amplitude of a raw reference code of 0 (log entry 35). -/
def Obligations.MeasurementCompletes : Prop :=
  ∀ (rawReference rawTower : Nat) (crossings towerCrossings : List Nat) (s : State),
    (s.measurement = none → exec (.measurementCompletion rawReference rawTower crossings towerCrossings) s = .next s) ∧
    ∀ m : Measurement, s.measurement = some m → s.pendingList = [] →
      let x := m.entry.station
      let i := m.entry.tower
      let now := max s.elapsed m.due
      let kept := (s.carrier x).state.measured = true ∧ (s.stations.get x).scanStay = m.stay
      let reference := min 4095 (((min 4095 rawReference : Nat) : Int) - m.referenceTrim).toNat
      let tower := min 4095 (((min 4095 rawTower : Nat) : Int) - m.towerTrim).toNat
      let period := periodCount crossings
      let delay := delayCount crossings towerCrossings
      let phaseOk := 6080 ≤ period ∧ period ≤ 6720 ∧ delay < period
      ∃ u, exec (.measurementCompletion rawReference rawTower crossings towerCrossings) s = .next u ∧ u.elapsed = now ∧
        u.contactors = s.contactors ∧ u.stations.get x.peer = s.stations.get x.peer ∧ (∀ y, u.active y = s.active y) ∧
        u.activeImage = s.activeImage ∧ u.ScanRestarts s.lastEntry ∧
        (¬kept → u.stations.get x = s.stations.get x ∧ u.transition = s.transition) ∧
        (kept → (u.stations.get x).reference = ⟨reference, decide (m.floor ≤ reference)⟩ ∧
          (u.stations.get x).channels.toList.map (fun c => c.window) =
            (s.stations.get x).channels.toList.mapIdx fun j c =>
              if j = i.val ∧ m.floor ≤ reference ∧ phaseOk then
                (let grown := c.window ++ [⟨sampleRatio reference tower, samplePhase period delay⟩]
                 if 8 < grown.length then grown.tail else grown)
              else c.window) ∧
        (kept → reference < m.floor → (u.stations.get x).arrayStatus = .unknown ∧
          ((s.stations.get x).arrayStatus ≠ .unknown → (u.carrier x).lastStatus = .unknown ∧
            ((s.carrier x).state = .normal → (u.carrier x).holdTimer = none))) ∧
        (kept → m.floor ≤ reference → phaseOk →
          (u.stations.get x).channels[i].stale = false ∧
          (u.stations.get x).channels[i].staleTimer = some (now + Config.seconds (settings s.activeImage x).staleTime) ∧
          (∀ j : TowerNo, j ≠ i → (u.stations.get x).channels[j].stale = (s.stations.get x).channels[j].stale ∧
            (u.stations.get x).channels[j].staleTimer = (s.stations.get x).channels[j].staleTimer) ∧
          ∀ q, s.active x = some q →
            let tower (j : TowerNo) : Status := (u.stations.get x).channels[j].towerStatus
            let record := pattern s.activeImage x q
            (∀ j : TowerNo,
              let ch := (u.stations.get x).channels[j]
              let f := figuresOf (towerParameters s.activeImage x q j) record.advisory (ch.window.reverse.take record.window).reverse
              (j.val + 2 ≤ record.towers → ch.window ≠ [] → ch.figures = some f ∧
                ch.towerStatus = if f.ratioStatus = .out ∨ f.phaseStatus = .out then .out
                  else if f.ratioStatus = .advisory ∨ f.phaseStatus = .advisory then .advisory else .inTolerance) ∧
              (j.val + 2 ≤ record.towers → ch.window = [] → ch.figures = none ∧ ch.towerStatus = .unknown) ∧
              (record.towers < j.val + 2 → ch.figures = (s.stations.get x).channels[j].figures ∧
                ch.towerStatus = (s.stations.get x).channels[j].towerStatus)) ∧
            let some? (st : Status) : Prop := ∃ j : TowerNo, j.val + 2 ≤ record.towers ∧ tower j = st
            ((u.stations.get x).arrayStatus = .out ↔ some? .out) ∧
            ((u.stations.get x).arrayStatus = .unknown ↔ ¬some? .out ∧ some? .unknown) ∧
            ((u.stations.get x).arrayStatus = .advisory ↔ ¬some? .out ∧ ¬some? .unknown ∧ some? .advisory) ∧
            let new := (u.stations.get x).arrayStatus
            let noticed : List Notice := if new = (s.carrier x).notifiedStatus then [] else
              [.arrayStatus (some q) new (s.carrier x).notifiedStatus
                (Vector.ofFn fun j : TowerNo => (u.stations.get x).channels[j].towerStatus)]
            (u.carrier x).lastStatus = new ∧ (u.carrier x).notifiedStatus = new ∧
            ((s.carrier x).state = .normal →
              (new = .out → (s.carrier x).lastStatus ≠ .out →
                (u.carrier x).holdTimer = some (now + Config.seconds (settings s.activeImage x).holdSeconds)) ∧
              (new = .out → (s.carrier x).lastStatus = .out → (u.carrier x).holdTimer = (s.carrier x).holdTimer) ∧
              (new ≠ .out → (u.carrier x).holdTimer = none)) ∧
            (s.transition = none → (s.carrier x).state ≠ .verifying → (s.ports.get x).notices = [] →
              (u.ports.get x).notices = noticed) ∧
            ((s.carrier x).state = .verifying →
              let passes := match (u.stations.get x).arrayStatus with
                | .inTolerance | .advisory => (s.carrier x).passCount + 1
                | .unknown => (s.carrier x).passCount
                | .out => 0
              (passes < record.verifyCount → (u.carrier x).state = .verifying ∧ (u.carrier x).passCount = passes ∧
                (u.carrier x).verifyTimer = (s.carrier x).verifyTimer) ∧
              (record.verifyCount ≤ passes → (u.carrier x).state = .normal ∧ (u.carrier x).passCount = 0 ∧
                (u.carrier x).verifyTimer = none ∧ (u.carrier x).verifyRequired = false ∧
                let verified := noticed ++
                  [.carrierState .normal (s.carrier x).level (some q) none (s.carrier x).muteConfirmed
                      ((s.carrier x).rfPresent == some true),
                    .verified (some q) record.verifyCount ((now - (s.carrier x).verifyEntered) / Config.seconds 1)]
                ((s.ports.get x).notices = [] → s.transition = none → (u.ports.get x).notices = verified) ∧
                ∀ t, s.transition = some t → t.station = x → t.phase = .confirm →
                  u.transition = none ∧
                  ((s.ports.get x).notices = [] → (u.ports.get x).notices = verified ++
                    [.transitionEnded t.tag x t.target t.source (t.result.getD .completed) (s.active .A) (s.active .B)])))) ∧
        (s.Settled → (∀ t, s.transition = some t → ¬(t.station = x ∧ t.phase = .confirm ∧ (u.carrier x).state = .normal)) →
          u.transition = s.transition)

/-- STALE_TIMER_EXPIRY (R114, R112, R127): the channel's window is emptied, its figures are absent, its status UNKNOWN and its
stale flag yes, the array status follows, and a NORMAL station whose status leaves OUT stops its hold timer. Two clauses are the
model's choice: a tower outside 2–6 is no channel and stops as a fault (log entry 14), and the expiry of a timer that is stopped
is no event (log entry 8). -/
def Obligations.StaleTimerExpires : Prop :=
  ∀ (x : Station) (tower : Nat) (s : State),
    (tower ≤ 1 ∨ 7 ≤ tower → exec (.staleTimerExpiry x tower) s = .fault .noSuchChannel) ∧
    ∀ i : TowerNo, tower = i.val + 2 →
      ((s.stations.get x).channels[i].staleTimer = none → exec (.staleTimerExpiry x tower) s = .next s) ∧
      ∀ due, (s.stations.get x).channels[i].staleTimer = some due →
        ∃ u, exec (.staleTimerExpiry x tower) s = .next u ∧ u.elapsed = max s.elapsed due ∧
          (u.stations.get x).channels = (s.stations.get x).channels.set i ⟨[], none, true, none, .unknown⟩ ∧
          u.active x = s.active x ∧ (u.carrier x).state = (s.carrier x).state ∧ (u.carrier x).level = (s.carrier x).level ∧
          (u.carrier x).ramp = (s.carrier x).ramp ∧ u.stations.get x.peer = s.stations.get x.peer ∧
          u.contactors = s.contactors ∧ u.transition = s.transition ∧ u.ports.get x.peer = s.ports.get x.peer ∧
          ∀ q, s.active x = some q → i.val + 2 ≤ (pattern s.activeImage x q).towers →
            ((∀ j : TowerNo, j ≠ i → (s.stations.get x).channels[j].towerStatus ≠ .out) ∨
              (s.stations.get x).reference.present = false) →
            (u.stations.get x).arrayStatus = .unknown ∧
            ((s.stations.get x).arrayStatus ≠ .unknown → (u.carrier x).lastStatus = .unknown ∧
              ((s.carrier x).state = .normal → (u.carrier x).holdTimer = none))

/-! ### The site clock and the schedule -/

/-- SITE_CLOCK_TICK and MINUTE_TICK (R133, R139, R140, R144): the tick carries the reading through second, minute, hour, day and
year, and past the last second of 2099 the clock is invalid. A tick that brings the second to 0 is a minute tick: with an active
image each retry hold above 0 goes down by 1 and each override is tested, and with neither station on AUTO nothing is fired.
That SITE_CLOCK_TICK and MINUTE_TICK are two names of that one tick, the first making the schedule evaluation as the second
does, is the model's choice (log entry 16), and so is that MINUTE_TICK before another tick, and either with the clock invalid,
is no event (log entry 8). -/
def Obligations.ClockTicks : Prop :=
  ∀ s : State,
    (s.clock = none → exec .siteClockTick s = .next s ∧ exec .minuteTick s = .next s) ∧
    ∀ r due, s.clock = some r → s.clockTimer = some due → r.valid = true →
      let now := max s.elapsed due
      let on (n : Reading) : State := { s with elapsed := now, clock := some n, clockTimer := some (due + Config.seconds 1) }
      let next : Reading :=
        if r.minute < 59 then ⟨r.year, r.day, r.hour, r.minute + 1, 0⟩
        else if r.hour < 23 then ⟨r.year, r.day, r.hour + 1, 0, 0⟩
        else if r.day < (if r.year % 4 = 0 then 366 else 365) then ⟨r.year, r.day + 1, 0, 0, 0⟩
        else ⟨r.year + 1, 1, 0, 0, 0⟩
      let last := r.year = 2099 ∧ r.day = 365 ∧ r.hour = 23 ∧ r.minute = 59 ∧ r.second = 59
      let present (x : Station) : Recorded := match determining s.activeImage x next with
        | some d => .occurrence d.2
        | none => .noOccurrence
      let tested (x : Station) : Override := match s.override.get x with
        | .clear => .clear
        | .set .unknown => .set (present x)
        | .set recorded => if recorded = present x then .set recorded else .clear
      (r.second < 59 →
        exec .siteClockTick s = .next (on ⟨r.year, r.day, r.hour, r.minute, r.second + 1⟩) ∧ exec .minuteTick s = .next s) ∧
      (last → exec .siteClockTick s = .next { s with elapsed := now, clock := none, clockTimer := none } ∧
        exec .minuteTick s = .next s) ∧
      (r.second = 59 → ¬last → exec .minuteTick s = exec .siteClockTick s ∧ next.valid = true) ∧
      (r.second = 59 → ¬last → s.image = none → exec .minuteTick s = .next (on next)) ∧
      (r.second = 59 → ¬last → s.image ≠ none → (∀ x, s.schedulePolicy.get x ≠ some .auto) →
        exec .minuteTick s = .next
          { on next with
            retryHold := ⟨s.retryHold.a - 1, s.retryHold.b - 1⟩
            override := ⟨tested .A, tested .B⟩ })

/-- A minute tick that fires for a station on AUTO (R138, R139, R141, R23), its peer not on AUTO and the head of the pending
list not able to start: with the override clear, the station not DARK, its retry hold down to 0, nothing of its own active or
pending and the expected pattern other than its active one, a SCHEDULE request is accepted, joins the pending list with its tag,
and SCHEDULE_REQUEST is posted; the override stays clear. -/
def Obligations.ScheduleFires : Prop :=
  ∀ (x : Station) (s : State) (m : Memory) (r n : Reading) (due : Nat) (e : Fin 24) (o : Occurrence) (q : PatternNo),
    s.clock = some r → s.clockTimer = some due → r.tick = some n → n.second = 0 → s.image = some m →
    s.schedulePolicy.get x = some .auto → s.schedulePolicy.get x.peer ≠ some .auto → s.override.get x = .clear →
    s.override.get x.peer = .clear → (s.carrier x).state ≠ .dark → s.owns x = false → s.pendingOf x = none →
    s.retryHold.get x ≤ 1 → determining m x n = some (e, o) → (scheduleEntry m x e).target = q.val + 1 →
    (pattern m x q).inUse = true → s.active x ≠ some q → s.canStart = false →
    exec .minuteTick s = .next
      (State.deliver [(x, .scheduleRequest s.tagToGive q o)]
        { s with
          elapsed := max s.elapsed due
          clock := some n
          clockTimer := some (due + Config.seconds 1)
          retryHold := ⟨s.retryHold.a - 1, s.retryHold.b - 1⟩
          tagCounter := nextTag s.tagToGive
          pendingList := s.pendingList ++ [⟨s.tagToGive, x, q, .schedule⟩] })

/-- The determining occurrence (R137, R138): the latest of the in-use entries whose day range contains today and whose minute is
at or below the present one, with today's date; without one, the latest of those whose range contains yesterday, with
yesterday's. -/
def Obligations.DeterminingIsLatest : Prop :=
  ∀ (m : Memory) (x : Station) (r : Reading),
    let entry (e : Fin 24) : ScheduleEntry := scheduleEntry m x e
    let contains (e : Fin 24) (day : Nat) : Prop := (entry e).target ≠ 0 ∧
      (if (entry e).firstDay ≤ (entry e).lastDay then (entry e).firstDay ≤ day ∧ day ≤ (entry e).lastDay
        else (entry e).firstDay ≤ day ∨ day ≤ (entry e).lastDay)
    let dueToday (e : Fin 24) : Prop := contains e r.day ∧ (entry e).minute ≤ 60 * r.hour + r.minute
    let yesterday : Nat × Nat := if 1 < r.day then (r.year, r.day - 1)
      else (r.year - 1, if (r.year - 1) % 4 = 0 then 366 else 365)
    (determining m x r = none ↔ (∀ e, ¬dueToday e) ∧ ∀ e, ¬contains e yesterday.2) ∧
    ∀ e o, determining m x r = some (e, o) → o.entry = e.val + 1 ∧
      ((o.year = r.year ∧ o.day = r.day ∧ dueToday e ∧ ∀ d, dueToday d → (entry d).minute ≤ (entry e).minute) ∨
        ((o.year, o.day) = yesterday ∧ (∀ d, ¬dueToday d) ∧ contains e yesterday.2 ∧
          ∀ d, contains d yesterday.2 → (entry d).minute ≤ (entry e).minute))

/-! ### The retained store and the load -/

/-- The store's own events (R148, R152, R25, R38, R50): a load idle expiry frees the slot and posts LOAD_EXPIRED to its holder;
a write completes with its record VALID and its content, and the oldest waiting write then starts, its record TORN from then on.
At the completion of an image write, with no transition active and no other image write pending, the head of the pending list
leaves it and starts; with its target's map satisfied and no conflict it is a level change. A last-state record handed at any
event (`Work.handLastState`; R50, and with the marker set at entry to SWITCH, R38) holds each station's active pattern and the
marker: an idle store begins its write, a waiting record is replaced in its place, and otherwise it waits behind the write
begun. A completion of the other kind of write, or of none, and the expiry of a stopped timer are no events, which is the
model's choice (log entry 8), and so is that TRANSITION_STARTED goes ahead of the CARRIER_STATE of the same event (log entry
21). -/
def Obligations.StoreEvents : Prop :=
  ∀ (s : State) (due : Nat),
    let started (job : WriteJob) (rest : List WriteJob) (s : State) : State := match job with
      | .image _ =>
        { s with
          writeQueue := rest, writing := some ⟨job, s.elapsed + Config.ms 400⟩
          imageRecord := { s.imageRecord with condition := .torn } }
      | .lastState _ =>
        { s with writeQueue := rest, writing := some ⟨job, s.elapsed + Config.ms 20⟩, lastRecord := .torn }
    (∀ holder size expected complete, s.loadSlot = .held holder size expected complete → s.loadIdleTimer = some due →
      exec .loadIdleTimerExpiry s = .next
        (State.deliver [(holder, .loadExpired size expected)]
          { s with elapsed := max s.elapsed due, loadSlot := .free, loadBuffer := [], loadIdleTimer := none })) ∧
    (s.loadIdleTimer = none → exec .loadIdleTimerExpiry s = .next s) ∧
    (∀ bytes, s.writing = some ⟨.image bytes, due⟩ →
      let done : State := { s with elapsed := max s.elapsed due, imageRecord := ⟨.valid, bytes⟩, writing := none }
      exec .lastStateWriteCompletion s = .next s ∧
      (s.pendingList = [] ∨ s.transition ≠ none →
        (s.writeQueue = [] → exec .imageWriteCompletion s = .next done) ∧
        ∀ job rest, s.writeQueue = job :: rest → exec .imageWriteCompletion s = .next (started job rest done)) ∧
      ∀ e rest, s.pendingList = e :: rest → s.transition = none → (∀ content, .image content ∉ s.writeQueue) →
        ∃ u, exec .imageWriteCompletion s = .next u ∧ u.pendingList <:+ rest ∧ u.imageRecord = ⟨.valid, bytes⟩ ∧
          u.elapsed = max s.elapsed due ∧ u.tagCounter = s.tagCounter ∧ u.image = s.image ∧
          (¬(s.active e.station = some e.target ∧ (s.carrier e.station).onItsWay = true) →
            satisfied s.activeImage s.contactors e.station e.target = true → s.conflicts e.station e.target = false →
            u.pendingList = rest ∧ u.active e.station = some e.target ∧ u.contactors = s.contactors ∧
            u.stations.get e.station.peer = s.stations.get e.station.peer ∧
            ((s.ports.get e.station).notices = [] →
              (u.ports.get e.station).notices.head? = some (.transitionStarted e.tag e.station e.target e.source 0)) ∧
            ∃ tr, u.transition = some tr ∧ tr.tag = e.tag ∧ tr.station = e.station ∧ tr.target = e.target ∧
              tr.source = e.source ∧ tr.moves = [] ∧ (tr.phase = .restore ∨ tr.phase = .confirm))) ∧
    (∀ content, s.writing = some ⟨.lastState content, due⟩ →
      let done : State := { s with elapsed := max s.elapsed due, lastRecord := .valid content, writing := none }
      exec .imageWriteCompletion s = .next s ∧
      (s.writeQueue = [] → exec .lastStateWriteCompletion s = .next done) ∧
      ∀ job rest, s.writeQueue = job :: rest → exec .lastStateWriteCompletion s = .next (started job rest done)) ∧
    (s.writing = none → exec .imageWriteCompletion s = .next s ∧ exec .lastStateWriteCompletion s = .next s) ∧
    ∀ marker : Bool,
      let job : WriteJob := .lastState ⟨s.active .A, s.active .B, marker⟩
      (s.writing = none → s.writeQueue = [] →
        s.work.handLastState marker =
          { s.work with writing := some ⟨job, s.elapsed + Config.ms 20⟩, lastRecord := .torn }) ∧
      (s.writing ≠ none → (∀ content, .lastState content ∉ s.writeQueue) →
        s.work.handLastState marker = { s.work with writeQueue := s.writeQueue ++ [job] }) ∧
      ∀ content before after, s.writing ≠ none → s.writeQueue = before ++ .lastState content :: after →
        (∀ d, .lastState d ∉ before ++ after) →
        s.work.handLastState marker = { s.work with writeQueue := before ++ job :: after }

/-! ### The links -/

/-- The frame assembler's table (R157), one byte at a time: what each state makes of the delimiter E3h, the escape D6h and any
other byte. A frame closed in BODY is good when its content holds a body and a check byte that brings the sum to 0 and it is not
damaged, and then its body is handed on; else it is dropped and counted. Content of more than 161 bytes makes the frame bad. -/
def Obligations.AssemblerTable : Prop :=
  ∀ (p : Port) (b : Byte),
    let bad (next : AssemblerState) : Port :=
      { p with assembler := next, content := [], damaged := false, dropped := min 65535 (p.dropped + 1) }
    let adds (v : Byte) : Port :=
      if p.content.length < 161 then { p with assembler := .body, content := p.content ++ [v] } else bad .discard
    let good := 2 ≤ p.content.length ∧ (p.content.map BitVec.toNat).sum % 256 = 0 ∧ p.damaged = false
    (p.assembler = .hunt ∨ p.assembler = .discard →
      p.takeByte b = (if b = 0xE3 then { p with assembler := .opened } else p, none)) ∧
    (p.assembler = .opened →
      p.takeByte b = (if b = 0xE3 then p else if b = 0xD6 then { p with assembler := .escape } else adds b, none)) ∧
    (p.assembler = .body → b = 0xE3 →
      (good → p.takeByte b = ({ p with assembler := .opened, content := [], damaged := false }, some p.content.dropLast)) ∧
      (¬good → p.takeByte b = (bad .opened, none))) ∧
    (p.assembler = .body → b ≠ 0xE3 →
      p.takeByte b = (if b = 0xD6 then { p with assembler := .escape } else adds b, none)) ∧
    (p.assembler = .escape →
      p.takeByte b =
        (if b = 0xE3 then bad .opened else if b = 0x31 then adds 0xE3 else if b = 0x32 then adds 0xD6
          else if b = 0x33 then adds 0x11 else if b = 0x34 then adds 0x13 else bad .discard, none))

/-- CHARACTER_RECEIVED (R155, R156, R158, R160). A character while a reset is held, or while the line is low after a break (log
entry 12), changes nothing. XOFF stops the transmitter and XON lets it run, and both restart the gap timer of a frame begun. A
line error marks the newest byte of the FIFO, or takes effect at once on an empty one. While a frame is held, a data character
joins the FIFO, the 48th queueing an XOFF, and one at a full FIFO is lost and leaves a loss mark on the newest byte; else, the
FIFO being empty, the assembler takes it at once, and the byte that closes a good frame has the effect of the request command
whose frame it is. With no character in transmission, a frame that XOFF has stopped goes on at the XON, and an XOFF queued
begins at once, which is the model's choice (log entry 19). The FIFO holds bytes only behind a held frame. -/
def Obligations.CharactersReceived : Prop :=
  ∀ (x : Station) (c : Byte) (s : State),
    let p := s.ports.get x
    let expiry := s.elapsed + 20 * s.rate.charTime
    let restart (p : Port) : Port := if p.line = .begun then { p with gapTimer := some expiry } else p
    let markNewest (p : Port) : Port := { p with fifo := p.fifo.modify (p.fifo.length - 1) fun f => { f with loss := true } }
    (s.phase.isHeld = true ∨ p.lineLow = true → ∀ low, exec (.characterReceived x c low) s = .next s) ∧
    (s.phase.isHeld = false → p.lineLow = false →
      (p.fifo ≠ [] →
        exec (.characterReceived x c true) s = .next (s.onPort x fun p => markNewest (restart p))) ∧
      (p.fifo = [] →
        exec (.characterReceived x c true) s = .next
          (s.onPort x fun p => { restart p with damaged := if p.assembler = .discard then p.damaged else true })) ∧
      (c = 0x13 → (p.char ≠ none ∨ p.flowQueued = none) →
        exec (.characterReceived x c false) s = .next (s.onPort x fun p => { restart p with running := false })) ∧
      (c = 0x11 → (p.char ≠ none ∨ (p.flowQueued = none ∧ p.frame = none)) →
        exec (.characterReceived x c false) s = .next (s.onPort x fun p => { restart p with running := true })) ∧
      (∀ b rest isReply, c = 0x11 → p.char = none → p.flowQueued = none → p.frame = some ⟨b :: rest, isReply⟩ →
        exec (.characterReceived x c false) s = .next (s.onPort x fun p =>
          { restart p with
            running := true, frame := some ⟨rest, isReply⟩
            char := some ⟨b, isReply && rest.isEmpty, s.elapsed + s.rate.charTime⟩ })) ∧
      (c ≠ 0x11 → c ≠ 0x13 → (p.char ≠ none ∨ (p.flowQueued = none ∧ (p.running = false ∨ p.frame = none))) →
        let tracked : Port :=
          if c = 0xE3 then { p with line := .delimiter, gapTimer := none }
          else if p.line = .noDelimiter then p
          else { p with line := .begun, gapTimer := some expiry }
        (p.heldFrame ≠ none → p.fifo.length < 64 →
          let joined : Port := { tracked with fifo := p.fifo ++ [⟨c, false, false⟩] }
          let stopped : Port := { joined with flowState := .xoffSent }
          exec (.characterReceived x c false) s = .next (s.onPort x fun _ =>
            if p.fifo.length = 47 ∧ p.flowState = .xon then
              (if p.char = none then { stopped with char := some ⟨0x13, false, s.elapsed + s.rate.charTime⟩ }
              else { stopped with flowQueued := some .xoff })
            else joined)) ∧
        (p.heldFrame ≠ none → 64 ≤ p.fifo.length →
          exec (.characterReceived x c false) s = .next (s.onPort x fun _ => markNewest tracked)) ∧
        (p.heldFrame = none → p.fifo = [] → (tracked.takeByte c).2 = none →
          exec (.characterReceived x c false) s = .next (s.onPort x fun _ => (tracked.takeByte c).1)) ∧
        ∀ i body, p.heldFrame = none → p.fifo = [] → (tracked.takeByte c).2 = some body → i.frame? = some (x, body) →
          exec (.characterReceived x c false) s = exec i s))

/-- GAP_TIMER_EXPIRY, BREAK and LINE_RETURN_HIGH (R158, R162, R147, R151). The gap drops a frame with content or an escape and
counts it, and the assembler goes to HUNT; behind bytes of the FIFO it marks the newest. A break resets the port, leaving the
dropped-frame count, the rate and every other block, but frees the load slot that the port holds and closes its readback; a
second one needs the line to return high first. Five clauses are the model's choice: that the expiry of a stopped gap timer is
no event (log entry 8), that a gap leaves the line with no delimiter and clears the flag of a frame abandoned in OPEN (log entry
18), that a break on a line still low brings nothing (log entry 12), and that a completed frame held at a break is lost, neither
handed on nor counted (log entry 39). -/
def Obligations.GapsAndBreaks : Prop :=
  ∀ (x : Station) (s : State),
    let p := s.ports.get x
    (p.gapTimer = none → exec (.gapTimerExpiry x) s = .next s) ∧
    (∀ due, p.gapTimer = some due →
      let at? : State := { s with elapsed := max s.elapsed due }
      (p.fifo ≠ [] →
        exec (.gapTimerExpiry x) s = .next (at?.onPort x fun p =>
          { p with
            gapTimer := none
            line := .noDelimiter
            fifo := p.fifo.modify (p.fifo.length - 1) fun f => { f with gap := true } })) ∧
      (p.fifo = [] →
        let counted := p.assembler = .body ∨ p.assembler = .escape
        ∃ q : Port, exec (.gapTimerExpiry x) s = .next (at?.onPort x fun _ => q) ∧ q.assembler = .hunt ∧
          q.gapTimer = none ∧ q.line = .noDelimiter ∧ q.dropped = (if counted then min 65535 (p.dropped + 1) else p.dropped) ∧
          (counted → q.content = [] ∧ q.damaged = false) ∧
          (¬counted → q.content = p.content ∧ q.damaged = if p.assembler = .opened then false else p.damaged) ∧
          q.fifo = p.fifo ∧ q.heldFrame = p.heldFrame ∧
          q.reply = p.reply ∧ q.notices = p.notices ∧ q.lost = p.lost ∧ q.flowState = p.flowState ∧
          q.flowQueued = p.flowQueued ∧ q.running = p.running ∧ q.frame = p.frame ∧ q.char = p.char ∧
          q.lineLow = p.lineLow)) ∧
    (s.phase.isHeld = false → p.lineLow = false →
      exec (.breakEvent x) s = .next
        (({ s with
            loadSlot := if s.loadSlot.heldBy x then .free else s.loadSlot
            loadBuffer := if s.loadSlot.heldBy x then [] else s.loadBuffer
            loadIdleTimer := if s.loadSlot.heldBy x then none else s.loadIdleTimer
            readback := s.readback.set x none } : State).onPort x fun p =>
          { fifo := [], assembler := .hunt, content := [], damaged := false, heldFrame := none, line := .noDelimiter,
            gapTimer := none, lineLow := true, reply := none, notices := [], lost := 0, dropped := p.dropped,
            flowState := .xon, flowQueued := none, running := true, frame := none,
            char := p.char.map fun c => { c with closesReply := false } })) ∧
    (s.phase.isHeld = true ∨ p.lineLow = true → exec (.breakEvent x) s = .next s) ∧
    exec (.lineReturnHigh x) s = .next (s.onPort x fun p => { p with lineLow := false })

/-- FRAME_TRANSMISSION_START and CHARACTER_TRANSMITTED (R159, R160, R161, R167, R168). An idle running transmitter begins the
reply's frame, or else the head notice's, which leaves the queue with the lost count as it stands; the delimiter is sent at
once. At the end of a character a queued flow character goes first, in either flow state, then the next byte of the frame while
RUNNING; the frame is over when its last byte is sent, and the closing delimiter of a reply's frame empties the slot. A frame
held behind the reply stays held until then, and what then becomes of it is `Obligations.HeldFramesHandedOn`. A frame is its
body and check byte, escaped between two delimiters (R168), and the body of each of the sixteen notices is laid out kind by kind
as R167 and R168 say, a pattern by its number and not its label, which is the model's choice (log entry 9). That
CHARACTER_TRANSMITTED with no character in transmission, and FRAME_TRANSMISSION_START with the transmitter not idle or nothing
to send, are no events is the model's choice (log entry 8). -/
def Obligations.FramesTransmitted : Prop :=
  (∀ (x : Station) (s : State),
     let p := s.ports.get x
     let idle := s.phase.isHeld = false ∧ p.running = true ∧ p.frame = none ∧ p.flowQueued = none ∧ p.char = none
     let start := s.elapsed + s.rate.charTime
     let contents (body : List Byte) : List Byte := (frameBytes body).tail
     (idle → ∀ body, p.reply = some body →
       exec (.frameTransmissionStart x) s = .next (s.onPort x fun p =>
         { p with frame := some ⟨contents body, true⟩, char := some ⟨0xE3, false, start⟩ })) ∧
     (idle → p.reply = none → ∀ n rest, p.notices = n :: rest →
       exec (.frameTransmissionStart x) s = .next (s.onPort x fun p =>
         { p with
           notices := rest
           lost := 0
           frame := some ⟨contents (noticeBody n p.lost x), false⟩
           char := some ⟨0xE3, false, start⟩ })) ∧
     (idle → p.reply = none → p.notices = [] → exec (.frameTransmissionStart x) s = .next s) ∧
     (¬idle → exec (.frameTransmissionStart x) s = .next s) ∧
     (p.char = none → exec (.characterTransmitted x) s = .next s) ∧
     ∀ c, p.char = some c → (p.heldFrame = none ∨ s.phase ≠ .running ∨ (p.reply ≠ none ∧ c.closesReply = false)) →
       let now := max s.elapsed c.due
       let s1 : State := { s with elapsed := now }
       let finish := now + s.rate.charTime
       let sent (p : Port) : Port :=
         { p with char := none, reply := if c.closesReply then none else p.reply
                  frame := match p.frame with | some ⟨[], _⟩ => none | f => f }
       (∀ f, p.flowQueued = some f →
         exec (.characterTransmitted x) s = .next (s1.onPort x fun p =>
           { sent p with flowQueued := none, char := some ⟨if f = .xon then 0x11 else 0x13, false, finish⟩ })) ∧
       (p.flowQueued = none → p.running = false → exec (.characterTransmitted x) s = .next (s1.onPort x sent)) ∧
       (p.flowQueued = none → (p.frame = none ∨ ∃ r, p.frame = some ⟨[], r⟩) →
         exec (.characterTransmitted x) s = .next (s1.onPort x sent)) ∧
       ∀ b rest isReply, p.flowQueued = none → p.running = true → p.frame = some ⟨b :: rest, isReply⟩ →
         exec (.characterTransmitted x) s = .next (s1.onPort x fun p =>
           { sent p with frame := some ⟨rest, isReply⟩, char := some ⟨b, isReply && rest.isEmpty, finish⟩ })) ∧

  (∀ body : List Byte,
    let check : Byte := byteOf (256 - (body.map BitVec.toNat).sum % 256)
    let sentAs (b : Byte) : List Byte := if b = 0xE3 then [0xD6, 0x31] else if b = 0xD6 then [0xD6, 0x32]
      else if b = 0x11 then [0xD6, 0x33] else if b = 0x13 then [0xD6, 0x34] else [b]
    frameBytes body = [0xE3] ++ (body ++ [check]).flatMap sentAs ++ [0xE3]) ∧
  ∀ (n : Notice) (lost : Nat) (x : Station),
    let two (n : Nat) : List Byte := [byteOf (n / 256), byteOf n]
    let yes (b : Bool) : Byte := if b then 1 else 0
    let station (y : Station) : Byte := match y with | .A => 1 | .B => 2
    let number (q : Option PatternNo) : Byte := match q with
      | some p => byteOf (p.val + 1)
      | none => 0
    let status (v : Status) : Byte := match v with
      | .unknown => 0 | .inTolerance => 1 | .advisory => 2 | .out => 3
    let carrier (v : CarrierState) : Byte := match v with
      | .dark => 0 | .normal => 1 | .lowering => 2 | .held => 3 | .raising => 4 | .verifying => 5 | .reduced => 6
    let source (v : Source) : Byte := match v with | .manual => 0 | .schedule => 1
    let ended (v : Result) : Byte := match v with
      | .completed => 0x00 | .completedReduced => 0x01 | .withdrawn => 0x02 | .superseded => 0x03 | .conflict => 0x04
      | .contactorFailed => 0x05 | .refusedByPeer => 0x06 | .noConsent => 0x07 | .muteTimeout => 0x08
      | .switchFaultReverted => 0x09 | .switchFaultDark => 0x0A | .rfDuringSwitch => 0x0B | .arrayDisturbed => 0x0C
    let purpose (v : RampPurpose) : Byte := match v with
      | .hold => 1 | .reduce => 2 | .level => 3 | .full => 4 | .fault => 5
    let clock (c : Option Reading) : List Byte := match c with
      | some r => two r.year ++ two r.day ++ [byteOf r.hour, byteOf r.minute, byteOf r.second]
      | none => [0, 0, 0, 0, 0, 0, 0]
    let content : List Byte := match n with
      | .started cause interrupted configured a b =>
        [0x40, byteOf lost, station x, match cause with | .powerOn => 1 | .resetLine => 2, yes interrupted, yes configured,
          number a, number b]
      | .transitionStarted tag requester target src moves =>
        [0x41, byteOf lost, station x, byteOf tag, station requester, number (some target), source src, byteOf moves]
      | .transitionEnded tag requester target src result a b =>
        [0x42, byteOf lost, station x, byteOf tag, station requester, number (some target), source src, ended result, number a,
          number b]
      | .scheduleRequest tag target o =>
        [0x43, byteOf lost, station x, byteOf tag, number (some target), byteOf o.entry] ++ two o.year ++ two o.day
      | .consentQuery tag requester shared hold =>
        [0x44, byteOf lost, station x, byteOf tag, station requester, byteOf shared] ++ two hold
      | .consentWithdrawn tag => [0x45, byteOf lost, station x, byteOf tag]
      | .carrierState state level q ramp mute rf =>
        [0x46, byteOf lost, station x, carrier state] ++ two level ++ [number q] ++
          (match ramp with
            | some r => two r.target ++ [purpose r.purpose]
            | none => [0xFF, 0xFF, 0]) ++ [yes mute + 2 * yes rf]
      | .arrayStatus q new previous towers =>
        [0x47, byteOf lost, station x, number q, status new, status previous, status towers[0], status towers[1],
          status towers[2], status towers[3], status towers[4]]
      | .verified q count seconds => [0x48, byteOf lost, station x, number q, byteOf count, byteOf seconds]
      | .verifyFailed q passes count last =>
        [0x49, byteOf lost, station x, number q, byteOf passes, byteOf count, status last]
      | .outOfTolerance q hold towers =>
        [0x4A, byteOf lost, station x, number q] ++ two hold ++
          [yes towers[0] + 2 * yes towers[1] + 4 * yes towers[2] + 8 * yes towers[3] + 16 * yes towers[4]]
      | .contactorFault k live cause =>
        [0x4B, byteOf lost, station x, byteOf (k.val + 1),
          match live.position with | some .zero => 0 | some .one => 1 | none => 0xFF,
          match live.state with | .idle => 0 | .pulsing => 1 | .settling => 2 | .failed => 3,
          match live.failure with | .noFailure => 0 | .stuck => 1 | .disagree => 2,
          match cause with | .move => 0 | .unexpected => 1 | .release => 2]
      | .rfWhileInhibited state c => [0x4C, byteOf lost, station x, carrier state, yes c.isSome] ++ clock c
      | .tableChanged committer => [0x4D, byteOf lost, station x, station committer]
      | .clockSet setter previous r =>
        [0x4E, byteOf lost, station x, station setter, yes previous.isSome] ++ clock previous ++ clock (some r)
      | .loadExpired size expected => [0x4F, byteOf lost, station x, byteOf size, byteOf expected]
    noticeBody n lost x = content

/-- The frame held by a paused assembler is handed on, and the FIFO drained behind it (R156 to R160; `State.HandsOn`): at the
end of the closing delimiter of the reply that filled the slot, where a queued flow character begins first, which is the model's
choice (log entry 29), and at the end of start-up, on one link or on both, where either may come first (log entry 5). A byte's
marks take effect when the assembler has dealt with it: a loss damages the frame open or next to be opened, but in DISCARD; a
gap takes the assembler to HUNT and drops and counts a frame with content or an escape. A byte with both takes its loss first,
which is the model's choice (log entry 27), and so are that a gap in OPEN clears the flag (log entry 18) and that an XON begins
at once with no character in transmission (log entry 19). -/
def Obligations.HeldFramesHandedOn : Prop :=
  let free (p : Port) : Prop := p.lineLow = false ∧ (p.frame = none ∨ ∃ r, p.frame = some ⟨[], r⟩)
  let ready (p : Port) : Prop := free p ∧ p.reply = none ∧ (p.char ≠ none ∨ (p.flowQueued = none ∧ p.frame = none))
  (∀ (x : Station) (c : TxChar) (i : Instr) (body : List Byte) (s : State),
    let p := s.ports.get x
    s.phase = .running → p.char = some c → c.closesReply = true → free p → p.heldFrame = some body → i.frame? = some (x, body) →
    let now := max s.elapsed c.due
    let sent : State := ({ s with elapsed := now } : State).onPort x fun p =>
      { p with
        reply := none
        frame := none
        flowQueued := none
        char := p.flowQueued.map fun f => ⟨if f = .xon then 0x11 else 0x13, false, now + s.rate.charTime⟩ }
    ∃ u, exec (.characterTransmitted x) s = .next u ∧ sent.HandsOn x i u) ∧
  (∀ (x : Station) (kind : ResetKind) (due : Nat) (i : Instr) (body : List Byte) (s : State), s.phase = .starting kind →
    s.startUpTimer = some due → ready (s.ports.get x) → (s.ports.get x.peer).heldFrame = none →
    (s.ports.get x).heldFrame = some body → i.frame? = some (x, body) →
    ∃ t u, exec .startUp (s.onPort x fun p => { p with heldFrame := none }) = .next t ∧ exec .startUp s = .next u ∧
      (t.onPort x fun p => { p with heldFrame := some body }).HandsOn x i u) ∧
  (∀ (kind : ResetKind) (due : Nat) (i j : Instr) (bodyA bodyB : List Byte) (s : State), s.phase = .starting kind →
    s.startUpTimer = some due → (∀ x, ready (s.ports.get x)) → (s.ports.get .A).heldFrame = some bodyA →
    (s.ports.get .B).heldFrame = some bodyB → i.frame? = some (.A, bodyA) → j.frame? = some (.B, bodyB) →
    ∃ t v u,
      exec .startUp ((s.onPort .A fun p => { p with heldFrame := none }).onPort .B fun p => { p with heldFrame := none }) =
        .next t ∧
      exec .startUp s = .next u ∧
      let both := (({ t with freeDraws := t.freeDraws + 1 } : State).onPort .A fun p => { p with heldFrame := some bodyA }).onPort
        .B fun p => { p with heldFrame := some bodyB }
      ((both.HandsOn .A i v ∧ v.HandsOn .B j u) ∨ (both.HandsOn .B j v ∧ v.HandsOn .A i u))) ∧
  ∀ (p : Port) (f : FifoByte),
    let taken := p.takeByte f.byte
    let lossy : Port :=
      if f.loss = true ∧ taken.1.assembler ≠ .discard then { taken.1 with damaged := true } else taken.1
    (p.takeMarked f).2 = taken.2 ∧
    (f.gap = false → (p.takeMarked f).1 = lossy) ∧
    (f.gap = true →
      (lossy.assembler = .hunt ∨ lossy.assembler = .discard → (p.takeMarked f).1 = { lossy with assembler := .hunt }) ∧
      (lossy.assembler = .opened → (p.takeMarked f).1 = { lossy with assembler := .hunt, damaged := false }) ∧
      (lossy.assembler = .body ∨ lossy.assembler = .escape →
        (p.takeMarked f).1 =
          { lossy with assembler := .hunt, content := [], damaged := false, dropped := min 65535 (lossy.dropped + 1) }))

/-! ### Conformance arithmetic -/

/-- A sample's ratio and phase (R104, R105): the ratio is the whole part of (2000 × Ak + Aref) over (2 × Aref), held at 9999, and
the phase lies in −1799…+1800 and is the delay's fraction of the cycle rounded half up to a tenth of a degree, or that less one
whole cycle. The counts they come from (R93), in periods of the 64 MHz count clock, of which a measurement has 1280000: the period
count runs from the opening crossing to the next rising crossing of the reference, and the delay count from the opening crossing
to the first rising crossing of the tower at or after it; each is held to at most 8191, and one not closed by the completion is
the number it has reached. With no tower crossing before the next reference crossing the delay count is not below the period
count. That the opening crossing is the measurement's first, and that without one both counts read 8191, is the model's choice
(log entry 40). -/
def Obligations.SampleMeasures : Prop :=
  (∀ reference tower : Nat, 0 < reference →
    let r := sampleRatio reference tower
    r ≤ 9999 ∧ 2 * reference * r ≤ 2000 * tower + reference ∧
    (r < 9999 → 2000 * tower + reference < 2 * reference * (r + 1))) ∧
  (∀ period delay : Nat, delay < period →
     -1799 ≤ samplePhase period delay ∧ samplePhase period delay ≤ 1800 ∧
     ∃ turns : Int, (turns = 0 ∨ turns = 1) ∧
       2 * (3600 * (delay : Int) - period * (samplePhase period delay + 3600 * turns)) < period ∧
       -(period : Int) ≤ 2 * (3600 * (delay : Int) - period * (samplePhase period delay + 3600 * turns))) ∧
  ∀ reference tower : List Nat,
    let finish := 1280000
    (∀ o ∈ reference, o ≤ finish → (∀ c ∈ reference, o ≤ c) →
      (∀ c ∈ reference, o < c → c ≤ finish → (∀ e ∈ reference, o < e → c ≤ e) →
        periodCount reference = min 8191 (c - o) ∧
        ((∀ e ∈ tower, o ≤ e → c ≤ e) → periodCount reference ≤ delayCount reference tower)) ∧
      ((∀ c ∈ reference, o < c → finish < c) → periodCount reference = min 8191 (finish - o)) ∧
      (∀ c ∈ tower, o ≤ c → c ≤ finish → (∀ e ∈ tower, o ≤ e → c ≤ e) → delayCount reference tower = min 8191 (c - o)) ∧
      ((∀ c ∈ tower, o ≤ c → finish < c) → delayCount reference tower = min 8191 (finish - o))) ∧
    ((∀ c ∈ reference, finish < c) → periodCount reference = 8191 ∧ delayCount reference tower = 8191)

/-- A tower's figures from its averaged samples (R108, R109, R110). The ratio average is the mean of the ratios rounded half up,
and its deviation that less the licensed ratio. Each sample's phase deviation is its phase less the licensed phase by whole
cycles within −1799…+1800, and their average is rounded half away from zero. For both quantities the margin is 100 less the
whole part of 100 × |deviation| over the tolerance, and 0 from the tolerance on, and the status is OUT beyond the tolerance,
else ADVISORY with a margin at or below the threshold, else IN. -/
def Obligations.FiguresJudged : Prop :=
  ∀ (t : TowerParameters) (threshold : Nat) (averaged : List Sample), averaged ≠ [] →
    (∀ v ∈ averaged, v.ratio ≤ 9999 ∧ -1799 ≤ v.phase ∧ v.phase ≤ 1800) → -1799 ≤ t.phase → t.phase ≤ 1800 →
    1 ≤ t.ratioTolerance → 1 ≤ t.phaseTolerance →
    let f := figuresOf t threshold averaged
    let m := averaged.length
    let total := (averaged.map fun v => v.ratio).sum
    let rounded (average sum : Int) : Prop := 2 * m * average ≤ 2 * sum + m ∧ 2 * sum + m < 2 * m * (average + 1)
    let judged (deviation : Int) (tolerance margin : Nat) (status : Status) : Prop :=
      margin ≤ 100 ∧ (tolerance ≤ deviation.natAbs → margin = 0) ∧
      (deviation.natAbs < tolerance →
        tolerance * (100 - margin) ≤ 100 * deviation.natAbs ∧ 100 * deviation.natAbs < tolerance * (101 - margin)) ∧
      status = (if tolerance < deviation.natAbs then .out else if margin ≤ threshold then .advisory else .inTolerance)
    f.ratioAverage ≤ 9999 ∧ rounded f.ratioAverage total ∧ f.ratioDeviation = (f.ratioAverage : Int) - t.ratio ∧
    (∃ deviations : List Int,
      List.Forall₂ (fun v d => -1799 ≤ d ∧ d ≤ 1800 ∧ (d - (v.phase - t.phase)) % 3600 = 0) averaged deviations ∧
      -1799 ≤ f.phaseDeviation ∧ f.phaseDeviation ≤ 1800 ∧ (0 ≤ deviations.sum → rounded f.phaseDeviation deviations.sum) ∧
      (deviations.sum < 0 → rounded (-f.phaseDeviation) (-deviations.sum))) ∧
    judged f.ratioDeviation t.ratioTolerance f.ratioMargin f.ratioStatus ∧
    judged f.phaseDeviation t.phaseTolerance f.phaseMargin f.phaseStatus

/-! ### What every state keeps -/

/-- The invariants below hold of the state in which the power-on reset is held, by the values the rules give it (R7, R19, R72,
R83, R147, R156, R161). -/
def Obligations.InvariantsHoldAtReset : Prop :=
  State.reset.PortsBounded ∧ State.reset.CarriersSound ∧ State.reset.HeldUntilStarted ∧ State.reset.Canonical ∧
  State.reset.Waiting ∧ State.reset.Settled ∧ State.reset.Cold ∧ State.reset.PatternUnlessDark

/-- Every step keeps each port within its sizes (R156, R157, R161): 64 bytes of FIFO, 161 of content, 16 notices, and the two
counts saturating. It keeps every memory in its one canonical form, which is the model's own (log entry 3), and no command
touches the queue of waiting commands, which is the host's (log entry 1). -/
def Obligations.SizesAndFormsKept : Prop :=
  (∀ s t : State, s.PortsBounded → step s = .next t → t.PortsBounded) ∧
  (∀ s t : State, s.Canonical → step s = .next t → t.Canonical) ∧
  ∀ (c : Instr) (s t : State), exec c s = .next t → t.pending = s.pending

/-- Every step keeps both carrier records sound (R72, R73, R76, R83, R86, R87, R120, R127): RF inhibit goes with level 0, a ramp
stands exactly in LOWERING and RAISING on the side the state names, and the mute, verification and hold fields belong to their
states. -/
def Obligations.CarriersStaySound : Prop := ∀ s t : State, s.CarriersSound → step s = .next t → t.CarriersSound

/-- Every step leaves nothing undone (R25, R36, R45, R46, R153, R154): the part stays out of service until start-up has ended,
no head that can start is left waiting, QUIESCE goes on only while an affected station is not quiet, and RESTORE and CONFIRM
only while the requester has not come to their ends. -/
def Obligations.NothingIsLeftUndone : Prop :=
  ∀ s t : State, s.HeldUntilStarted → s.Waiting → s.Settled → step s = .next t →
    t.HeldUntilStarted ∧ t.Waiting ∧ t.Settled

/-- Cold switching is kept by every step (R57, R58, R60): while the coil driver holds a move, a switch or a reversal is in
progress and every station that the moving contactor carries has RF inhibit asserted. -/
def Obligations.ColdSwitchingKept : Prop := ∀ s t : State, s.HeldUntilStarted → s.Cold → step s = .next t → t.Cold

/-- A station has no active pattern exactly when it is DARK, and every step keeps it so (R19, R63, R82). -/
def Obligations.NoPatternExactlyInDark : Prop :=
  ∀ s t : State, s.HeldUntilStarted → s.Settled → s.PatternUnlessDark → step s = .next t → t.PatternUnlessDark
end

