-- ==== Sys2Proof/Laws/State.lean ====
section
/-! SUPPORT. What each update of a record leaves in each field: one lemma per field and update, true by `rfl`, so that no
later proof unfolds a record update. -/
namespace Sys2Proof
namespace Machine

/-! ### Stations and pairs -/

@[simp] theorem Station.peer_peer (x : Station) : x.peer.peer = x := by cases x <;> rfl
theorem Station.peer_ne (x : Station) : x.peer ≠ x := by cases x <;> decide
theorem Station.eq_or_eq_peer (x y : Station) : y = x ∨ y = x.peer := by cases x <;> cases y <;> decide

@[simp] theorem Pair.get_A {α : Type} (p : Pair α) : p.get .A = p.a := rfl
@[simp] theorem Pair.get_B {α : Type} (p : Pair α) : p.get .B = p.b := rfl
@[simp] theorem Pair.get_set_self {α : Type} (p : Pair α) (x : Station) (v : α) : (p.set x v).get x = v := by
  cases x <;> rfl
@[simp] theorem Pair.get_set_peer {α : Type} (p : Pair α) (x : Station) (v : α) :
    (p.set x v).get x.peer = p.get x.peer := by cases x <;> rfl
@[simp] theorem Pair.get_peer_set {α : Type} (p : Pair α) (x : Station) (v : α) :
    (p.set x.peer v).get x = p.get x := by cases x <;> rfl
theorem Pair.get_set_of_ne {α : Type} (p : Pair α) {x y : Station} (v : α) (h : y ≠ x) : (p.set x v).get y = p.get y := by
  cases x <;> cases y <;> first | rfl | exact absurd rfl h
@[simp] theorem Pair.set_get_self {α : Type} (p : Pair α) (x : Station) : p.set x (p.get x) = p := by cases x <;> rfl
@[simp] theorem Pair.set_set {α : Type} (p : Pair α) (x : Station) (v w : α) : (p.set x v).set x w = p.set x w := by
  cases x <;> rfl
@[simp] theorem Pair.get_both {α : Type} (v : α) (x : Station) : (Pair.both v).get x = v := by cases x <;> rfl
theorem Pair.ext_get {α : Type} {p q : Pair α} (h : ∀ x, p.get x = q.get x) : p = q := by
  cases p; cases q; exact congrArg₂ Pair.mk (h .A) (h .B)

/-! ### The working record of an event -/

@[simp] theorem State.work_toPlant (s : State) : s.work.toPlant = s.toPlant := rfl
@[simp] theorem State.work_posts (s : State) : s.work.posts = [] := rfl
@[simp] theorem Work.post_toPlant (x : Station) (n : Notice) (w : Work) : (w.post x n).toPlant = w.toPlant := rfl
@[simp] theorem Work.post_posts (x : Station) (n : Notice) (w : Work) : (w.post x n).posts = w.posts ++ [(x, n)] := rfl

/-! ### `Work.reach` -/

@[simp] theorem Work.reach_posts (t : Nat) (w : Work) : (w.reach t).posts = w.posts := rfl
@[simp] theorem Work.reach_phase (t : Nat) (w : Work) : (w.reach t).phase = w.phase := rfl
@[simp] theorem Work.reach_elapsed (t : Nat) (w : Work) : (w.reach t).elapsed = max w.elapsed t := rfl
@[simp] theorem Work.reach_freeDraws (t : Nat) (w : Work) : (w.reach t).freeDraws = w.freeDraws := rfl
@[simp] theorem Work.reach_startUpTimer (t : Nat) (w : Work) : (w.reach t).startUpTimer = w.startUpTimer := rfl
@[simp] theorem Work.reach_rate (t : Nat) (w : Work) : (w.reach t).rate = w.rate := rfl
@[simp] theorem Work.reach_startUpCause (t : Nat) (w : Work) : (w.reach t).startUpCause = w.startUpCause := rfl
@[simp] theorem Work.reach_interrupted (t : Nat) (w : Work) : (w.reach t).interrupted = w.interrupted := rfl
@[simp] theorem Work.reach_image (t : Nat) (w : Work) : (w.reach t).image = w.image := rfl
@[simp] theorem Work.reach_foundImage (t : Nat) (w : Work) : (w.reach t).foundImage = w.foundImage := rfl
@[simp] theorem Work.reach_loadSlot (t : Nat) (w : Work) : (w.reach t).loadSlot = w.loadSlot := rfl
@[simp] theorem Work.reach_loadBuffer (t : Nat) (w : Work) : (w.reach t).loadBuffer = w.loadBuffer := rfl
@[simp] theorem Work.reach_loadIdleTimer (t : Nat) (w : Work) : (w.reach t).loadIdleTimer = w.loadIdleTimer := rfl
@[simp] theorem Work.reach_readback (t : Nat) (w : Work) : (w.reach t).readback = w.readback := rfl
@[simp] theorem Work.reach_imageRecord (t : Nat) (w : Work) : (w.reach t).imageRecord = w.imageRecord := rfl
@[simp] theorem Work.reach_lastRecord (t : Nat) (w : Work) : (w.reach t).lastRecord = w.lastRecord := rfl
@[simp] theorem Work.reach_writing (t : Nat) (w : Work) : (w.reach t).writing = w.writing := rfl
@[simp] theorem Work.reach_writeQueue (t : Nat) (w : Work) : (w.reach t).writeQueue = w.writeQueue := rfl
@[simp] theorem Work.reach_tagCounter (t : Nat) (w : Work) : (w.reach t).tagCounter = w.tagCounter := rfl
@[simp] theorem Work.reach_pendingList (t : Nat) (w : Work) : (w.reach t).pendingList = w.pendingList := rfl
@[simp] theorem Work.reach_transition (t : Nat) (w : Work) : (w.reach t).transition = w.transition := rfl
@[simp] theorem Work.reach_consentTimer (t : Nat) (w : Work) : (w.reach t).consentTimer = w.consentTimer := rfl
@[simp] theorem Work.reach_deferTimer (t : Nat) (w : Work) : (w.reach t).deferTimer = w.deferTimer := rfl
@[simp] theorem Work.reach_consentPolicy (t : Nat) (w : Work) : (w.reach t).consentPolicy = w.consentPolicy := rfl
@[simp] theorem Work.reach_aux (t : Nat) (w : Work) : (w.reach t).aux = w.aux := rfl
@[simp] theorem Work.reach_contactors (t : Nat) (w : Work) : (w.reach t).contactors = w.contactors := rfl
@[simp] theorem Work.reach_driver (t : Nat) (w : Work) : (w.reach t).driver = w.driver := rfl
@[simp] theorem Work.reach_stations (t : Nat) (w : Work) : (w.reach t).stations = w.stations := rfl
@[simp] theorem Work.reach_scanList (t : Nat) (w : Work) : (w.reach t).scanList = w.scanList := rfl
@[simp] theorem Work.reach_measurement (t : Nat) (w : Work) : (w.reach t).measurement = w.measurement := rfl
@[simp] theorem Work.reach_lastEntry (t : Nat) (w : Work) : (w.reach t).lastEntry = w.lastEntry := rfl
@[simp] theorem Work.reach_clock (t : Nat) (w : Work) : (w.reach t).clock = w.clock := rfl
@[simp] theorem Work.reach_clockTimer (t : Nat) (w : Work) : (w.reach t).clockTimer = w.clockTimer := rfl
@[simp] theorem Work.reach_schedulePolicy (t : Nat) (w : Work) : (w.reach t).schedulePolicy = w.schedulePolicy := rfl
@[simp] theorem Work.reach_override (t : Nat) (w : Work) : (w.reach t).override = w.override := rfl
@[simp] theorem Work.reach_retryHold (t : Nat) (w : Work) : (w.reach t).retryHold = w.retryHold := rfl

/-! ### `Work.onTransition` -/

@[simp] theorem Work.onTransition_posts (f : Transition → Transition) (w : Work) : (w.onTransition f).posts = w.posts := rfl
@[simp] theorem Work.onTransition_phase (f : Transition → Transition) (w : Work) : (w.onTransition f).phase = w.phase := rfl
@[simp] theorem Work.onTransition_elapsed (f : Transition → Transition) (w : Work) : (w.onTransition f).elapsed = w.elapsed := rfl
@[simp] theorem Work.onTransition_freeDraws (f : Transition → Transition) (w : Work) : (w.onTransition f).freeDraws = w.freeDraws := rfl
@[simp] theorem Work.onTransition_startUpTimer (f : Transition → Transition) (w : Work) : (w.onTransition f).startUpTimer = w.startUpTimer := rfl
@[simp] theorem Work.onTransition_rate (f : Transition → Transition) (w : Work) : (w.onTransition f).rate = w.rate := rfl
@[simp] theorem Work.onTransition_startUpCause (f : Transition → Transition) (w : Work) : (w.onTransition f).startUpCause = w.startUpCause := rfl
@[simp] theorem Work.onTransition_interrupted (f : Transition → Transition) (w : Work) : (w.onTransition f).interrupted = w.interrupted := rfl
@[simp] theorem Work.onTransition_image (f : Transition → Transition) (w : Work) : (w.onTransition f).image = w.image := rfl
@[simp] theorem Work.onTransition_foundImage (f : Transition → Transition) (w : Work) : (w.onTransition f).foundImage = w.foundImage := rfl
@[simp] theorem Work.onTransition_loadSlot (f : Transition → Transition) (w : Work) : (w.onTransition f).loadSlot = w.loadSlot := rfl
@[simp] theorem Work.onTransition_loadBuffer (f : Transition → Transition) (w : Work) : (w.onTransition f).loadBuffer = w.loadBuffer := rfl
@[simp] theorem Work.onTransition_loadIdleTimer (f : Transition → Transition) (w : Work) : (w.onTransition f).loadIdleTimer = w.loadIdleTimer := rfl
@[simp] theorem Work.onTransition_readback (f : Transition → Transition) (w : Work) : (w.onTransition f).readback = w.readback := rfl
@[simp] theorem Work.onTransition_imageRecord (f : Transition → Transition) (w : Work) : (w.onTransition f).imageRecord = w.imageRecord := rfl
@[simp] theorem Work.onTransition_lastRecord (f : Transition → Transition) (w : Work) : (w.onTransition f).lastRecord = w.lastRecord := rfl
@[simp] theorem Work.onTransition_writing (f : Transition → Transition) (w : Work) : (w.onTransition f).writing = w.writing := rfl
@[simp] theorem Work.onTransition_writeQueue (f : Transition → Transition) (w : Work) : (w.onTransition f).writeQueue = w.writeQueue := rfl
@[simp] theorem Work.onTransition_tagCounter (f : Transition → Transition) (w : Work) : (w.onTransition f).tagCounter = w.tagCounter := rfl
@[simp] theorem Work.onTransition_pendingList (f : Transition → Transition) (w : Work) : (w.onTransition f).pendingList = w.pendingList := rfl
@[simp] theorem Work.onTransition_transition (f : Transition → Transition) (w : Work) : (w.onTransition f).transition = w.transition.map f := rfl
@[simp] theorem Work.onTransition_consentTimer (f : Transition → Transition) (w : Work) : (w.onTransition f).consentTimer = w.consentTimer := rfl
@[simp] theorem Work.onTransition_deferTimer (f : Transition → Transition) (w : Work) : (w.onTransition f).deferTimer = w.deferTimer := rfl
@[simp] theorem Work.onTransition_consentPolicy (f : Transition → Transition) (w : Work) : (w.onTransition f).consentPolicy = w.consentPolicy := rfl
@[simp] theorem Work.onTransition_aux (f : Transition → Transition) (w : Work) : (w.onTransition f).aux = w.aux := rfl
@[simp] theorem Work.onTransition_contactors (f : Transition → Transition) (w : Work) : (w.onTransition f).contactors = w.contactors := rfl
@[simp] theorem Work.onTransition_driver (f : Transition → Transition) (w : Work) : (w.onTransition f).driver = w.driver := rfl
@[simp] theorem Work.onTransition_stations (f : Transition → Transition) (w : Work) : (w.onTransition f).stations = w.stations := rfl
@[simp] theorem Work.onTransition_scanList (f : Transition → Transition) (w : Work) : (w.onTransition f).scanList = w.scanList := rfl
@[simp] theorem Work.onTransition_measurement (f : Transition → Transition) (w : Work) : (w.onTransition f).measurement = w.measurement := rfl
@[simp] theorem Work.onTransition_lastEntry (f : Transition → Transition) (w : Work) : (w.onTransition f).lastEntry = w.lastEntry := rfl
@[simp] theorem Work.onTransition_clock (f : Transition → Transition) (w : Work) : (w.onTransition f).clock = w.clock := rfl
@[simp] theorem Work.onTransition_clockTimer (f : Transition → Transition) (w : Work) : (w.onTransition f).clockTimer = w.clockTimer := rfl
@[simp] theorem Work.onTransition_schedulePolicy (f : Transition → Transition) (w : Work) : (w.onTransition f).schedulePolicy = w.schedulePolicy := rfl
@[simp] theorem Work.onTransition_override (f : Transition → Transition) (w : Work) : (w.onTransition f).override = w.override := rfl
@[simp] theorem Work.onTransition_retryHold (f : Transition → Transition) (w : Work) : (w.onTransition f).retryHold = w.retryHold := rfl

/-! ### `Work.onLive` -/

@[simp] theorem Work.onLive_posts (k : ContactorNo) (f : Live → Live) (w : Work) : (w.onLive k f).posts = w.posts := rfl
@[simp] theorem Work.onLive_phase (k : ContactorNo) (f : Live → Live) (w : Work) : (w.onLive k f).phase = w.phase := rfl
@[simp] theorem Work.onLive_elapsed (k : ContactorNo) (f : Live → Live) (w : Work) : (w.onLive k f).elapsed = w.elapsed := rfl
@[simp] theorem Work.onLive_freeDraws (k : ContactorNo) (f : Live → Live) (w : Work) : (w.onLive k f).freeDraws = w.freeDraws := rfl
@[simp] theorem Work.onLive_startUpTimer (k : ContactorNo) (f : Live → Live) (w : Work) : (w.onLive k f).startUpTimer = w.startUpTimer := rfl
@[simp] theorem Work.onLive_rate (k : ContactorNo) (f : Live → Live) (w : Work) : (w.onLive k f).rate = w.rate := rfl
@[simp] theorem Work.onLive_startUpCause (k : ContactorNo) (f : Live → Live) (w : Work) : (w.onLive k f).startUpCause = w.startUpCause := rfl
@[simp] theorem Work.onLive_interrupted (k : ContactorNo) (f : Live → Live) (w : Work) : (w.onLive k f).interrupted = w.interrupted := rfl
@[simp] theorem Work.onLive_image (k : ContactorNo) (f : Live → Live) (w : Work) : (w.onLive k f).image = w.image := rfl
@[simp] theorem Work.onLive_foundImage (k : ContactorNo) (f : Live → Live) (w : Work) : (w.onLive k f).foundImage = w.foundImage := rfl
@[simp] theorem Work.onLive_loadSlot (k : ContactorNo) (f : Live → Live) (w : Work) : (w.onLive k f).loadSlot = w.loadSlot := rfl
@[simp] theorem Work.onLive_loadBuffer (k : ContactorNo) (f : Live → Live) (w : Work) : (w.onLive k f).loadBuffer = w.loadBuffer := rfl
@[simp] theorem Work.onLive_loadIdleTimer (k : ContactorNo) (f : Live → Live) (w : Work) : (w.onLive k f).loadIdleTimer = w.loadIdleTimer := rfl
@[simp] theorem Work.onLive_readback (k : ContactorNo) (f : Live → Live) (w : Work) : (w.onLive k f).readback = w.readback := rfl
@[simp] theorem Work.onLive_imageRecord (k : ContactorNo) (f : Live → Live) (w : Work) : (w.onLive k f).imageRecord = w.imageRecord := rfl
@[simp] theorem Work.onLive_lastRecord (k : ContactorNo) (f : Live → Live) (w : Work) : (w.onLive k f).lastRecord = w.lastRecord := rfl
@[simp] theorem Work.onLive_writing (k : ContactorNo) (f : Live → Live) (w : Work) : (w.onLive k f).writing = w.writing := rfl
@[simp] theorem Work.onLive_writeQueue (k : ContactorNo) (f : Live → Live) (w : Work) : (w.onLive k f).writeQueue = w.writeQueue := rfl
@[simp] theorem Work.onLive_tagCounter (k : ContactorNo) (f : Live → Live) (w : Work) : (w.onLive k f).tagCounter = w.tagCounter := rfl
@[simp] theorem Work.onLive_pendingList (k : ContactorNo) (f : Live → Live) (w : Work) : (w.onLive k f).pendingList = w.pendingList := rfl
@[simp] theorem Work.onLive_transition (k : ContactorNo) (f : Live → Live) (w : Work) : (w.onLive k f).transition = w.transition := rfl
@[simp] theorem Work.onLive_consentTimer (k : ContactorNo) (f : Live → Live) (w : Work) : (w.onLive k f).consentTimer = w.consentTimer := rfl
@[simp] theorem Work.onLive_deferTimer (k : ContactorNo) (f : Live → Live) (w : Work) : (w.onLive k f).deferTimer = w.deferTimer := rfl
@[simp] theorem Work.onLive_consentPolicy (k : ContactorNo) (f : Live → Live) (w : Work) : (w.onLive k f).consentPolicy = w.consentPolicy := rfl
@[simp] theorem Work.onLive_aux (k : ContactorNo) (f : Live → Live) (w : Work) : (w.onLive k f).aux = w.aux := rfl
@[simp] theorem Work.onLive_contactors (k : ContactorNo) (f : Live → Live) (w : Work) : (w.onLive k f).contactors = w.contactors.set k (f w.contactors[k]) := rfl
@[simp] theorem Work.onLive_driver (k : ContactorNo) (f : Live → Live) (w : Work) : (w.onLive k f).driver = w.driver := rfl
@[simp] theorem Work.onLive_stations (k : ContactorNo) (f : Live → Live) (w : Work) : (w.onLive k f).stations = w.stations := rfl
@[simp] theorem Work.onLive_scanList (k : ContactorNo) (f : Live → Live) (w : Work) : (w.onLive k f).scanList = w.scanList := rfl
@[simp] theorem Work.onLive_measurement (k : ContactorNo) (f : Live → Live) (w : Work) : (w.onLive k f).measurement = w.measurement := rfl
@[simp] theorem Work.onLive_lastEntry (k : ContactorNo) (f : Live → Live) (w : Work) : (w.onLive k f).lastEntry = w.lastEntry := rfl
@[simp] theorem Work.onLive_clock (k : ContactorNo) (f : Live → Live) (w : Work) : (w.onLive k f).clock = w.clock := rfl
@[simp] theorem Work.onLive_clockTimer (k : ContactorNo) (f : Live → Live) (w : Work) : (w.onLive k f).clockTimer = w.clockTimer := rfl
@[simp] theorem Work.onLive_schedulePolicy (k : ContactorNo) (f : Live → Live) (w : Work) : (w.onLive k f).schedulePolicy = w.schedulePolicy := rfl
@[simp] theorem Work.onLive_override (k : ContactorNo) (f : Live → Live) (w : Work) : (w.onLive k f).override = w.override := rfl
@[simp] theorem Work.onLive_retryHold (k : ContactorNo) (f : Live → Live) (w : Work) : (w.onLive k f).retryHold = w.retryHold := rfl

/-! ### `Work.stopDriver` -/

@[simp] theorem Work.stopDriver_posts (w : Work) : (w.stopDriver).posts = w.posts := rfl
@[simp] theorem Work.stopDriver_phase (w : Work) : (w.stopDriver).phase = w.phase := rfl
@[simp] theorem Work.stopDriver_elapsed (w : Work) : (w.stopDriver).elapsed = w.elapsed := rfl
@[simp] theorem Work.stopDriver_freeDraws (w : Work) : (w.stopDriver).freeDraws = w.freeDraws := rfl
@[simp] theorem Work.stopDriver_startUpTimer (w : Work) : (w.stopDriver).startUpTimer = w.startUpTimer := rfl
@[simp] theorem Work.stopDriver_rate (w : Work) : (w.stopDriver).rate = w.rate := rfl
@[simp] theorem Work.stopDriver_startUpCause (w : Work) : (w.stopDriver).startUpCause = w.startUpCause := rfl
@[simp] theorem Work.stopDriver_interrupted (w : Work) : (w.stopDriver).interrupted = w.interrupted := rfl
@[simp] theorem Work.stopDriver_image (w : Work) : (w.stopDriver).image = w.image := rfl
@[simp] theorem Work.stopDriver_foundImage (w : Work) : (w.stopDriver).foundImage = w.foundImage := rfl
@[simp] theorem Work.stopDriver_loadSlot (w : Work) : (w.stopDriver).loadSlot = w.loadSlot := rfl
@[simp] theorem Work.stopDriver_loadBuffer (w : Work) : (w.stopDriver).loadBuffer = w.loadBuffer := rfl
@[simp] theorem Work.stopDriver_loadIdleTimer (w : Work) : (w.stopDriver).loadIdleTimer = w.loadIdleTimer := rfl
@[simp] theorem Work.stopDriver_readback (w : Work) : (w.stopDriver).readback = w.readback := rfl
@[simp] theorem Work.stopDriver_imageRecord (w : Work) : (w.stopDriver).imageRecord = w.imageRecord := rfl
@[simp] theorem Work.stopDriver_lastRecord (w : Work) : (w.stopDriver).lastRecord = w.lastRecord := rfl
@[simp] theorem Work.stopDriver_writing (w : Work) : (w.stopDriver).writing = w.writing := rfl
@[simp] theorem Work.stopDriver_writeQueue (w : Work) : (w.stopDriver).writeQueue = w.writeQueue := rfl
@[simp] theorem Work.stopDriver_tagCounter (w : Work) : (w.stopDriver).tagCounter = w.tagCounter := rfl
@[simp] theorem Work.stopDriver_pendingList (w : Work) : (w.stopDriver).pendingList = w.pendingList := rfl
@[simp] theorem Work.stopDriver_transition (w : Work) : (w.stopDriver).transition = w.transition := rfl
@[simp] theorem Work.stopDriver_consentTimer (w : Work) : (w.stopDriver).consentTimer = w.consentTimer := rfl
@[simp] theorem Work.stopDriver_deferTimer (w : Work) : (w.stopDriver).deferTimer = w.deferTimer := rfl
@[simp] theorem Work.stopDriver_consentPolicy (w : Work) : (w.stopDriver).consentPolicy = w.consentPolicy := rfl
@[simp] theorem Work.stopDriver_aux (w : Work) : (w.stopDriver).aux = w.aux := rfl
@[simp] theorem Work.stopDriver_contactors (w : Work) : (w.stopDriver).contactors = w.contactors := rfl
@[simp] theorem Work.stopDriver_driver (w : Work) : (w.stopDriver).driver = w.driver.map fun m => { m with stop := true } := rfl
@[simp] theorem Work.stopDriver_stations (w : Work) : (w.stopDriver).stations = w.stations := rfl
@[simp] theorem Work.stopDriver_scanList (w : Work) : (w.stopDriver).scanList = w.scanList := rfl
@[simp] theorem Work.stopDriver_measurement (w : Work) : (w.stopDriver).measurement = w.measurement := rfl
@[simp] theorem Work.stopDriver_lastEntry (w : Work) : (w.stopDriver).lastEntry = w.lastEntry := rfl
@[simp] theorem Work.stopDriver_clock (w : Work) : (w.stopDriver).clock = w.clock := rfl
@[simp] theorem Work.stopDriver_clockTimer (w : Work) : (w.stopDriver).clockTimer = w.clockTimer := rfl
@[simp] theorem Work.stopDriver_schedulePolicy (w : Work) : (w.stopDriver).schedulePolicy = w.schedulePolicy := rfl
@[simp] theorem Work.stopDriver_override (w : Work) : (w.stopDriver).override = w.override := rfl
@[simp] theorem Work.stopDriver_retryHold (w : Work) : (w.stopDriver).retryHold = w.retryHold := rfl

/-! ### `Work.onStation` -/

@[simp] theorem Work.onStation_posts (x : Station) (f : Ctx → StationWork → StationWork) (w : Work) : (w.onStation x f).posts = w.posts ++ (f (w.toPlant.ctx x) { toStationUnit := w.stations.get x, out := [] }).out.map fun n => (x, n) := rfl
@[simp] theorem Work.onStation_phase (x : Station) (f : Ctx → StationWork → StationWork) (w : Work) : (w.onStation x f).phase = w.phase := rfl
@[simp] theorem Work.onStation_elapsed (x : Station) (f : Ctx → StationWork → StationWork) (w : Work) : (w.onStation x f).elapsed = w.elapsed := rfl
@[simp] theorem Work.onStation_freeDraws (x : Station) (f : Ctx → StationWork → StationWork) (w : Work) : (w.onStation x f).freeDraws = w.freeDraws := rfl
@[simp] theorem Work.onStation_startUpTimer (x : Station) (f : Ctx → StationWork → StationWork) (w : Work) : (w.onStation x f).startUpTimer = w.startUpTimer := rfl
@[simp] theorem Work.onStation_rate (x : Station) (f : Ctx → StationWork → StationWork) (w : Work) : (w.onStation x f).rate = w.rate := rfl
@[simp] theorem Work.onStation_startUpCause (x : Station) (f : Ctx → StationWork → StationWork) (w : Work) : (w.onStation x f).startUpCause = w.startUpCause := rfl
@[simp] theorem Work.onStation_interrupted (x : Station) (f : Ctx → StationWork → StationWork) (w : Work) : (w.onStation x f).interrupted = w.interrupted := rfl
@[simp] theorem Work.onStation_image (x : Station) (f : Ctx → StationWork → StationWork) (w : Work) : (w.onStation x f).image = w.image := rfl
@[simp] theorem Work.onStation_foundImage (x : Station) (f : Ctx → StationWork → StationWork) (w : Work) : (w.onStation x f).foundImage = w.foundImage := rfl
@[simp] theorem Work.onStation_loadSlot (x : Station) (f : Ctx → StationWork → StationWork) (w : Work) : (w.onStation x f).loadSlot = w.loadSlot := rfl
@[simp] theorem Work.onStation_loadBuffer (x : Station) (f : Ctx → StationWork → StationWork) (w : Work) : (w.onStation x f).loadBuffer = w.loadBuffer := rfl
@[simp] theorem Work.onStation_loadIdleTimer (x : Station) (f : Ctx → StationWork → StationWork) (w : Work) : (w.onStation x f).loadIdleTimer = w.loadIdleTimer := rfl
@[simp] theorem Work.onStation_readback (x : Station) (f : Ctx → StationWork → StationWork) (w : Work) : (w.onStation x f).readback = w.readback := rfl
@[simp] theorem Work.onStation_imageRecord (x : Station) (f : Ctx → StationWork → StationWork) (w : Work) : (w.onStation x f).imageRecord = w.imageRecord := rfl
@[simp] theorem Work.onStation_lastRecord (x : Station) (f : Ctx → StationWork → StationWork) (w : Work) : (w.onStation x f).lastRecord = w.lastRecord := rfl
@[simp] theorem Work.onStation_writing (x : Station) (f : Ctx → StationWork → StationWork) (w : Work) : (w.onStation x f).writing = w.writing := rfl
@[simp] theorem Work.onStation_writeQueue (x : Station) (f : Ctx → StationWork → StationWork) (w : Work) : (w.onStation x f).writeQueue = w.writeQueue := rfl
@[simp] theorem Work.onStation_tagCounter (x : Station) (f : Ctx → StationWork → StationWork) (w : Work) : (w.onStation x f).tagCounter = w.tagCounter := rfl
@[simp] theorem Work.onStation_pendingList (x : Station) (f : Ctx → StationWork → StationWork) (w : Work) : (w.onStation x f).pendingList = w.pendingList := rfl
@[simp] theorem Work.onStation_transition (x : Station) (f : Ctx → StationWork → StationWork) (w : Work) : (w.onStation x f).transition = w.transition := rfl
@[simp] theorem Work.onStation_consentTimer (x : Station) (f : Ctx → StationWork → StationWork) (w : Work) : (w.onStation x f).consentTimer = w.consentTimer := rfl
@[simp] theorem Work.onStation_deferTimer (x : Station) (f : Ctx → StationWork → StationWork) (w : Work) : (w.onStation x f).deferTimer = w.deferTimer := rfl
@[simp] theorem Work.onStation_consentPolicy (x : Station) (f : Ctx → StationWork → StationWork) (w : Work) : (w.onStation x f).consentPolicy = w.consentPolicy := rfl
@[simp] theorem Work.onStation_aux (x : Station) (f : Ctx → StationWork → StationWork) (w : Work) : (w.onStation x f).aux = w.aux := rfl
@[simp] theorem Work.onStation_contactors (x : Station) (f : Ctx → StationWork → StationWork) (w : Work) : (w.onStation x f).contactors = w.contactors := rfl
@[simp] theorem Work.onStation_driver (x : Station) (f : Ctx → StationWork → StationWork) (w : Work) : (w.onStation x f).driver = w.driver := rfl
@[simp] theorem Work.onStation_stations (x : Station) (f : Ctx → StationWork → StationWork) (w : Work) : (w.onStation x f).stations = w.stations.set x (f (w.toPlant.ctx x) { toStationUnit := w.stations.get x, out := [] }).toStationUnit := rfl
@[simp] theorem Work.onStation_scanList (x : Station) (f : Ctx → StationWork → StationWork) (w : Work) : (w.onStation x f).scanList = w.scanList := rfl
@[simp] theorem Work.onStation_measurement (x : Station) (f : Ctx → StationWork → StationWork) (w : Work) : (w.onStation x f).measurement = w.measurement := rfl
@[simp] theorem Work.onStation_lastEntry (x : Station) (f : Ctx → StationWork → StationWork) (w : Work) : (w.onStation x f).lastEntry = w.lastEntry := rfl
@[simp] theorem Work.onStation_clock (x : Station) (f : Ctx → StationWork → StationWork) (w : Work) : (w.onStation x f).clock = w.clock := rfl
@[simp] theorem Work.onStation_clockTimer (x : Station) (f : Ctx → StationWork → StationWork) (w : Work) : (w.onStation x f).clockTimer = w.clockTimer := rfl
@[simp] theorem Work.onStation_schedulePolicy (x : Station) (f : Ctx → StationWork → StationWork) (w : Work) : (w.onStation x f).schedulePolicy = w.schedulePolicy := rfl
@[simp] theorem Work.onStation_override (x : Station) (f : Ctx → StationWork → StationWork) (w : Work) : (w.onStation x f).override = w.override := rfl
@[simp] theorem Work.onStation_retryHold (x : Station) (f : Ctx → StationWork → StationWork) (w : Work) : (w.onStation x f).retryHold = w.retryHold := rfl

/-! ### `Work.freeSlot` -/

@[simp] theorem Work.freeSlot_posts (w : Work) : (w.freeSlot).posts = w.posts := rfl
@[simp] theorem Work.freeSlot_phase (w : Work) : (w.freeSlot).phase = w.phase := rfl
@[simp] theorem Work.freeSlot_elapsed (w : Work) : (w.freeSlot).elapsed = w.elapsed := rfl
@[simp] theorem Work.freeSlot_freeDraws (w : Work) : (w.freeSlot).freeDraws = w.freeDraws := rfl
@[simp] theorem Work.freeSlot_startUpTimer (w : Work) : (w.freeSlot).startUpTimer = w.startUpTimer := rfl
@[simp] theorem Work.freeSlot_rate (w : Work) : (w.freeSlot).rate = w.rate := rfl
@[simp] theorem Work.freeSlot_startUpCause (w : Work) : (w.freeSlot).startUpCause = w.startUpCause := rfl
@[simp] theorem Work.freeSlot_interrupted (w : Work) : (w.freeSlot).interrupted = w.interrupted := rfl
@[simp] theorem Work.freeSlot_image (w : Work) : (w.freeSlot).image = w.image := rfl
@[simp] theorem Work.freeSlot_foundImage (w : Work) : (w.freeSlot).foundImage = w.foundImage := rfl
@[simp] theorem Work.freeSlot_loadSlot (w : Work) : (w.freeSlot).loadSlot = .free := rfl
@[simp] theorem Work.freeSlot_loadBuffer (w : Work) : (w.freeSlot).loadBuffer = [] := rfl
@[simp] theorem Work.freeSlot_loadIdleTimer (w : Work) : (w.freeSlot).loadIdleTimer = none := rfl
@[simp] theorem Work.freeSlot_readback (w : Work) : (w.freeSlot).readback = w.readback := rfl
@[simp] theorem Work.freeSlot_imageRecord (w : Work) : (w.freeSlot).imageRecord = w.imageRecord := rfl
@[simp] theorem Work.freeSlot_lastRecord (w : Work) : (w.freeSlot).lastRecord = w.lastRecord := rfl
@[simp] theorem Work.freeSlot_writing (w : Work) : (w.freeSlot).writing = w.writing := rfl
@[simp] theorem Work.freeSlot_writeQueue (w : Work) : (w.freeSlot).writeQueue = w.writeQueue := rfl
@[simp] theorem Work.freeSlot_tagCounter (w : Work) : (w.freeSlot).tagCounter = w.tagCounter := rfl
@[simp] theorem Work.freeSlot_pendingList (w : Work) : (w.freeSlot).pendingList = w.pendingList := rfl
@[simp] theorem Work.freeSlot_transition (w : Work) : (w.freeSlot).transition = w.transition := rfl
@[simp] theorem Work.freeSlot_consentTimer (w : Work) : (w.freeSlot).consentTimer = w.consentTimer := rfl
@[simp] theorem Work.freeSlot_deferTimer (w : Work) : (w.freeSlot).deferTimer = w.deferTimer := rfl
@[simp] theorem Work.freeSlot_consentPolicy (w : Work) : (w.freeSlot).consentPolicy = w.consentPolicy := rfl
@[simp] theorem Work.freeSlot_aux (w : Work) : (w.freeSlot).aux = w.aux := rfl
@[simp] theorem Work.freeSlot_contactors (w : Work) : (w.freeSlot).contactors = w.contactors := rfl
@[simp] theorem Work.freeSlot_driver (w : Work) : (w.freeSlot).driver = w.driver := rfl
@[simp] theorem Work.freeSlot_stations (w : Work) : (w.freeSlot).stations = w.stations := rfl
@[simp] theorem Work.freeSlot_scanList (w : Work) : (w.freeSlot).scanList = w.scanList := rfl
@[simp] theorem Work.freeSlot_measurement (w : Work) : (w.freeSlot).measurement = w.measurement := rfl
@[simp] theorem Work.freeSlot_lastEntry (w : Work) : (w.freeSlot).lastEntry = w.lastEntry := rfl
@[simp] theorem Work.freeSlot_clock (w : Work) : (w.freeSlot).clock = w.clock := rfl
@[simp] theorem Work.freeSlot_clockTimer (w : Work) : (w.freeSlot).clockTimer = w.clockTimer := rfl
@[simp] theorem Work.freeSlot_schedulePolicy (w : Work) : (w.freeSlot).schedulePolicy = w.schedulePolicy := rfl
@[simp] theorem Work.freeSlot_override (w : Work) : (w.freeSlot).override = w.override := rfl
@[simp] theorem Work.freeSlot_retryHold (w : Work) : (w.freeSlot).retryHold = w.retryHold := rfl

/-! ### `Work.reloadIdle` -/

@[simp] theorem Work.reloadIdle_posts (w : Work) : (w.reloadIdle).posts = w.posts := rfl
@[simp] theorem Work.reloadIdle_phase (w : Work) : (w.reloadIdle).phase = w.phase := rfl
@[simp] theorem Work.reloadIdle_elapsed (w : Work) : (w.reloadIdle).elapsed = w.elapsed := rfl
@[simp] theorem Work.reloadIdle_freeDraws (w : Work) : (w.reloadIdle).freeDraws = w.freeDraws := rfl
@[simp] theorem Work.reloadIdle_startUpTimer (w : Work) : (w.reloadIdle).startUpTimer = w.startUpTimer := rfl
@[simp] theorem Work.reloadIdle_rate (w : Work) : (w.reloadIdle).rate = w.rate := rfl
@[simp] theorem Work.reloadIdle_startUpCause (w : Work) : (w.reloadIdle).startUpCause = w.startUpCause := rfl
@[simp] theorem Work.reloadIdle_interrupted (w : Work) : (w.reloadIdle).interrupted = w.interrupted := rfl
@[simp] theorem Work.reloadIdle_image (w : Work) : (w.reloadIdle).image = w.image := rfl
@[simp] theorem Work.reloadIdle_foundImage (w : Work) : (w.reloadIdle).foundImage = w.foundImage := rfl
@[simp] theorem Work.reloadIdle_loadSlot (w : Work) : (w.reloadIdle).loadSlot = w.loadSlot := rfl
@[simp] theorem Work.reloadIdle_loadBuffer (w : Work) : (w.reloadIdle).loadBuffer = w.loadBuffer := rfl
@[simp] theorem Work.reloadIdle_loadIdleTimer (w : Work) : (w.reloadIdle).loadIdleTimer = some (w.elapsed + Config.loadIdleTime) := rfl
@[simp] theorem Work.reloadIdle_readback (w : Work) : (w.reloadIdle).readback = w.readback := rfl
@[simp] theorem Work.reloadIdle_imageRecord (w : Work) : (w.reloadIdle).imageRecord = w.imageRecord := rfl
@[simp] theorem Work.reloadIdle_lastRecord (w : Work) : (w.reloadIdle).lastRecord = w.lastRecord := rfl
@[simp] theorem Work.reloadIdle_writing (w : Work) : (w.reloadIdle).writing = w.writing := rfl
@[simp] theorem Work.reloadIdle_writeQueue (w : Work) : (w.reloadIdle).writeQueue = w.writeQueue := rfl
@[simp] theorem Work.reloadIdle_tagCounter (w : Work) : (w.reloadIdle).tagCounter = w.tagCounter := rfl
@[simp] theorem Work.reloadIdle_pendingList (w : Work) : (w.reloadIdle).pendingList = w.pendingList := rfl
@[simp] theorem Work.reloadIdle_transition (w : Work) : (w.reloadIdle).transition = w.transition := rfl
@[simp] theorem Work.reloadIdle_consentTimer (w : Work) : (w.reloadIdle).consentTimer = w.consentTimer := rfl
@[simp] theorem Work.reloadIdle_deferTimer (w : Work) : (w.reloadIdle).deferTimer = w.deferTimer := rfl
@[simp] theorem Work.reloadIdle_consentPolicy (w : Work) : (w.reloadIdle).consentPolicy = w.consentPolicy := rfl
@[simp] theorem Work.reloadIdle_aux (w : Work) : (w.reloadIdle).aux = w.aux := rfl
@[simp] theorem Work.reloadIdle_contactors (w : Work) : (w.reloadIdle).contactors = w.contactors := rfl
@[simp] theorem Work.reloadIdle_driver (w : Work) : (w.reloadIdle).driver = w.driver := rfl
@[simp] theorem Work.reloadIdle_stations (w : Work) : (w.reloadIdle).stations = w.stations := rfl
@[simp] theorem Work.reloadIdle_scanList (w : Work) : (w.reloadIdle).scanList = w.scanList := rfl
@[simp] theorem Work.reloadIdle_measurement (w : Work) : (w.reloadIdle).measurement = w.measurement := rfl
@[simp] theorem Work.reloadIdle_lastEntry (w : Work) : (w.reloadIdle).lastEntry = w.lastEntry := rfl
@[simp] theorem Work.reloadIdle_clock (w : Work) : (w.reloadIdle).clock = w.clock := rfl
@[simp] theorem Work.reloadIdle_clockTimer (w : Work) : (w.reloadIdle).clockTimer = w.clockTimer := rfl
@[simp] theorem Work.reloadIdle_schedulePolicy (w : Work) : (w.reloadIdle).schedulePolicy = w.schedulePolicy := rfl
@[simp] theorem Work.reloadIdle_override (w : Work) : (w.reloadIdle).override = w.override := rfl
@[simp] theorem Work.reloadIdle_retryHold (w : Work) : (w.reloadIdle).retryHold = w.retryHold := rfl

/-! ### The working record of a station -/

@[simp] theorem StationWork.post_carrier (n : Notice) (w : StationWork) : (w.post n).carrier = w.carrier := rfl
@[simp] theorem StationWork.post_activePattern (n : Notice) (w : StationWork) : (w.post n).activePattern = w.activePattern := rfl
@[simp] theorem StationWork.post_channels (n : Notice) (w : StationWork) : (w.post n).channels = w.channels := rfl
@[simp] theorem StationWork.post_reference (n : Notice) (w : StationWork) : (w.post n).reference = w.reference := rfl
@[simp] theorem StationWork.post_arrayStatus (n : Notice) (w : StationWork) : (w.post n).arrayStatus = w.arrayStatus := rfl
@[simp] theorem StationWork.post_scanStay (n : Notice) (w : StationWork) : (w.post n).scanStay = w.scanStay := rfl
@[simp] theorem StationWork.post_out (n : Notice) (w : StationWork) : (w.post n).out = w.out ++ [n] := rfl

/-! ### Ports and the whole state -/

@[simp] theorem State.onPort_toPlant (x : Station) (f : Port → Port) (s : State) : (s.onPort x f).toPlant = s.toPlant := rfl
@[simp] theorem State.onPort_pending (x : Station) (f : Port → Port) (s : State) : (s.onPort x f).pending = s.pending := rfl
@[simp] theorem State.onPort_ports (x : Station) (f : Port → Port) (s : State) : (s.onPort x f).ports = s.ports.set x (f (s.ports.get x)) := rfl
@[simp] theorem State.placeReply_toPlant (x : Station) (b : List Byte) (s : State) : (s.placeReply x b).toPlant = s.toPlant := rfl
@[simp] theorem State.placeReply_pending (x : Station) (b : List Byte) (s : State) : (s.placeReply x b).pending = s.pending := rfl
@[simp] theorem State.reach_ports (t : Nat) (s : State) : (s.reach t).ports = s.ports := rfl
@[simp] theorem State.reach_pending (t : Nat) (s : State) : (s.reach t).pending = s.pending := rfl
@[simp] theorem State.reach_toPlant (t : Nat) (s : State) : (s.reach t).toPlant = { s.toPlant with elapsed := max s.elapsed t } := rfl
@[simp] theorem Port.frameClosed_fifo (p : Port) : p.frameClosed.fifo = p.fifo := rfl
@[simp] theorem Port.frameClosed_assembler (p : Port) : p.frameClosed.assembler = .opened := rfl
@[simp] theorem Port.frameClosed_content (p : Port) : p.frameClosed.content = [] := rfl
@[simp] theorem Port.frameClosed_damaged (p : Port) : p.frameClosed.damaged = false := rfl
@[simp] theorem Port.frameClosed_heldFrame (p : Port) : p.frameClosed.heldFrame = p.heldFrame := rfl
@[simp] theorem Port.frameClosed_line (p : Port) : p.frameClosed.line = .delimiter := rfl
@[simp] theorem Port.frameClosed_gapTimer (p : Port) : p.frameClosed.gapTimer = none := rfl
@[simp] theorem Port.frameClosed_lineLow (p : Port) : p.frameClosed.lineLow = p.lineLow := rfl
@[simp] theorem Port.frameClosed_reply (p : Port) : p.frameClosed.reply = p.reply := rfl
@[simp] theorem Port.frameClosed_notices (p : Port) : p.frameClosed.notices = p.notices := rfl
@[simp] theorem Port.frameClosed_lost (p : Port) : p.frameClosed.lost = p.lost := rfl
@[simp] theorem Port.frameClosed_dropped (p : Port) : p.frameClosed.dropped = p.dropped := rfl
@[simp] theorem Port.frameClosed_flowState (p : Port) : p.frameClosed.flowState = p.flowState := rfl
@[simp] theorem Port.frameClosed_flowQueued (p : Port) : p.frameClosed.flowQueued = p.flowQueued := rfl
@[simp] theorem Port.frameClosed_running (p : Port) : p.frameClosed.running = p.running := rfl
@[simp] theorem Port.frameClosed_frame (p : Port) : p.frameClosed.frame = p.frame := rfl
@[simp] theorem Port.frameClosed_char (p : Port) : p.frameClosed.char = p.char := rfl
@[simp] theorem Port.broken_fifo (p : Port) : p.broken.fifo = Port.reset.fifo := rfl
@[simp] theorem Port.broken_assembler (p : Port) : p.broken.assembler = Port.reset.assembler := rfl
@[simp] theorem Port.broken_content (p : Port) : p.broken.content = Port.reset.content := rfl
@[simp] theorem Port.broken_damaged (p : Port) : p.broken.damaged = Port.reset.damaged := rfl
@[simp] theorem Port.broken_heldFrame (p : Port) : p.broken.heldFrame = Port.reset.heldFrame := rfl
@[simp] theorem Port.broken_line (p : Port) : p.broken.line = Port.reset.line := rfl
@[simp] theorem Port.broken_gapTimer (p : Port) : p.broken.gapTimer = Port.reset.gapTimer := rfl
@[simp] theorem Port.broken_lineLow (p : Port) : p.broken.lineLow = true := rfl
@[simp] theorem Port.broken_reply (p : Port) : p.broken.reply = Port.reset.reply := rfl
@[simp] theorem Port.broken_notices (p : Port) : p.broken.notices = Port.reset.notices := rfl
@[simp] theorem Port.broken_lost (p : Port) : p.broken.lost = Port.reset.lost := rfl
@[simp] theorem Port.broken_dropped (p : Port) : p.broken.dropped = p.dropped := rfl
@[simp] theorem Port.broken_flowState (p : Port) : p.broken.flowState = Port.reset.flowState := rfl
@[simp] theorem Port.broken_flowQueued (p : Port) : p.broken.flowQueued = Port.reset.flowQueued := rfl
@[simp] theorem Port.broken_running (p : Port) : p.broken.running = Port.reset.running := rfl
@[simp] theorem Port.broken_frame (p : Port) : p.broken.frame = Port.reset.frame := rfl
@[simp] theorem Port.broken_char (p : Port) : p.broken.char = p.char.map TxChar.orphaned := rfl

@[simp] theorem State.onPort_onPort (x : Station) (f g : Port → Port) (s : State) :
    (s.onPort x f).onPort x g = s.onPort x fun p => g (f p) := by
  cases x <;> rfl
@[simp] theorem Work.postAll_toPlant (xs : List Station) (n : Notice) (w : Work) : (w.postAll xs n).toPlant = w.toPlant := by
  unfold Work.postAll
  induction xs generalizing w with
  | nil => rfl
  | cons x xs ih => rw [List.foldl_cons, ih, Work.post_toPlant]
theorem Work.postAll_posts (xs : List Station) (n : Notice) (w : Work) :
    (w.postAll xs n).posts = w.posts ++ xs.map fun x => (x, n) := by
  unfold Work.postAll
  induction xs generalizing w with
  | nil => simp
  | cons x xs ih => rw [List.foldl_cons, ih]; simp
@[simp] theorem State.deliver_toPlant (posts : List (Station × Notice)) (s : State) :
    (s.deliver posts).toPlant = s.toPlant := by
  unfold State.deliver
  induction posts generalizing s with
  | nil => rfl
  | cons q posts ih => rw [List.foldl_cons, ih, State.onPort_toPlant]
@[simp] theorem State.deliver_pending (posts : List (Station × Notice)) (s : State) :
    (s.deliver posts).pending = s.pending := by
  unfold State.deliver
  induction posts generalizing s with
  | nil => rfl
  | cons q posts ih => rw [List.foldl_cons, ih, State.onPort_pending]
@[simp] theorem State.deliver_nil (s : State) : s.deliver [] = s := rfl
@[simp] theorem State.finish_toPlant (w : Work) (s : State) : (s.finish w).toPlant = w.toPlant := by simp [State.finish]
@[simp] theorem State.finish_pending (w : Work) (s : State) : (s.finish w).pending = s.pending := by simp [State.finish]
@[simp] theorem State.event_pending (f : Work → Work) (s : State) : (s.event f).pending = s.pending := by
  simp [State.event]
theorem State.event_toPlant (f : Work → Work) (s : State) :
    (s.event f).toPlant = ((f s.work).settleScan s.toPlant).toPlant := by simp [State.event]

end Machine
end Sys2Proof
end

