-- ==== Sys2Proof/Laws/Carrier.lean ====
section
/-! SUPPORT. What each operation of a Carrier Control Unit and of the Conformance Unit can do to its station's records:
every one keeps the carrier record sound. -/
namespace Sys2Proof
namespace Machine

/-- An operation of a station's units that keeps its carrier record sound. -/
def Keeps (f : Ctx → StationWork → StationWork) : Prop := ∀ c w, w.carrier.Sound → (f c w).carrier.Sound

/-! ### Operations that change nothing of the carrier record but its status fields -/

/-- Two carrier records that agree but for the fields no law speaks of. -/
structure Carrier.Alike (r r' : Carrier) : Prop where
  state : r'.state = r.state
  level : r'.level = r.level
  ramp : r'.ramp = r.ramp
  muteConfirmed : r'.muteConfirmed = r.muteConfirmed
  muteTimer : r'.muteTimer = r.muteTimer
  rfPresent : r'.rfPresent = r.rfPresent
  passCount : r'.passCount = r.passCount
  verifyTimer : r'.verifyTimer = r.verifyTimer
  holdTimer : r'.holdTimer = r.holdTimer

theorem Carrier.Alike.refl (r : Carrier) : r.Alike r := ⟨rfl, rfl, rfl, rfl, rfl, rfl, rfl, rfl, rfl⟩

theorem Carrier.Alike.trans {r s t : Carrier} (h : r.Alike s) (k : s.Alike t) : r.Alike t :=
  ⟨k.1.trans h.1, k.2.trans h.2, k.3.trans h.3, k.4.trans h.4, k.5.trans h.5, k.6.trans h.6, k.7.trans h.7, k.8.trans h.8,
    k.9.trans h.9⟩

theorem Carrier.Alike.sound {r r' : Carrier} (h : r.Alike r') (k : r.Sound) : r'.Sound := by
  obtain ⟨h1, h2, h3, h4, h5, h6, h7, h8, h9⟩ := h
  obtain ⟨k1, k2, k3, k4, k5, k6, k7, k8, k9, k10⟩ := k
  constructor
  all_goals simp_all

theorem StationWork.notifyStatus_alike (w : StationWork) : w.carrier.Alike w.notifyStatus.carrier := by
  unfold StationWork.notifyStatus
  split
  · exact ⟨rfl, rfl, rfl, rfl, rfl, rfl, rfl, rfl, rfl⟩
  · exact Carrier.Alike.refl _

theorem StationWork.quietReport_alike (c : Ctx) (w : StationWork) : w.carrier.Alike (w.quietReport c).carrier := by
  unfold StationWork.quietReport
  dsimp only
  split
  · exact Carrier.Alike.refl _
  · exact ⟨rfl, rfl, rfl, rfl, rfl, rfl, rfl, rfl, rfl⟩

theorem StationWork.emptyWindows_alike (c : Ctx) (w : StationWork) : w.carrier.Alike (w.emptyWindows c).carrier :=
  StationWork.quietReport_alike c { w with channels := Vector.replicate 5 Channel.emptied }

theorem StationWork.setPattern_alike (p : Option PatternNo) (c : Ctx) (w : StationWork) :
    w.carrier.Alike (StationWork.setPattern p c w).carrier := by
  unfold StationWork.setPattern
  refine Carrier.Alike.trans ?_ (StationWork.quietReport_alike c _)
  exact ⟨rfl, rfl, rfl, rfl, rfl, rfl, rfl, rfl, rfl⟩

theorem StationWork.setPattern_keeps (p : Option PatternNo) : Keeps (StationWork.setPattern p) :=
  fun c w h => (StationWork.setPattern_alike p c w).sound h

/-! ### Status reports -/

theorem StationWork.superviseHold_sound (c : Ctx) (before : Status) (w : StationWork) (h : w.carrier.Sound) :
    (w.superviseHold c before).carrier.Sound := by
  unfold StationWork.superviseHold
  split
  · next hn =>
    split
    · split
      · exact h
      · exact { h with holdTimer_normal := fun _ => hn }
    · exact { h with holdTimer_normal := fun _ => hn }
  · exact h

theorem StationWork.takeStatus_sound (c : Ctx) (status : Status) (w : StationWork) (h : w.carrier.Sound) :
    (w.takeStatus c status).carrier.Sound := by
  unfold StationWork.takeStatus
  refine (StationWork.notifyStatus_alike _).sound (StationWork.superviseHold_sound c _ _ ?_)
  exact (⟨rfl, rfl, rfl, rfl, rfl, rfl, rfl, rfl, rfl⟩ :
    w.carrier.Alike { w.carrier with lastStatus := status }).sound h

theorem StationWork.statusReport_sound (c : Ctx) (w : StationWork) (h : w.carrier.Sound) :
    (w.statusReport c).carrier.Sound := by
  unfold StationWork.statusReport
  dsimp only
  split
  · exact h
  · exact StationWork.takeStatus_sound c _ w h

theorem StationWork.staleExpiry_keeps (i : TowerNo) : Keeps (StationWork.staleExpiry i) := by
  intro c w h
  unfold StationWork.staleExpiry
  split
  · exact h
  · exact StationWork.statusReport_sound c _ h

/-! ### Entries into a carrier state -/

/-- The record as an entry finds it, once it has left its old state: what the new state asks of level and ramp. -/
def CarrierState.ready (new : CarrierState) (r : Carrier) : Prop :=
  (new.inhibited = true → r.level = 0) ∧
  (new = .lowering → ∃ ramp, r.ramp = some ramp ∧ ramp.target < r.level) ∧
  (new = .raising → ∃ ramp, r.ramp = some ramp ∧ r.level < ramp.target) ∧
  (new ≠ .lowering → new ≠ .raising → r.ramp = none) ∧
  (∀ ramp, r.ramp = some ramp → ramp.purpose = .hold → ramp.target = 0)

/-- The fields of the states left behind are clear, as every sound record has them but for its own state's. -/
structure Carrier.Tidy (r : Carrier) : Prop where
  mute_held : r.muteConfirmed = true → r.state = .held ∧ r.rfPresent = some false
  muteTimer_held : r.muteTimer ≠ none → r.state = .held
  verifyTimer_verifying : r.verifyTimer ≠ none → r.state = .verifying
  passCount_verifying : r.passCount ≠ 0 → r.state = .verifying
  holdTimer_normal : r.holdTimer ≠ none → r.state = .normal

theorem Carrier.Sound.tidy {r : Carrier} (h : r.Sound) : r.Tidy := ⟨h.6, h.7, h.8, h.9, h.10⟩

/-- What leaving a state leaves behind: nothing of any state's own fields. -/
theorem Carrier.leave_spec (r : Carrier) (h : r.Tidy) :
    r.leave.level = r.level ∧ r.leave.ramp = r.ramp ∧ r.leave.rfPresent = r.rfPresent ∧ r.leave.muteConfirmed = false ∧
      r.leave.muteTimer = none ∧ r.leave.verifyTimer = none ∧ r.leave.passCount = 0 ∧ r.leave.holdTimer = none := by
  obtain ⟨h1, h2, h3, h4, h5⟩ := h
  have hm : r.state ≠ .held → r.muteConfirmed = false := fun hn => by
    cases hc : r.muteConfirmed
    · rfl
    · exact absurd (h1 hc).1 hn
  have ht : r.state ≠ .held → r.muteTimer = none := fun hn => by by_contra hc; exact hn (h2 hc)
  have hv : r.state ≠ .verifying → r.verifyTimer = none := fun hn => by by_contra hc; exact hn (h3 hc)
  have hp : r.state ≠ .verifying → r.passCount = 0 := fun hn => by by_contra hc; exact hn (h4 hc)
  have hh : r.state ≠ .normal → r.holdTimer = none := fun hn => by by_contra hc; exact hn (h5 hc)
  unfold Carrier.leave
  rcases hs : r.state <;> rw [hs] at hm ht hv hp hh <;> simp_all

theorem Carrier.enter_sound (c : Ctx) (new : CarrierState) (r : Carrier) (hr : new.ready r)
    (hc : r.muteConfirmed = false ∧ r.muteTimer = none ∧ r.verifyTimer = none ∧ r.passCount = 0 ∧ r.holdTimer = none) :
    (r.enter c new).Sound := by
  obtain ⟨r1, r2, r3, r4, r5⟩ := hr
  obtain ⟨c1, c2, c3, c4, c5⟩ := hc
  cases new <;> constructor <;> simp_all [Carrier.enter, CarrierState.inhibited]

theorem Carrier.enter_leave_sound (c : Ctx) (new : CarrierState) (r : Carrier) (h : r.Tidy) (hr : new.ready r) :
    (r.leave.enter c new).Sound := by
  obtain ⟨h1, h2, -, h4⟩ := r.leave_spec h
  exact Carrier.enter_sound c new _ (by simpa only [CarrierState.ready, h1, h2] using hr) h4

theorem StationWork.settleIn_sound (c : Ctx) (w : StationWork) (h : w.carrier.Sound) : (w.settleIn c).carrier.Sound := by
  unfold StationWork.settleIn
  split
  · next hs =>
    refine (StationWork.notifyStatus_alike _).sound ((StationWork.emptyWindows_alike c _).sound ?_)
    exact { h with verifyTimer_verifying := fun _ => hs, passCount_verifying := fun _ => hs }
  · next hs =>
    refine (StationWork.notifyStatus_alike _).sound ?_
    split
    · exact { h with holdTimer_normal := fun _ => hs }
    · exact h
  · exact (StationWork.notifyStatus_alike _).sound h
  · exact h

/-- An entry into a state for which level and ramp stand ready leaves a sound record. -/
theorem StationWork.enterState_sound (new : CarrierState) (c : Ctx) (w : StationWork) (h : w.carrier.Tidy)
    (hr : new.ready w.carrier) : (w.enterState new c).carrier.Sound := by
  unfold StationWork.enterState
  refine StationWork.settleIn_sound c _ ?_
  have := Carrier.enter_leave_sound c new w.carrier h hr
  split <;> exact this

/-! ### Ramps and commands -/

theorem StationWork.completeRamp_sound (purpose : RampPurpose) (c : Ctx) (w : StationWork) (h : w.carrier.Tidy)
    (hz : purpose = .hold → w.carrier.level = 0) : (w.completeRamp purpose c).carrier.Sound := by
  unfold StationWork.completeRamp
  refine StationWork.enterState_sound _ c _ ⟨h.1, h.2, h.3, h.4, h.5⟩ ?_
  cases purpose <;> simp only [Carrier.completionState]
  case hold => exact ⟨fun _ => hz rfl, by simp, by simp, fun _ _ => rfl, by simp⟩
  case full => split <;> exact ⟨by simp [CarrierState.inhibited], by simp, by simp, fun _ _ => rfl, by simp⟩
  all_goals exact ⟨by simp [CarrierState.inhibited], by simp, by simp, fun _ _ => rfl, by simp⟩

theorem StationWork.rampTo_sound (ramp : Ramp) (c : Ctx) (w : StationWork) (h : w.carrier.Tidy)
    (hz : ramp.purpose = .hold → ramp.target = 0) : (w.rampTo ramp c).carrier.Sound := by
  unfold StationWork.rampTo
  split
  · next he => exact StationWork.completeRamp_sound _ c w h fun hp => by rw [← he]; exact hz hp
  · next hne =>
    refine StationWork.enterState_sound _ c _ ⟨h.1, h.2, h.3, h.4, h.5⟩ ?_
    split
    · next hlt =>
      exact ⟨by simp [CarrierState.inhibited], fun _ => ⟨ramp, rfl, hlt⟩, by simp, by simp,
        fun r hr hp => by cases hr; exact hz hp⟩
    · next hlt =>
      exact ⟨by simp [CarrierState.inhibited], by simp, fun _ => ⟨ramp, rfl, by dsimp only; omega⟩, by simp,
        fun r hr hp => by cases hr; exact hz hp⟩

theorem StationWork.lowerToHold_keeps : Keeps fun c w => StationWork.lowerToHold c w := by
  intro c w h
  dsimp only
  unfold StationWork.lowerToHold
  split
  · exact h
  · split
    · exact h
    · exact StationWork.rampTo_sound _ c w h.tidy fun _ => rfl

theorem StationWork.raiseToFull_keeps : Keeps StationWork.raiseToFull :=
  fun c w h => StationWork.rampTo_sound _ c w h.tidy fun hp => by cases hp

theorem StationWork.raiseToFault_keeps : Keeps StationWork.raiseToFault :=
  fun c w h => StationWork.rampTo_sound _ c w h.tidy fun hp => by cases hp

theorem StationWork.lowerToReduce_keeps : Keeps StationWork.lowerToReduce :=
  fun c w h => StationWork.rampTo_sound _ c w h.tidy fun hp => by cases hp

theorem StationWork.levelChange_keeps (previous : Option PatternNo) : Keeps (StationWork.levelChange previous) := by
  intro c w h
  refine StationWork.rampTo_sound _ c _ ?_ fun hp => by cases hp
  exact ⟨h.tidy.1, h.tidy.2, h.tidy.3, h.tidy.4, h.tidy.5⟩

theorem StationWork.goDark_keeps : Keeps StationWork.goDark := by
  intro c w h
  unfold StationWork.goDark
  split
  · exact h
  · refine StationWork.enterState_sound _ c _ ⟨h.6, h.7, h.8, h.9, h.10⟩ ?_
    exact ⟨fun _ => rfl, by simp, by simp, fun _ _ => rfl, by simp⟩

theorem StationWork.rampTick_keeps : Keeps StationWork.rampTick := by
  intro c w h
  unfold StationWork.rampTick
  split
  · exact h
  · next ramp hramp =>
    split
    · next hs =>
      dsimp only
      split
      · next he =>
        refine StationWork.completeRamp_sound _ c _ ⟨h.6, h.7, h.8, h.9, h.10⟩ fun hp => ?_
        dsimp only
        rw [he]
        exact h.hold_target ramp hramp hp
      · next hne =>
        have hin : w.carrier.state.inhibited = false := by rcases hs with hs | hs <;> rw [hs] <;> rfl
        refine { h with inhibited_level := ?_, ramp_lowering := ?_, ramp_raising := ?_ }
        · intro hi; rw [hin] at hi; cases hi
        · intro hl
          refine ⟨ramp, hramp, ?_⟩
          dsimp only at hl
          simp only [Carrier.steppedLevel, hl, if_true] at hne ⊢
          omega
        · intro hl
          refine ⟨ramp, hramp, ?_⟩
          dsimp only at hl
          simp only [Carrier.steppedLevel, hl, reduceCtorEq, if_false] at hne ⊢
          omega
    · exact h

theorem StationWork.stopMuteTimer_keeps : Keeps StationWork.stopMuteTimer :=
  fun _ _ h => { h with muteTimer_held := fun hn => absurd rfl hn }

theorem Carrier.takeRfPresent_sound (active : Bool) (r : Carrier) (h : r.Sound) : (r.takeRfPresent active).Sound := by
  refine { h with mute_held := ?_ }
  intro hm
  by_cases hs : r.state = .held
  · simp only [Carrier.takeRfPresent, hs, if_true] at hm ⊢
    exact ⟨trivial, by simpa using hm⟩
  · simp only [Carrier.takeRfPresent, hs, if_false] at hm
    exact absurd (h.mute_held hm).1 hs

/-! ### Verification and supervision -/

theorem StationWork.verified_sound (c : Ctx) (w : StationWork) (h : w.carrier.Tidy) (hn : w.carrier.ramp = none) :
    (w.verified c).carrier.Sound :=
  StationWork.enterState_sound .normal c w h
    ⟨by simp [CarrierState.inhibited], by simp, by simp, fun _ _ => hn, by simp [hn]⟩

theorem StationWork.evaluationReport_sound (c : Ctx) (w : StationWork) (h : w.carrier.Sound) :
    (w.evaluationReport c).carrier.Sound := by
  unfold StationWork.evaluationReport
  have ht := StationWork.takeStatus_sound c (w.toStationUnit.decideStatus c) w h
  dsimp only
  split
  · next hs =>
    have hp : ((w.takeStatus c (w.toStationUnit.decideStatus c)).carrier.ramp) = none :=
      ht.ramp_absent (by simp [hs]) (by simp [hs])
    split
    · exact StationWork.verified_sound c _ ⟨ht.6, ht.7, ht.8, fun _ => hs, ht.10⟩ hp
    · exact { ht with passCount_verifying := fun _ => hs }
  · exact ht

theorem StationWork.verifyFailed_keeps : Keeps StationWork.verifyFailed := by
  intro c w h
  unfold StationWork.verifyFailed
  exact StationWork.rampTo_sound _ c _ ⟨h.6, h.7, fun hv => absurd rfl hv, fun hv => absurd rfl hv, h.10⟩ fun hp => by cases hp

theorem StationWork.outOfTolerance_keeps : Keeps StationWork.outOfTolerance := by
  intro c w h
  unfold StationWork.outOfTolerance
  exact StationWork.rampTo_sound _ c _ ⟨h.6, h.7, h.8, h.9, fun hv => absurd rfl hv⟩ fun hp => by cases hp

theorem StationWork.judgeTowers_carrier (c : Ctx) (w : StationWork) : (w.judgeTowers c).carrier = w.carrier := by
  unfold StationWork.judgeTowers
  split <;> rfl

theorem StationWork.keptMeasurement_keeps (m : Measurement) (reference tower period delay : Nat) :
    Keeps (StationWork.keptMeasurement m reference tower period delay) := by
  intro c w h
  unfold StationWork.keptMeasurement
  dsimp only
  split
  · exact StationWork.statusReport_sound c _ h
  · exact StationWork.statusReport_sound c _ h
  · refine StationWork.evaluationReport_sound c _ ?_
    rw [StationWork.judgeTowers_carrier]
    exact h

end Machine
end Sys2Proof
end

