-- ==== Sys2Proof/Laws/Engine.lean ====
section
/-! SUPPORT. What the Transition Engine, the coil driver and the schedule evaluation can do, said once for each of their
operations: it is made of carrier commands and of changes to the engine's own fields, the driver's, the contactors' live
records, the overrides and retry holds, and the last-state writes. Nothing else of the part changes. -/
namespace Sys2Proof
namespace Machine

/-- The carrier commands the Transition Engine gives. -/
inductive CarrierCommand : (Ctx → StationWork → StationWork) → Prop where
  | setPattern (p : Option PatternNo) : CarrierCommand (StationWork.setPattern p)
  | lowerToHold : CarrierCommand StationWork.lowerToHold
  | raiseToFull : CarrierCommand StationWork.raiseToFull
  | raiseToFault : CarrierCommand StationWork.raiseToFault
  | levelChange (p : Option PatternNo) : CarrierCommand (StationWork.levelChange p)
  | goDark : CarrierCommand StationWork.goDark
  | stopMuteTimer : CarrierCommand StationWork.stopMuteTimer

theorem CarrierCommand.keeps {f : Ctx → StationWork → StationWork} (h : CarrierCommand f) : Keeps f := by
  cases h
  · exact StationWork.setPattern_keeps _
  · exact StationWork.lowerToHold_keeps
  · exact StationWork.raiseToFull_keeps
  · exact StationWork.raiseToFault_keeps
  · exact StationWork.levelChange_keeps _
  · exact StationWork.goDark_keeps
  · exact StationWork.stopMuteTimer_keeps

/-- The part with all that the engine may change set aside: two parts that agree in this agree in every other field. -/
def Plant.outside (p : Plant) : Plant :=
  { p with
    imageRecord := ⟨.blank, p.imageRecord.bytes⟩
    lastRecord := .blank
    writing := none
    writeQueue := []
    tagCounter := 1
    pendingList := []
    transition := none
    consentTimer := none
    deferTimer := none
    contactors := State.reset.contactors
    driver := none
    stations := State.reset.stations
    override := State.reset.override
    retryHold := State.reset.retryHold }

/-- The writes a part holds, in progress or waiting. -/
def Plant.jobs (p : Plant) : List WriteJob := (p.writing.map fun g => g.job).toList ++ p.writeQueue

/-- One work record comes from another by moves of the engine. -/
inductive Moves (v : Work) : Work → Prop where
  | refl : Moves v v
  | command {w : Work} (x : Station) (f : Ctx → StationWork → StationWork) :
      Moves v w → CarrierCommand f → Moves v (w.onStation x f)
  | own {w w' : Work} : Moves v w → w'.outside = w.outside → w'.stations = w.stations →
      (∀ j ∈ w'.jobs, j ∈ w.jobs ∨ j.isImage = false) → (∃ l, w'.posts = w.posts ++ l) → Moves v w'

theorem Moves.trans {u v w : Work} (h : Moves u v) (k : Moves v w) : Moves u w := by
  induction k with
  | refl => exact h
  | command x f _ hf ih => exact .command x f ih hf
  | own _ h1 h2 h3 h4 ih => exact .own ih h1 h2 h3 h4

theorem Moves.after {u v w : Work} (k : Moves v w) (h : Moves u v) : Moves u w := h.trans k

/-- A change of the engine's own fields, with the writes and the notices as they were. -/
theorem Moves.change {w w' : Work} (h : w'.outside = w.outside) (hs : w'.stations = w.stations) (hj : w'.jobs = w.jobs)
    (hp : w'.posts = w.posts) : Moves w w' := .own .refl h hs (fun _ hm => .inl (hj ▸ hm)) ⟨[], by simp [hp]⟩

/-! ### What follows from being moves of the engine -/

theorem Work.onStation_outside (x : Station) (f : Ctx → StationWork → StationWork) (w : Work) :
    (w.onStation x f).outside = w.outside := rfl

/-- Every field that is not the engine's to change is as it was. -/
theorem Moves.outside {v w : Work} (h : Moves v w) : w.outside = v.outside := by
  induction h with
  | refl => rfl
  | command x f _ _ ih => rw [Work.onStation_outside, ih]
  | own _ h1 _ _ _ ih => rw [h1, ih]

/-! One lemma per field that the engine leaves alone. -/

theorem Moves.phase {v w : Work} (h : Moves v w) : w.phase = v.phase := by
  have := congrArg Plant.phase h.outside
  exact this
theorem Moves.elapsed {v w : Work} (h : Moves v w) : w.elapsed = v.elapsed := by
  have := congrArg Plant.elapsed h.outside
  exact this
theorem Moves.freeDraws {v w : Work} (h : Moves v w) : w.freeDraws = v.freeDraws := by
  have := congrArg Plant.freeDraws h.outside
  exact this
theorem Moves.startUpTimer {v w : Work} (h : Moves v w) : w.startUpTimer = v.startUpTimer := by
  have := congrArg Plant.startUpTimer h.outside
  exact this
theorem Moves.rate {v w : Work} (h : Moves v w) : w.rate = v.rate := by
  have := congrArg Plant.rate h.outside
  exact this
theorem Moves.startUpCause {v w : Work} (h : Moves v w) : w.startUpCause = v.startUpCause := by
  have := congrArg Plant.startUpCause h.outside
  exact this
theorem Moves.interrupted {v w : Work} (h : Moves v w) : w.interrupted = v.interrupted := by
  have := congrArg Plant.interrupted h.outside
  exact this
theorem Moves.image {v w : Work} (h : Moves v w) : w.image = v.image := by
  have := congrArg Plant.image h.outside
  exact this
theorem Moves.foundImage {v w : Work} (h : Moves v w) : w.foundImage = v.foundImage := by
  have := congrArg Plant.foundImage h.outside
  exact this
theorem Moves.loadSlot {v w : Work} (h : Moves v w) : w.loadSlot = v.loadSlot := by
  have := congrArg Plant.loadSlot h.outside
  exact this
theorem Moves.loadBuffer {v w : Work} (h : Moves v w) : w.loadBuffer = v.loadBuffer := by
  have := congrArg Plant.loadBuffer h.outside
  exact this
theorem Moves.loadIdleTimer {v w : Work} (h : Moves v w) : w.loadIdleTimer = v.loadIdleTimer := by
  have := congrArg Plant.loadIdleTimer h.outside
  exact this
theorem Moves.readback {v w : Work} (h : Moves v w) : w.readback = v.readback := by
  have := congrArg Plant.readback h.outside
  exact this
theorem Moves.consentPolicy {v w : Work} (h : Moves v w) : w.consentPolicy = v.consentPolicy := by
  have := congrArg Plant.consentPolicy h.outside
  exact this
theorem Moves.aux {v w : Work} (h : Moves v w) : w.aux = v.aux := by
  have := congrArg Plant.aux h.outside
  exact this
theorem Moves.scanList {v w : Work} (h : Moves v w) : w.scanList = v.scanList := by
  have := congrArg Plant.scanList h.outside
  exact this
theorem Moves.measurement {v w : Work} (h : Moves v w) : w.measurement = v.measurement := by
  have := congrArg Plant.measurement h.outside
  exact this
theorem Moves.lastEntry {v w : Work} (h : Moves v w) : w.lastEntry = v.lastEntry := by
  have := congrArg Plant.lastEntry h.outside
  exact this
theorem Moves.clock {v w : Work} (h : Moves v w) : w.clock = v.clock := by
  have := congrArg Plant.clock h.outside
  exact this
theorem Moves.clockTimer {v w : Work} (h : Moves v w) : w.clockTimer = v.clockTimer := by
  have := congrArg Plant.clockTimer h.outside
  exact this
theorem Moves.schedulePolicy {v w : Work} (h : Moves v w) : w.schedulePolicy = v.schedulePolicy := by
  have := congrArg Plant.schedulePolicy h.outside
  exact this
theorem Moves.imageBytes {v w : Work} (h : Moves v w) : w.imageRecord.bytes = v.imageRecord.bytes := by
  have := congrArg (fun p : Plant => p.imageRecord.bytes) h.outside
  exact this

/-- Every write is one there was before or a last-state write. -/
theorem Moves.jobs {v w : Work} (h : Moves v w) : ∀ j ∈ w.jobs, j ∈ v.jobs ∨ j.isImage = false := by
  induction h with
  | refl => exact fun j hj => .inl hj
  | command x f _ _ ih => exact ih
  | own _ _ _ h3 _ ih =>
    intro j hj
    rcases h3 j hj with h | h
    · exact ih j h
    · exact .inr h

/-- The notices posted stay posted. -/
theorem Moves.posts {v w : Work} (h : Moves v w) : ∃ l, w.posts = v.posts ++ l := by
  induction h with
  | refl => exact ⟨[], by simp⟩
  | command x f _ _ ih =>
    obtain ⟨l, hl⟩ := ih
    exact ⟨_, by rw [Work.onStation_posts, hl, List.append_assoc]⟩
  | own _ _ _ _ h4 ih =>
    obtain ⟨l, hl⟩ := ih
    obtain ⟨l', hl'⟩ := h4
    exact ⟨_, by rw [hl', hl, List.append_assoc]⟩

/-- Station `x`'s carrier record after an operation of station `y`'s units. -/
theorem Work.onStation_carrier (x y : Station) (f : Ctx → StationWork → StationWork) (w : Work) :
    (w.onStation y f).carrier x =
      if x = y then (f (w.toPlant.ctx y) { toStationUnit := w.stations.get y, out := [] }).carrier else w.carrier x := by
  cases x <;> cases y <;> rfl

/-- An operation that keeps records sound keeps both stations' records sound. -/
theorem Work.onStation_carriersSound (x : Station) (f : Ctx → StationWork → StationWork) (w : Work) (hf : Keeps f)
    (h : w.CarriersSound) : (w.onStation x f).CarriersSound := by
  intro y
  rw [Work.onStation_carrier]
  split
  · exact hf _ _ (h x)
  · exact h y

/-- Sound carrier records stay sound. -/
theorem Moves.carriersSound {v w : Work} (h : Moves v w) (hv : v.CarriersSound) : w.CarriersSound := by
  induction h with
  | refl => exact hv
  | command x f _ hf ih => exact Work.onStation_carriersSound x f _ hf.keeps ih
  | own _ _ h2 _ _ ih =>
    intro x
    have := ih x
    simpa only [Plant.carrier, h2] using this

/-! ### The primitives -/

theorem Work.onStation_moves (x : Station) {f : Ctx → StationWork → StationWork} (hf : CarrierCommand f) (w : Work) :
    Moves w (w.onStation x f) := .command x f .refl hf

theorem Work.setPattern_moves (x : Station) (p : Option PatternNo) (w : Work) : Moves w (w.setPattern x p) :=
  w.onStation_moves x (.setPattern p)

theorem Work.post_moves (x : Station) (n : Notice) (w : Work) : Moves w (w.post x n) :=
  .own .refl rfl rfl (fun _ h => .inl h) ⟨[(x, n)], rfl⟩

theorem Work.postAll_moves (xs : List Station) (n : Notice) (w : Work) : Moves w (w.postAll xs n) := by
  refine .own .refl ?_ ?_ ?_ ⟨_, Work.postAll_posts xs n w⟩
  · rw [Work.postAll_toPlant]
  · rw [Work.postAll_toPlant]
  · rw [Work.postAll_toPlant]
    exact fun _ h => .inl h

theorem Work.onTransition_moves (f : Transition → Transition) (w : Work) : Moves w (w.onTransition f) :=
  .change rfl rfl rfl rfl

theorem Work.onLive_moves (k : ContactorNo) (f : Live → Live) (w : Work) : Moves w (w.onLive k f) :=
  .change rfl rfl rfl rfl

theorem Work.stopDriver_moves (w : Work) : Moves w w.stopDriver := .change rfl rfl rfl rfl

theorem Work.reportEnd_moves (x : Station) (source : Source) (result : Result) (w : Work) :
    Moves w (w.reportEnd x source result) := by
  unfold Work.reportEnd
  split
  · exact .change rfl rfl rfl rfl
  · exact .refl

theorem Work.clearHolds_moves (w : Work) : Moves w w.clearHolds := .change rfl rfl rfl rfl

theorem Work.startNextWrite_moves (w : Work) : Moves w w.startNextWrite := by
  unfold Work.startNextWrite
  split
  · next job rest h1 h2 =>
    unfold Work.startWrite
    have hj : ∀ j, j = job ∨ j ∈ rest → j ∈ w.jobs := fun j h => by
      unfold Plant.jobs
      rw [h1, h2]
      simpa using h
    cases job with
    | image m => exact .own .refl rfl rfl (fun j h => .inl (hj j (by simpa [Plant.jobs] using h))) ⟨[], by simp⟩
    | lastState m => exact .own .refl rfl rfl (fun j h => .inl (hj j (by simpa [Plant.jobs] using h))) ⟨[], by simp⟩
  · exact .refl

theorem queueLastState_mem (content : LastState) (queue : List WriteJob) :
    ∀ j ∈ queueLastState content queue, j ∈ queue ∨ j.isImage = false := by
  intro j hj
  unfold queueLastState at hj
  split at hj
  · obtain ⟨i, hi, rfl⟩ := List.mem_map.1 hj
    cases hb : i.isImage
    · exact .inr rfl
    · exact .inl (by simpa using hi)
  · rcases List.mem_append.1 hj with h | h
    · exact .inl h
    · exact .inr (by rw [List.mem_singleton.1 h]; rfl)

theorem Work.handLastState_moves (marker : Bool) (w : Work) : Moves w (w.handLastState marker) := by
  unfold Work.handLastState
  refine Moves.trans (v := { w with writeQueue := queueLastState _ w.writeQueue }) ?_ (Work.startNextWrite_moves _)
  refine .own .refl rfl rfl (fun j h => ?_) ⟨[], by simp⟩
  rcases List.mem_append.1 h with h | h
  · exact .inl (List.mem_append.2 (.inl h))
  · rcases queueLastState_mem _ _ j h with h | h
    · exact .inl (List.mem_append.2 (.inr h))
    · exact .inr h

/-- Moves for each station of a list are moves. -/
theorem Moves.foldl {f : Work → Station → Work} (hf : ∀ w x, Moves w (f w x)) (xs : List Station) (w : Work) :
    Moves w (xs.foldl f w) := by
  induction xs generalizing w with
  | nil => exact .refl
  | cons x xs ih => exact (hf w x).trans (ih _)

/-! ### Ends of transitions and resolution -/

theorem Work.endTransition_moves (result : Result) (w : Work) : Moves w (w.endTransition result) := by
  unfold Work.endTransition
  split
  · exact .refl
  · exact (((Work.postAll_moves _ _ w).trans (Work.handLastState_moves _ _)).trans (Work.reportEnd_moves _ _ _ _)).trans
      (.change rfl rfl rfl rfl)

theorem Work.endPending_moves (e : PendingEntry) (result : Result) (w : Work) : Moves w (w.endPending e result) :=
  (Work.post_moves _ _ w).trans (Work.reportEnd_moves _ _ _ _)

theorem Work.raiseBack_moves (x : Station) (w : Work) : Moves w (w.raiseBack x) := by
  unfold Work.raiseBack
  split
  · exact .refl
  · split
    · exact w.onStation_moves x .raiseToFull
    · exact w.onStation_moves x .raiseToFault
    · exact .refl

theorem Work.raiseBackAll_moves (xs : List Station) (w : Work) : Moves w (w.raiseBackAll xs) :=
  Moves.foldl (fun w x => w.raiseBack_moves x) xs w

theorem Work.carryResolved_moves (x : Station) (choice : Option PatternNo) (w : Work) :
    Moves w (w.carryResolved x choice) := by
  unfold Work.carryResolved
  split
  · exact w.onStation_moves x .raiseToFull
  · exact w.onStation_moves x .goDark

theorem Work.resolve_moves (t : Transition) (x : Station) (w : Work) : Moves w (w.resolve t x) :=
  (Work.setPattern_moves x _ w).trans (Work.carryResolved_moves x _ _)

theorem Work.resolveAndEnd_moves (result : Result) (w : Work) : Moves w (w.resolveAndEnd result) := by
  unfold Work.resolveAndEnd
  split
  · exact .refl
  · next t _ =>
    exact ((Moves.foldl (fun w x => w.resolve_moves t x) _ w).trans (Work.handLastState_moves _ _)).trans
      (Work.endTransition_moves _ _)

/-! ### Moves of contactors -/

theorem Work.moveRefused_moves (w : Work) : Moves w w.moveRefused :=
  (Moves.trans (v := Work.onTransition _ { w with driver := none }) (.change rfl rfl rfl rfl)
    (Work.resolveAndEnd_moves _ _))

theorem Work.attempt_moves (move : Move) (w : Work) : Moves w (w.attempt move) := by
  unfold Work.attempt
  split
  · exact .change rfl rfl rfl rfl
  · exact Work.moveRefused_moves w

theorem Work.commandMove_moves (k : ContactorNo) (toPos : Side) (w : Work) : Moves w (w.commandMove k toPos) :=
  Work.attempt_moves _ w

theorem Work.restoreCheck_moves (w : Work) : Moves w w.restoreCheck := by
  unfold Work.restoreCheck
  split
  · exact .refl
  · split
    · exact Work.onTransition_moves _ w
    · exact Work.endTransition_moves _ w
    · exact Work.endTransition_moves _ w
    · exact Work.endTransition_moves _ w
    · exact .refl

theorem Work.switchSuccess_moves (t : Transition) (w : Work) : Moves w (w.switchSuccess t) := by
  unfold Work.switchSuccess
  refine (((Work.setPattern_moves _ _ w).trans (Work.onTransition_moves _ _)).trans (Moves.foldl (fun w x => ?_) _ _)).trans
    (Work.restoreCheck_moves _)
  split
  · exact w.onStation_moves x .raiseToFull
  · exact w.raiseBack_moves x

theorem Work.nextMove_moves (w : Work) : Moves w w.nextMove := by
  unfold Work.nextMove
  split
  · exact .refl
  · split
    · exact Work.commandMove_moves _ _ w
    · exact Work.switchSuccess_moves _ w

theorem Work.endReversalFor_moves (t : Transition) (x : Station) (w : Work) : Moves w (w.endReversalFor t x) := by
  unfold Work.endReversalFor
  split
  · exact .refl
  · split
    · exact w.raiseBack_moves x
    · exact w.resolve_moves t x

theorem Work.reversalComplete_moves (t : Transition) (w : Work) : Moves w (w.reversalComplete t) := by
  unfold Work.reversalComplete
  dsimp only
  split
  · exact ((Moves.foldl (fun w x => w.endReversalFor_moves t x) _ w).trans (Work.handLastState_moves _ _)).trans
      (Work.endTransition_moves _ _)
  · split
    · exact (Work.endTransition_moves _ _).after
        ((Moves.foldl (fun w x => w.endReversalFor_moves t x) _ _).after (Work.onTransition_moves _ w))
    · exact (Work.restoreCheck_moves _).after
        ((Moves.foldl (fun w x => w.endReversalFor_moves t x) _ _).after (Work.onTransition_moves _ w))

theorem Work.nextReversal_moves (w : Work) : Moves w w.nextReversal := by
  unfold Work.nextReversal
  split
  · exact .refl
  · split
    · exact Work.commandMove_moves _ _ w
    · exact Work.reversalComplete_moves _ w

theorem Work.beginReverse_moves (cause : ReversalCause) (w : Work) : Moves w (w.beginReverse cause) :=
  (Work.onTransition_moves _ w).trans (Work.nextReversal_moves _)

theorem Work.afterSwitchMove_moves (t : Transition) (o : MoveOutcome) (w : Work) : Moves w (w.afterSwitchMove t o) := by
  unfold Work.afterSwitchMove
  split
  · exact Work.beginReverse_moves _ w
  · exact Work.beginReverse_moves _ w
  · exact Work.beginReverse_moves _ w
  · split
    · exact Work.beginReverse_moves _ w
    · exact Work.nextMove_moves w
  · exact Work.moveRefused_moves w

theorem Work.afterReversal_moves (o : MoveOutcome) (w : Work) : Moves w (w.afterReversal o) := by
  unfold Work.afterReversal
  split
  · exact Work.nextReversal_moves w
  · exact Work.resolveAndEnd_moves _ w
  · exact Work.resolveAndEnd_moves _ w
  · exact Work.moveRefused_moves w
  · exact Work.moveRefused_moves w

theorem Work.moveOutcome_moves (k : ContactorNo) (o : MoveOutcome) (w : Work) : Moves w (w.moveOutcome k o) := by
  unfold Work.moveOutcome
  refine Moves.trans (v := Work.writeMoveOutcome k o { w with driver := none }) (.change rfl rfl rfl rfl) ?_
  dsimp only
  split
  · exact .refl
  · split
    · exact Work.resolveAndEnd_moves _ _
    · exact Work.afterSwitchMove_moves _ _ _
    · exact Work.afterReversal_moves _ _
    · exact .refl

/-! ### QUIESCE, PLAN and the pending list -/

theorem Work.enterSwitch_moves (t : Transition) (w : Work) : Moves w (w.enterSwitch t) := by
  unfold Work.enterSwitch
  exact (((Moves.foldl (fun w x => w.onStation_moves x .stopMuteTimer) _ w).trans (Work.onTransition_moves _ _)).trans
    (Work.handLastState_moves _ _)).trans (Work.nextMove_moves _)

theorem Work.quiesceCheck_moves (w : Work) : Moves w w.quiesceCheck := by
  unfold Work.quiesceCheck
  split
  · exact .refl
  · split
    · exact Work.enterSwitch_moves _ w
    · exact .refl

theorem Work.enterQuiesce_moves (w : Work) : Moves w w.enterQuiesce := by
  unfold Work.enterQuiesce
  split
  · exact .refl
  · exact ((Work.onTransition_moves _ w).trans (Moves.foldl (fun w x => w.onStation_moves x .lowerToHold) _ _)).trans
      (Work.quiesceCheck_moves _)

theorem Work.askConsent_moves (t : Transition) (w : Work) : Moves w (w.askConsent t) :=
  (Work.post_moves _ _ w).trans (.change rfl rfl rfl rfl)

theorem Work.announceStart_moves (t : Transition) (w : Work) : Moves w (w.announceStart t) := Work.postAll_moves _ _ w

theorem Work.beginLevelChange_moves (t : Transition) (w : Work) : Moves w (w.beginLevelChange t) :=
  ((((Work.onTransition_moves _ w).trans (Work.announceStart_moves t _)).trans (Work.setPattern_moves _ _ _)).trans
    (Work.onStation_moves _ (.levelChange _) _)).trans (Work.restoreCheck_moves _)

theorem Work.decideConsent_moves (t : Transition) (w : Work) : Moves w (w.decideConsent t) := by
  unfold Work.decideConsent
  split
  · split
    · exact Work.endTransition_moves _ w
    · exact (Work.announceStart_moves t w).trans (Work.askConsent_moves t _)
    · exact (Work.announceStart_moves t w).trans (Work.enterQuiesce_moves _)
  · exact (Work.announceStart_moves t w).trans (Work.enterQuiesce_moves _)

theorem Work.planMoves_moves (t : Transition) (w : Work) : Moves w (w.planMoves t) := by
  unfold Work.planMoves
  split
  · exact Work.endTransition_moves _ w
  · split
    · exact Work.endTransition_moves _ w
    · split
      · exact (Work.beginLevelChange_moves _ _).after (.change rfl rfl rfl rfl)
      · exact (Work.decideConsent_moves _ _).after (.change rfl rfl rfl rfl)

theorem Work.plan_moves (t : Transition) (w : Work) : Moves w (w.plan t) := by
  unfold Work.plan
  split
  · exact Work.endTransition_moves _ w
  · exact (Work.planMoves_moves _ _).after (.change rfl rfl rfl rfl)

theorem Work.examineFor_moves (n : Nat) (w : Work) : Moves w (w.examineFor n) := by
  induction n generalizing w with
  | zero => exact .refl
  | succ n ih =>
    unfold Work.examineFor
    split
    · exact .refl
    · split
      · exact (ih _).after ((Work.plan_moves _ _).after (.change rfl rfl rfl rfl))
      · exact .refl

theorem Work.examinePending_moves (w : Work) : Moves w w.examinePending := Work.examineFor_moves _ w

/-! ### Requests, withdraws and disturbances -/

theorem Work.dropPending_moves (x : Station) (result : Result) (w : Work) : Moves w (w.dropPending x result) := by
  unfold Work.dropPending
  split
  · exact .refl
  · exact (Work.endPending_moves _ _ _).after (.change rfl rfl rfl rfl)

theorem Work.enterPending_moves (e : PendingEntry) (w : Work) : Moves w (w.enterPending e) := by
  unfold Work.enterPending
  split
  · exact (Work.endPending_moves _ _ _).after (.change rfl rfl rfl rfl)
  · exact .change rfl rfl rfl rfl

theorem Work.setOverride_moves (x : Station) (o : Override) (w : Work) : Moves w (w.setOverride x o) :=
  .change rfl rfl rfl rfl

theorem Work.acceptRequest_moves (x : Station) (target : PatternNo) (source : Source) (w : Work) :
    Moves w (w.acceptRequest x target source) := by
  unfold Work.acceptRequest
  dsimp only
  split
  · exact (Work.setOverride_moves _ _ _).after ((Work.enterPending_moves _ _).after (.change rfl rfl rfl rfl))
  · exact (Work.enterPending_moves _ _).after (.change rfl rfl rfl rfl)

theorem Work.checkRequest_moves (x : Station) (target : Nat) (source : Source) (w : Work) :
    Moves w (w.checkRequest x target source).1 := by
  unfold Work.checkRequest
  split
  · exact .refl
  · split
    · exact .refl
    · split
      · exact .refl
      · split
        · exact Work.dropPending_moves x _ w
        · exact Work.acceptRequest_moves x _ _ w

theorem Work.submit_moves (x : Station) (target : Nat) (source : Source) (w : Work) :
    Moves w (w.submit x target source).1 :=
  (Work.checkRequest_moves x target source w).trans (Work.examinePending_moves _)

theorem Work.takeGrant_moves (w : Work) : Moves w w.takeGrant :=
  Moves.trans (v := Work.onTransition _ { w with consentTimer := none, deferTimer := none }) (.change rfl rfl rfl rfl)
    (Work.enterQuiesce_moves _)

theorem Work.takeDefer_moves (x : Station) (t : Transition) (w : Work) : Moves w (w.takeDefer x t) := by
  unfold Work.takeDefer
  split
  · exact .refl
  · dsimp only
    split
    · exact Work.endTransition_moves _ w
    · exact .change rfl rfl rfl rfl

theorem Work.consentReply_moves (x : Station) (tag answer : Nat) (w : Work) : Moves w (w.consentReply x tag answer).1 := by
  unfold Work.consentReply
  split
  · exact .refl
  · split
    · exact .refl
    · split
      · exact .refl
      · refine Moves.trans ?_ (Work.examinePending_moves _)
        split
        · exact Work.takeGrant_moves w
        · exact Work.takeDefer_moves x _ w

theorem Work.withdrawQuery_moves (t : Transition) (w : Work) : Moves w (w.withdrawQuery t) := by
  unfold Work.withdrawQuery
  split
  · exact Moves.trans (v := { w with consentTimer := none, deferTimer := none }) (.change rfl rfl rfl rfl)
      (Work.post_moves _ _ _)
  · exact .refl

theorem Work.withdrawInSwitch_moves (t : Transition) (w : Work) : Moves w (w.withdrawInSwitch t).1 := by
  unfold Work.withdrawInSwitch
  split
  · exact .refl
  · split
    · exact .refl
    · dsimp only
      split
      · exact (Work.stopDriver_moves w).trans (Work.onTransition_moves _ _)
      · exact ((Work.stopDriver_moves w).trans (Work.onTransition_moves _ _)).trans (Work.beginReverse_moves _ _)

theorem Work.withdrawActive_moves (t : Transition) (w : Work) : Moves w (w.withdrawActive t).1 := by
  unfold Work.withdrawActive
  split
  · exact (Work.withdrawQuery_moves t w).trans (Work.endTransition_moves _ _)
  · exact (Work.raiseBackAll_moves _ w).trans (Work.endTransition_moves _ _)
  · exact Work.withdrawInSwitch_moves t w
  all_goals exact .refl

theorem Work.withdraw_moves (x : Station) (w : Work) : Moves w (w.withdraw x).1 := by
  unfold Work.withdraw
  split
  · exact Work.dropPending_moves x _ w
  · split
    · split
      · exact (Work.withdrawActive_moves _ w).trans (Work.examinePending_moves _)
      · exact .refl
    · exact .refl

theorem Work.disturbSwitch_moves (result : Result) (w : Work) : Moves w (w.disturbSwitch result) := by
  unfold Work.disturbSwitch
  dsimp only
  split
  · exact (Work.onTransition_moves _ _).after (Work.stopDriver_moves w)
  · exact (Work.resolveAndEnd_moves _ _).after ((Work.onTransition_moves _ _).after (Work.stopDriver_moves w))

theorem Work.rfDisturbance_moves (x : Station) (w : Work) : Moves w (w.rfDisturbance x) := by
  unfold Work.rfDisturbance
  split
  · exact .refl
  · split
    · exact Work.disturbSwitch_moves _ w
    · exact .refl

theorem Work.arrayDisturbance_moves (w : Work) : Moves w w.arrayDisturbance := by
  unfold Work.arrayDisturbance
  split
  · exact .refl
  · split
    · exact (Work.withdrawQuery_moves _ w).trans (Work.endTransition_moves _ _)
    · exact (Work.raiseBackAll_moves _ w).trans (Work.endTransition_moves _ _)
    · exact Work.disturbSwitch_moves _ w
    · exact Work.disturbSwitch_moves _ w
    · split
      · exact Work.endTransition_moves _ w
      · exact .refl
    · split
      · exact Work.endTransition_moves _ w
      · exact .refl
    · exact .refl

/-! ### The drive and the schedule -/

theorem Work.postFault_moves (k : ContactorNo) (cause : FaultCause) (w : Work) : Moves w (w.postFault k cause) :=
  Work.postAll_moves _ _ w

theorem Work.breakMap_moves (before : Plant) (x : Station) (w : Work) : Moves w (w.breakMap before x) := by
  unfold Work.breakMap
  split
  · exact .refl
  · split
    · exact (Work.setPattern_moves x _ w).trans (Work.onStation_moves x .goDark _)
    · exact .refl

theorem Work.unexpectedMovement_moves (k : ContactorNo) (w : Work) : Moves w (w.unexpectedMovement k) :=
  ((((Work.onLive_moves k _ w).trans (Work.postFault_moves k _ _)).trans (Work.breakMap_moves _ .A _)).trans
    (Work.breakMap_moves _ .B _)).trans (Work.arrayDisturbance_moves _)

theorem Work.judgeCombination_moves (k : ContactorNo) (w : Work) : Moves w (w.judgeCombination k) := by
  unfold Work.judgeCombination
  split
  · exact Work.onLive_moves k _ w
  · split
    · exact .refl
    · split
      · exact .refl
      · exact Work.unexpectedMovement_moves k w

theorem Work.release_moves (x : Station) (index : Nat) (w : Work) : Moves w (w.release x index).1 := by
  unfold Work.release
  split
  · exact .refl
  · split
    · exact .refl
    · split
      · exact .refl
      · split
        · exact .refl
        · split
          · exact .refl
          · unfold Work.carryRelease
            split
            · exact .refl
            · split
              · exact (Work.onLive_moves _ _ w).trans (Work.postFault_moves _ _ _)
              · exact .refl

theorem Work.testOverride_moves (x : Station) (present : Recorded) (w : Work) : Moves w (w.testOverride x present) :=
  .change rfl rfl rfl rfl

theorem Work.fire_moves (x : Station) (target : Nat) (o : Occurrence) (w : Work) : Moves w (w.fire x target o) := by
  unfold Work.fire
  dsimp only
  split
  · exact (Work.submit_moves x target _ w).trans (Work.post_moves _ _ _)
  · exact Work.submit_moves x target _ w

theorem Work.evaluateStation_moves (m : Memory) (r : Reading) (x : Station) (w : Work) :
    Moves w (w.evaluateStation m r x) := by
  unfold Work.evaluateStation
  dsimp only
  split
  · exact Work.testOverride_moves x _ w
  · split
    · exact (Work.fire_moves _ _ _ _).after (Work.testOverride_moves x _ w)
    · exact Work.testOverride_moves x _ w

theorem Work.evaluate_moves (minuteTick : Bool) (w : Work) : Moves w (w.evaluate minuteTick) := by
  have deal (m : Memory) (r : Reading) (x : Station) (w : Work) :
      Moves w (Work.evaluateStation m r x (if minuteTick then w.decreaseHold x else w)) := by
    refine Moves.trans ?_ (Work.evaluateStation_moves m r x _)
    split
    · exact .change rfl rfl rfl rfl
    · exact .refl
  unfold Work.evaluate
  split
  · exact (deal _ _ .A w).trans (deal _ _ .B _)
  · exact .refl

end Machine
end Sys2Proof
end

