-- ==== Sys2Proof/Laws/Link.lean ====
section
/-! SUPPORT. What each operation of a Station Link Port can do: every one keeps the port within its sizes, and, but for
handing a frame on, leaves the rest of the part alone. -/
namespace Sys2Proof
namespace Machine

/-! ### Sizes -/

theorem Port.reset_bounded : Port.reset.Bounded := ⟨by decide, by decide, by decide, by decide, by decide⟩

theorem Port.post_bounded (n : Notice) (p : Port) (h : p.Bounded) : (p.post n).Bounded := by
  unfold Port.post
  split
  · next hl =>
    refine { h with notices := ?_ }
    simp only [List.length_append, List.length_singleton]
    omega
  · refine { h with lost := ?_ }
    dsimp only
    omega

theorem Port.dropFrame_bounded (next : AssemblerState) (p : Port) (h : p.Bounded) : (p.dropFrame next).Bounded := by
  refine { h with content := ?_, dropped := ?_ }
  · exact Nat.zero_le _
  · simp only [Port.dropFrame]
    omega

theorem Port.addContent_bounded (b : Byte) (p : Port) (h : p.Bounded) : (p.addContent b).Bounded := by
  unfold Port.addContent
  split
  · next hl =>
    refine { h with content := ?_ }
    simp only [List.length_append, List.length_singleton]
    omega
  · exact p.dropFrame_bounded _ h

theorem Port.takeContent_bounded (b : Byte) (p : Port) (h : p.Bounded) : (p.takeContent b).Bounded := by
  unfold Port.takeContent
  split
  · exact { h with }
  · exact p.addContent_bounded b h

theorem Port.closeFrame_bounded (p : Port) (h : p.Bounded) : p.closeFrame.1.Bounded := by
  unfold Port.closeFrame
  split
  · exact { h with content := Nat.zero_le _ }
  · exact p.dropFrame_bounded _ h

theorem Port.takeByte_bounded (b : Byte) (p : Port) (h : p.Bounded) : (p.takeByte b).1.Bounded := by
  unfold Port.takeByte
  split
  · dsimp only
    split
    · exact { h with }
    · exact h
  · dsimp only
    split
    · exact { h with }
    · exact h
  · dsimp only
    split
    · exact h
    · exact p.takeContent_bounded b h
  · split
    · exact p.closeFrame_bounded h
    · exact p.takeContent_bounded b h
  · dsimp only
    split
    · exact p.dropFrame_bounded _ h
    · split
      · exact p.addContent_bounded _ h
      · exact p.dropFrame_bounded _ h

theorem Port.takeLoss_bounded (p : Port) (h : p.Bounded) : p.takeLoss.Bounded := by
  unfold Port.takeLoss
  split
  · exact h
  · exact { h with }

theorem Port.takeGap_bounded (p : Port) (h : p.Bounded) : p.takeGap.Bounded := by
  unfold Port.takeGap
  split
  · exact h
  · exact { h with }
  · exact p.dropFrame_bounded _ h
  · exact p.dropFrame_bounded _ h
  · exact { h with }

theorem markLast_length (mark : FifoByte → FifoByte) (fifo : List FifoByte) : (markLast mark fifo).length = fifo.length := by
  induction fifo with
  | nil => rfl
  | cons f rest ih =>
    cases rest with
    | nil => rfl
    | cons g rest => simpa [markLast] using ih

theorem Port.enqueue_bounded (b : Byte) (p : Port) (h : p.Bounded) : (p.enqueue b).Bounded := by
  unfold Port.enqueue
  split
  · next hl =>
    have : (p.fifo ++ [(⟨b, false, false⟩ : FifoByte)]).length ≤ Config.fifoSize := by
      simp only [List.length_append, List.length_singleton]
      omega
    dsimp only
    split
    · exact { h with fifo := this }
    · exact { h with fifo := this }
  · exact { h with fifo := by dsimp only; rw [markLast_length]; exact h.fifo }

theorem Port.lineError_bounded (p : Port) (h : p.Bounded) : p.lineError.Bounded := by
  unfold Port.lineError
  split
  · exact p.takeLoss_bounded h
  · exact { h with fifo := by dsimp only; rw [markLast_length]; exact h.fifo }

theorem Port.gapExpired_bounded (p : Port) (h : p.Bounded) : p.gapExpired.Bounded := by
  unfold Port.gapExpired
  dsimp only
  split
  · exact Port.takeGap_bounded _ { h with }
  · exact { h with fifo := by dsimp only; rw [markLast_length]; exact h.fifo }

theorem Port.popped_bounded (rest : List FifoByte) (p : Port) (h : p.Bounded) (hl : rest.length ≤ Config.fifoSize) :
    (p.popped rest).Bounded := by
  unfold Port.popped
  dsimp only
  split
  · exact { h with fifo := hl }
  · exact { h with fifo := hl }

theorem Port.takeMarked_bounded (f : FifoByte) (p : Port) (h : p.Bounded) : (p.takeMarked f).1.Bounded := by
  unfold Port.takeMarked
  have h1 := p.takeByte_bounded f.byte h
  dsimp only
  split <;> split
  · exact Port.takeGap_bounded _ (Port.takeLoss_bounded _ h1)
  · exact Port.takeGap_bounded _ h1
  · exact Port.takeLoss_bounded _ h1
  · exact h1

theorem Port.restartGap_bounded (expiry : Nat) (p : Port) (h : p.Bounded) : (p.restartGap expiry).Bounded := by
  unfold Port.restartGap
  split
  · exact { h with }
  · exact h

theorem Port.trackLine_bounded (b : Byte) (expiry : Nat) (p : Port) (h : p.Bounded) : (p.trackLine b expiry).Bounded := by
  unfold Port.trackLine
  split
  · exact { h with }
  · split
    · exact h
    · exact { h with }
    · exact { h with }

theorem Port.transmit_bounded (due : Nat) (p : Port) (h : p.Bounded) : (p.transmit due).Bounded := by
  unfold Port.transmit
  split
  · exact h
  · split
    · exact { h with }
    · split
      · exact { h with }
      · exact h

theorem Port.endChar_bounded (c : TxChar) (p : Port) (h : p.Bounded) : (p.endChar c).Bounded := by
  have he : (Port.endFrame { p with char := none }).Bounded := by
    unfold Port.endFrame
    split
    · exact { h with }
    · exact { h with }
  unfold Port.endChar
  dsimp only
  split
  · exact { he with }
  · exact he

theorem Port.beginFrame_bounded (x : Station) (due : Nat) (p : Port) (h : p.Bounded) : (p.beginFrame x due).Bounded := by
  unfold Port.beginFrame
  split
  · exact Port.transmit_bounded due _ { h with }
  · next n rest _ hn =>
    refine Port.transmit_bounded due _ { h with notices := ?_, lost := Nat.zero_le _ }
    have := h.notices
    rw [hn, List.length_cons] at this
    dsimp only
    omega
  · exact h

theorem Port.frameClosed_bounded (p : Port) (h : p.Bounded) : p.frameClosed.Bounded :=
  { h with content := Nat.zero_le _ }

theorem Port.broken_bounded (p : Port) (h : p.Bounded) : p.broken.Bounded :=
  { Port.reset_bounded with dropped := h.dropped }

/-! ### The ports in the part -/

theorem State.onPort_portsBounded (x : Station) (f : Port → Port) (s : State) (hf : ∀ p : Port, p.Bounded → (f p).Bounded)
    (h : s.PortsBounded) : (s.onPort x f).PortsBounded := by
  intro y
  rw [State.onPort_ports]
  by_cases hy : y = x
  · subst hy
    rw [Pair.get_set_self]
    exact hf _ (h y)
  · rw [Pair.get_set_of_ne _ _ hy]
    exact h y

theorem State.deliver_portsBounded (posts : List (Station × Notice)) (s : State) (h : s.PortsBounded) :
    (s.deliver posts).PortsBounded := by
  unfold State.deliver
  induction posts generalizing s with
  | nil => exact h
  | cons q posts ih => exact ih _ (s.onPort_portsBounded q.1 _ (fun p hp => p.post_bounded q.2 hp) h)

/-- An event of the part's blocks touches the ports only by posting notices. -/
theorem State.event_portsBounded (f : Work → Work) (s : State) (h : s.PortsBounded) : (s.event f).PortsBounded :=
  State.deliver_portsBounded _ _ h

theorem State.placeReply_portsBounded (x : Station) (body : List Byte) (s : State) (h : s.PortsBounded) :
    (s.placeReply x body).PortsBounded := s.onPort_portsBounded x _ (fun _ hp => { hp with }) h

theorem State.handOn_portsBounded (x : Station) (body : List Byte) (s : State) (h : s.PortsBounded) :
    (s.handOn x body).PortsBounded := by
  unfold State.handOn
  split
  · exact State.placeReply_portsBounded x _ _ (State.event_portsBounded _ s h)
  · exact State.placeReply_portsBounded x _ s h

/-! ### Handing on: one rule for every property of a state

A property of states that handing a frame on keeps (from a state in service with an empty slot) and that a change of a
port keeps is kept by all that the links do. -/

/-- A property that the links' own work and the handing on of frames keep. -/
structure LinkKept (P : State → Prop) : Prop where
  hand : ∀ x body s, P s → s.slotEmpty x = true → P (s.handOn x body)
  port : ∀ x (f : Port → Port) s, P s → (∀ p : Port, p.Bounded → (f p).Bounded) → P (s.onPort x f)
  take : ∀ x f rest s, P s → (s.ports.get x).fifo = f :: rest → P (s.onPort x fun p => ((p.popped rest).takeMarked f).1)

theorem LinkKept.completeFrame {P : State → Prop} (hP : LinkKept P) (x : Station) (body : List Byte) (s : State) (h : P s) :
    P (s.completeFrame x body) := by
  unfold State.completeFrame
  split
  · next he => exact hP.hand x body s h he
  · exact hP.port x _ s h fun _ hp => { hp with }

theorem LinkKept.drain {P : State → Prop} (hP : LinkKept P) (x : Station) (n : Nat) (s : State) (h : P s) :
    P (s.drain x n) := by
  induction n generalizing s with
  | zero => exact h
  | succ n ih =>
    unfold State.drain
    dsimp only
    split
    · next f rest _ hf =>
      have h1 := hP.take x f rest s h hf
      refine ih _ ?_
      have he : (s.onPort x fun _ => (((s.ports.get x).popped rest).takeMarked f).1)
          = s.onPort x fun p => ((p.popped rest).takeMarked f).1 := rfl
      rw [he]
      unfold State.afterTake
      split
      · exact hP.completeFrame x _ _ h1
      · exact h1
    · exact h

theorem LinkKept.transmit {P : State → Prop} (hP : LinkKept P) (x : Station) (s : State) (h : P s) : P (s.transmit x) :=
  hP.port x _ s h fun p hp => p.transmit_bounded _ hp

theorem LinkKept.receiveChar {P : State → Prop} (hP : LinkKept P) (x : Station) (b : Byte) (stopLow : Bool) (s : State)
    (h : P s) : P (s.receiveChar x b stopLow) := by
  unfold State.receiveChar
  split
  · split
    · exact hP.port x _ s h fun p hp => Port.lineError_bounded _ (p.restartGap_bounded _ hp)
    · split
      · refine hP.transmit x _ (hP.port x _ s h fun p hp => ?_)
        exact { p.restartGap_bounded s.gapEnd hp with }
      · exact hP.transmit x _ (hP.drain x _ _
          (hP.port x _ s h fun p hp => Port.enqueue_bounded b _ (p.trackLine_bounded b _ hp)))
  · exact h

theorem LinkKept.receiveAll {P : State → Prop} (hP : LinkKept P) (x : Station) (bs : List Byte) (s : State) (h : P s) :
    P (bs.foldl (fun s b => s.receiveChar x b false) s) := by
  induction bs generalizing s with
  | nil => exact h
  | cons b bs ih => exact ih _ (hP.receiveChar x b false s h)

theorem LinkKept.receiveFrame {P : State → Prop} (hP : LinkKept P) (x : Station) (body : List Byte) (s : State) (h : P s) :
    P (s.receiveFrame x body) := by
  unfold State.receiveFrame
  split
  · split
    · exact hP.completeFrame x body _ (hP.port x _ s h fun p hp => p.frameClosed_bounded hp)
    · exact hP.receiveAll x _ s h
  · exact h

theorem LinkKept.resume {P : State → Prop} (hP : LinkKept P) (x : Station) (s : State) (h : P s) : P (s.resume x) := by
  unfold State.resume
  split
  · split
    · next he =>
      refine hP.transmit x _ (hP.drain x _ _ (hP.hand x _ _ (hP.port x _ s h fun _ hp => { hp with }) ?_))
      simpa only [State.slotEmpty, State.onPort_toPlant, State.onPort_ports, Pair.get_set_self] using he
    · exact h
  · exact h

theorem portsBounded_linkKept : LinkKept State.PortsBounded where
  hand x body s h _ := State.handOn_portsBounded x body s h
  port x f s h hf := s.onPort_portsBounded x f hf h
  take x f rest s h hf := by
    intro y
    rw [State.onPort_ports]
    by_cases hy : y = x
    · subst hy
      rw [Pair.get_set_self]
      refine Port.takeMarked_bounded f _ (Port.popped_bounded rest _ (h y) ?_)
      have := (h y).fifo
      rw [hf, List.length_cons] at this
      omega
    · rw [Pair.get_set_of_ne _ _ hy]
      exact h y

/-- A property of the part outside its ports that handing a frame on keeps is kept by all that the links do. -/
theorem linkKept_of_plant {P : Plant → Prop}
    (h : ∀ x body s, P s.toPlant → s.phase = .running → P (State.handOn x body s).toPlant) :
    LinkKept fun s => P s.toPlant where
  hand x body s hs he := by
    refine h x body s hs ?_
    simp only [State.slotEmpty, Bool.and_eq_true, beq_iff_eq] at he
    exact he.1
  port x f s hs _ := hs
  take x f rest s hs _ := hs

end Machine
end Sys2Proof
end

