-- ==== Sys2Proof/Laws/Commands.lean ====
section
/-! SUPPORT. What a command can do to the part outside its ports, said once for all commands: a chain of the primitive
changes below. A property of the part that each of them keeps is kept by every command (`exec_kept`) and by every
step (`step_kept`). -/
namespace Sys2Proof
namespace Machine

/-- What a station's own units do at an event, with the condition under which the event does it. -/
inductive StationEvent (p : Plant) (x : Station) : (Ctx → StationWork → StationWork) → Prop where
  | rampTick (due : Nat) : StationEvent p x fun c u =>
      StationWork.rampTick c { u with carrier := { u.carrier with rampTimer := some due } }
  | period (due : Nat) : StationEvent p x fun _ u =>
      { u with carrier := { u.carrier.beginPeriod with periodTimer := some due } }
  | takeRf (active : Bool) : StationEvent p x fun _ u => { u with carrier := u.carrier.takeRfPresent active }
  | rfNoticed : StationEvent p x fun _ u => { u with carrier := { u.carrier with rfNoticePosted := true } }
  | stopMute : StationEvent p x StationWork.stopMuteTimer
  | verifyFailed : (p.carrier x).state = .verifying → StationEvent p x StationWork.verifyFailed
  | outOfTolerance : (p.carrier x).state = .normal → StationEvent p x StationWork.outOfTolerance
  | stale (i : TowerNo) : StationEvent p x (StationWork.staleExpiry i)
  | measured (m : Measurement) (r t q d : Nat) : (p.carrier x).state.measured = true →
      StationEvent p x (StationWork.keptMeasurement m r t q d)

/-- One primitive change of the part outside its ports. -/
inductive Change : Plant → Plant → Prop where
  | engine {v w : Work} : Moves v w → Change v.toPlant w.toPlant
  | time (p : Plant) (t : Nat) : Change p { p with elapsed := t }
  | draw (p : Plant) (n : Nat) : Change p { p with freeDraws := n }
  | station (w : Work) (x : Station) (f : Ctx → StationWork → StationWork) : StationEvent w.toPlant x f →
      Change w.toPlant (w.onStation x f).toPlant
  | scan (w : Work) : Change w.toPlant w.recomputeScan.toPlant
  | measurementOver (p : Plant) : Change p { p with measurement := none }
  | aux (p : Plant) (a : Vector Aux 16) : Change p { p with aux := a }
  | policies (p : Plant) (c : Pair (Option ConsentPolicy)) (d : Pair (Option SchedulePolicy)) :
      Change p { p with consentPolicy := c, schedulePolicy := d }
  | slot (p : Plant) (slot : LoadSlot) (timer : Timer) : Change p { p with loadSlot := slot, loadBuffer := [], loadIdleTimer := timer }
  | idleTimer (p : Plant) (timer : Timer) : Change p { p with loadIdleTimer := timer }
  | block (p : Plant) (slot : LoadSlot) (a : Nat) (data : List Byte) (timer : Timer) :
      Change p { p with loadSlot := slot, loadBuffer := Memory.writeBlock p.loadBuffer a data, loadIdleTimer := timer }
  | readback (p : Plant) (r : Pair (Option Nat)) : Change p { p with readback := r }
  | clock (p : Plant) (r : Option Reading) (t : Timer) : p.phase = .running ∨ p.clock ≠ none →
      Change p { p with clock := r, clockTimer := t }
  | written (w : Work) : Change w.toPlant w.completeWrite.toPlant
  | activate (w : Work) (m : Memory) : w.phase = .running → m = w.loadBuffer ∨ m = w.imageRecord.bytes →
      Change w.toPlant (w.activate m).toPlant
  | closeReadbacks (w : Work) : Change w.toPlant w.closeReadbacks.toPlant
  | storeBuffer (w : Work) : w.phase = .running → Change w.toPlant w.storeBuffer.toPlant
  | startUpCause (p : Plant) (cause : Option ResetKind) (flag : Bool) :
      Change p { p with startUpCause := cause, interrupted := flag }
  | resetEnd (p : Plant) (kind : ResetKind) (rate : LinkRate) (t : Timer) : p.phase = .held kind →
      Change p { p with phase := .starting kind, rate := rate, startUpTimer := t, stations := p.startClocks }
  | readRecords (w : Work) (kind : ResetKind) : w.phase = .starting kind → Change w.toPlant w.readRecords.toPlant
  | reset (s : State) (kind : ResetKind) : Change s.toPlant (s.wholeReset kind).toPlant

/-- A chain of primitive changes. -/
inductive Changes (p : Plant) : Plant → Prop where
  | refl : Changes p p
  | tail {q r : Plant} : Changes p q → Change q r → Changes p r

theorem Changes.single {p q : Plant} (h : Change p q) : Changes p q := .tail .refl h

theorem Changes.trans {p q r : Plant} (h : Changes p q) (k : Changes q r) : Changes p r := by
  induction k with
  | refl => exact h
  | tail _ c ih => exact .tail ih c

/-- A property that every primitive change keeps is kept by a chain of them. -/
theorem Changes.kept {P : Plant → Prop} (hP : ∀ p q, Change p q → P p → P q) {p q : Plant} (h : Changes p q) (hp : P p) :
    P q := by
  induction h with
  | refl => exact hp
  | tail _ c ih => exact hP _ _ c ih

theorem Changes.moves {v w : Work} (h : Moves v w) : Changes v.toPlant w.toPlant := .single (.engine h)

/-! ### Work-level operations as chains -/

theorem Work.reach_changes (t : Nat) (w : Work) : Changes w.toPlant (w.reach t).toPlant := .single (.time _ _)

theorem Work.settleScan_changes (before : Plant) (w : Work) : Changes w.toPlant (w.settleScan before).toPlant := by
  unfold Work.settleScan
  split
  · exact .single (.scan w)
  · exact .refl

theorem Work.whenDue_changes (t : Timer) (f : Work → Work) (w : Work)
    (hf : ∀ due, Changes w.toPlant (f (w.reach due)).toPlant) : Changes w.toPlant (w.whenDue t f).toPlant := by
  unfold Work.whenDue
  split
  · exact .refl
  · exact hf _

/-- The work of an event, and the scan list that follows it. -/
theorem State.event_changes (f : Work → Work) (s : State) (hf : Changes s.toPlant (f s.work).toPlant) :
    Changes s.toPlant (s.event f).toPlant := by
  rw [State.event_toPlant]
  exact hf.trans (Work.settleScan_changes _ _)

theorem Work.commit_changes (x : Station) (w : Work) (h : w.phase = .running) : Changes w.toPlant (w.commit x).toPlant := by
  unfold Work.commit
  refine (Changes.single (.activate w w.loadBuffer h (.inl rfl))).trans ?_
  refine Changes.trans (q := ((w.activate w.loadBuffer).firstDefaults w.image w.loadBuffer).toPlant) ?_ ?_
  · unfold Work.firstDefaults
    split
    · exact .single (.policies _ _ _)
    · exact .refl
  · have hr : ((w.activate w.loadBuffer).firstDefaults w.image w.loadBuffer).phase = .running := by
      unfold Work.firstDefaults
      split <;> exact h
    generalize (w.activate w.loadBuffer).firstDefaults w.image w.loadBuffer = v at hr
    exact (Changes.moves (Work.clearHolds_moves v)).trans
      ((Changes.single (.closeReadbacks v.clearHolds)).trans
        ((Changes.single (.storeBuffer v.clearHolds.closeReadbacks hr)).trans
          (.moves ((Work.postAll_moves _ _ _).trans (Work.evaluate_moves _ _)))))

/-- STARTED is announced. -/
theorem Work.announceStartUp_changes (kind : ResetKind) (flag : Bool) (w : Work) :
    Changes w.toPlant (w.announceStartUp kind flag).toPlant :=
  (Changes.single (.startUpCause w.toPlant (some kind) flag)).trans
    (.moves (Work.postAll_moves _ _ { w with startUpCause := some kind, interrupted := flag }))

theorem Work.setBoth_moves (c : Pair (Option PatternNo)) (w : Work) : Moves w (w.setBoth c) :=
  (Work.setPattern_moves _ _ w).trans (Work.setPattern_moves _ _ _)

theorem Work.carryBoth_moves (c : Pair (Option PatternNo)) (w : Work) : Moves w (w.carryBoth c) :=
  (Work.carryResolved_moves _ _ w).trans (Work.carryResolved_moves _ _ _)

/-- Start-up. -/
theorem Work.startUp_changes (kind : ResetKind) (w : Work) (h : w.phase = .starting kind) :
    Changes w.toPlant (Work.startUp kind w).toPlant := by
  unfold Work.startUp
  refine (Changes.single (.readRecords w kind h)).trans ?_
  have hr : w.readRecords.phase = .running := rfl
  generalize w.readRecords = v at hr
  refine Changes.trans ?_ (.moves (Work.evaluate_moves false _))
  split
  · unfold Work.startConfigured
    refine (Changes.single (.activate v _ hr (.inr rfl))).trans ?_
    dsimp only
    generalize v.activate v.imageRecord.bytes = u
    refine (Changes.moves ((Work.setBoth_moves (u.startChoices v.lastRecord) u).trans
      (Work.handLastState_moves false _))).trans ?_
    generalize (u.setBoth (u.startChoices v.lastRecord)).handLastState false = t
    refine Changes.trans (q := (t.takeDefaults v.imageRecord.bytes).toPlant) (.single (.policies _ _ _)) ?_
    exact (Changes.moves (Work.clearHolds_moves (t.takeDefaults v.imageRecord.bytes))).trans
      ((Work.announceStartUp_changes kind _ _).trans (.moves (Work.carryBoth_moves _ _)))
  · exact Work.announceStartUp_changes kind _ v

/-- A request acted on in service. -/
theorem act_changes (x : Station) (dropped : Nat) (r : Request) (w : Work) (h : w.phase = .running) :
    Changes w.toPlant (act x dropped r w).1.toPlant := by
  cases r with
  | patternRequest target => exact .moves (Work.submit_moves _ _ _ _)
  | withdraw => exact .moves (Work.withdraw_moves _ _)
  | consentReply tag answer => exact .moves (Work.consentReply_moves _ _ _ _)
  | contactorRelease index => exact .moves (Work.release_moves _ _ _)
  | statusQuery => exact .refl
  | monitorQuery => exact .refl
  | contactorQuery => exact .refl
  | readbackBlock index => exact .refl
  | consentPolicy policy =>
    simp only [act, actConsentPolicy, Work.setConsentPolicy]
    split
    · exact .refl
    · next hi =>
      split
      · exact .refl
      · exact .single (.policies _ _ _)
  | schedulePolicy policy =>
    simp only [act, actSchedulePolicy, Work.setSchedulePolicy]
    split
    · exact .refl
    · next hi =>
      split
      · exact .refl
      · next policy _ =>
        have h1 := Changes.single
          (.policies w.toPlant w.consentPolicy (w.schedulePolicy.set x (some policy)))
        split
        · exact h1.trans
            (.moves (Work.setOverride_moves x .clear { w with schedulePolicy := w.schedulePolicy.set x (some policy) }))
        · exact h1
  | clockSet year day hour minute second =>
    simp only [act, actClockSet, Work.setClock]
    split
    · exact Changes.trans (.single (.clock w.toPlant _ _ (.inl h)))
        (.moves (v := { w with clock := _, clockTimer := _ })
          ((Work.evaluate_moves false _).after (Work.postAll_moves [.A, .B] _ _)))
    · exact .refl
  | clockQuery =>
    simp only [act, actClockQuery]
    split <;> exact .refl
  | loadOpen size =>
    simp only [act, actLoadOpen, Work.loadOpen]
    split
    · exact .refl
    · split
      · exact .refl
      · exact .single (.slot _ _ _)
  | loadBlock index data =>
    simp only [act, actLoadBlock, Work.loadBlock]
    split
    · split
      · exact .refl
      · split
        · exact .refl
        · exact .single (.block _ _ _ _ _)
    · exact .refl
  | loadCommit =>
    simp only [act, actLoadCommit, Work.loadCommit]
    split
    · split
      · exact .refl
      · split
        · exact .refl
        · split
          · exact .refl
          · split
            · exact .refl
            · exact Work.commit_changes x w h
    · exact .refl
  | loadCancel =>
    simp only [act, actLoadCancel, Work.loadCancel]
    split
    · exact .single (.slot _ _ _)
    · exact .refl
  | readbackOpen size =>
    simp only [act, actReadbackOpen, Work.readbackOpen]
    split
    · exact .single (.readback _ _)
    · exact .refl

/-- A frame handed on in service. -/
theorem State.handOn_changes (x : Station) (body : List Byte) (s : State) (h : s.phase = .running) :
    Changes s.toPlant (s.handOn x body).toPlant := by
  unfold State.handOn
  split
  · exact State.event_changes _ s (act_changes x _ _ s.work h)
  · exact .refl

/-- Whatever has become of a part is kept in sight by all that the links do. -/
theorem changes_linkKept (p : Plant) : LinkKept fun s => Changes p s.toPlant :=
  linkKept_of_plant (P := fun q => Changes p q) fun x body s h hr => h.trans (State.handOn_changes x body s hr)

/-! ### Events -/

theorem Work.endPulse_changes (w : Work) : Changes w.toPlant w.endPulse.toPlant := by
  unfold Work.endPulse
  split
  · exact .refl
  · next move _ =>
    split
    · exact (Work.reach_changes move.due w).trans (.moves (v := w.reach move.due) (.change rfl rfl rfl rfl))
    · exact .refl

theorem Work.endSettle_changes (w : Work) : Changes w.toPlant w.endSettle.toPlant := by
  unfold Work.endSettle
  split
  · exact .refl
  · next move _ =>
    split
    · refine (Work.reach_changes move.due w).trans (.moves ?_)
      dsimp only
      split
      · exact (Work.attempt_moves _ _).after (Work.onLive_moves _ _ _)
      · refine (Work.moveOutcome_moves _ _ _).after ?_
        split
        · exact (Work.postFault_moves _ _ _).after (Work.onLive_moves _ _ _)
        · exact Work.onLive_moves _ _ _
    · exact .refl

theorem Work.debounce_changes (k : ContactorNo) (made0 made1 : Option Bool) (w : Work) :
    Changes w.toPlant (w.debounce k made0 made1).toPlant := by
  unfold Work.debounce
  dsimp only
  split
  · exact .refl
  · exact Changes.trans (.single (.aux w.toPlant (w.aux.set k (w.aux[k].take made0 made1))))
      (.moves (Work.onLive_moves k _ { w with aux := w.aux.set k (w.aux[k].take made0 made1) }))
  · split
    · exact .refl
    · exact Changes.trans (.single (.aux w.toPlant (w.aux.set k (w.aux[k].take made0 made1))))
        (.moves ((Work.judgeCombination_moves k { w with aux := w.aux.set k (w.aux[k].take made0 made1) }).trans
          (Work.examinePending_moves _)))

theorem Work.noticeRf_changes (x : Station) (w : Work) : Changes w.toPlant (w.noticeRf x).toPlant := by
  unfold Work.noticeRf
  split
  · exact .single (.station (w.post x (.rfWhileInhibited (w.carrier x).state w.clock)) x _ .rfNoticed)
  · exact .refl

theorem Work.rfEvent_changes (x : Station) (active : Bool) (w : Work) : Changes w.toPlant (w.rfEvent x active).toPlant := by
  unfold Work.rfEvent
  refine (Changes.single (.station w x _ (.takeRf active))).trans ?_
  dsimp only
  split
  · refine Changes.trans (q := (Work.noticeRf x _).toPlant) ?_
      (.moves ((Work.rfDisturbance_moves x _).trans (Work.examinePending_moves _)))
    exact Work.noticeRf_changes x _
  · exact .moves ((Work.quiesceCheck_moves _).trans (Work.examinePending_moves _))

theorem Work.rfPresent_changes (x : Station) (active : Bool) (w : Work) :
    Changes w.toPlant (w.rfPresent x active).toPlant := by
  unfold Work.rfPresent
  split
  · exact .refl
  · exact .single (.station w x _ (.takeRf active))
  · split
    · exact .refl
    · exact Work.rfEvent_changes x active w

theorem Work.muteExpiry_changes (x : Station) (w : Work) : Changes w.toPlant (w.muteExpiry x).toPlant := by
  unfold Work.muteExpiry
  refine (Changes.single (.station w x _ .stopMute)).trans ?_
  dsimp only
  split
  · exact .refl
  · split
    · exact .moves (((Work.raiseBackAll_moves _ _).trans (Work.endTransition_moves _ _)).trans (Work.examinePending_moves _))
    · exact .refl

theorem Work.tickRamp_changes (x : Station) (w : Work) : Changes w.toPlant (w.tickRamp x).toPlant := by
  unfold Work.tickRamp
  split
  · exact .refl
  · next due _ =>
    refine (Work.reach_changes due w).trans ((Changes.single (.station (w.reach due) x _ (.rampTick (due + Config.rampTick)))).trans ?_)
    exact .moves (((Work.quiesceCheck_moves _).trans (Work.restoreCheck_moves _)).trans (Work.examinePending_moves _))

theorem Work.verifyExpiry_changes (x : Station) (w : Work) (h : (w.carrier x).state = .verifying) :
    Changes w.toPlant (w.verifyExpiry x).toPlant := by
  unfold Work.verifyExpiry
  refine (Changes.single (.station w x _ (.verifyFailed h))).trans ?_
  dsimp only
  split
  · exact .refl
  · split
    · exact .moves ((Work.endTransition_moves _ _).trans (Work.examinePending_moves _))
    · exact .refl

theorem Work.measured_changes (r t : Nat) (q d : List Nat) (w : Work) : Changes w.toPlant (w.measured r t q d).toPlant := by
  unfold Work.measured
  split
  · exact .refl
  · next m _ =>
    unfold Work.completeMeasurement
    refine (Work.reach_changes m.due w).trans ((Changes.single (.measurementOver (w.reach m.due).toPlant)).trans ?_)
    dsimp only
    refine Changes.trans ?_ (.single (.scan _))
    split
    · next hk =>
      refine (Changes.single (.station { w.reach m.due with measurement := none } m.entry.station _
        (.measured m _ _ _ _ ?_))).trans (.moves ((Work.restoreCheck_moves _).trans (Work.examinePending_moves _)))
      simp only [Plant.keeps, Bool.and_eq_true] at hk
      exact hk.1
    · exact .refl

theorem Work.tickClock_changes (admits : Reading → Bool) (w : Work) : Changes w.toPlant (w.tickClock admits).toPlant := by
  unfold Work.tickClock
  split
  · next r due hc _ =>
    split
    · have hc' : (w.reach due).clock ≠ none := by simp [hc]
      refine (Work.reach_changes due w).trans ?_
      unfold Work.clockTick
      split
      · exact .single (.clock _ _ _ (.inr hc'))
      · next n _ =>
        have h1 := Changes.single
          (.clock (w.reach due).toPlant (some n) (some (due + Config.seconds 1)) (.inr hc'))
        dsimp only
        split
        · exact h1.trans (.moves (Work.evaluate_moves true
            { w.reach due with clock := some n, clockTimer := some (due + Config.seconds 1) }))
        · exact h1
    · exact .refl
  · exact .refl

theorem Work.loadExpired_changes (w : Work) : Changes w.toPlant w.loadExpired.toPlant := by
  unfold Work.loadExpired
  split
  · exact .single (.idleTimer _ _)
  · exact .single (.slot _ _ _)

theorem Work.storePortReset_changes (x : Station) (w : Work) : Changes w.toPlant (w.storePortReset x).toPlant := by
  unfold Work.storePortReset
  dsimp only
  split
  · exact (Changes.single (.slot w.toPlant .free none)).trans (.single (.readback _ _))
  · exact .single (.readback _ _)

/-! ### Commands and steps -/

/-- Every command that answers a next state leaves the part, outside its ports, at the end of a chain of changes. -/
theorem exec_changes (c : Instr) (s t : State) (he : exec c s = .next t) : Changes s.toPlant t.toPlant := by
  have L := changes_linkKept s.toPlant
  have ev : ∀ f : Work → Work, (∀ w : Work, Changes w.toPlant (f w).toPlant) → Changes s.toPlant (s.event f).toPlant :=
    fun f hf => State.event_changes f s (hf s.work)
  have timed (t : Timer) (f : Work → Work) (w : Work) (hf : ∀ w : Work, Changes w.toPlant (f w).toPlant) :
      Changes w.toPlant (w.whenDue t f).toPlant :=
    Work.whenDue_changes t f w fun due => (Work.reach_changes due w).trans (hf _)
  have noConsent (w : Work) : Changes w.toPlant w.noConsent.toPlant :=
    .moves ((Work.endTransition_moves _ w).trans (Work.examinePending_moves _))
  cases c <;> simp only [exec] at he
  case powerOn => cases he; exact .single (.reset s _)
  case resetLine => cases he; exact .single (.reset s _)
  case resetEnd =>
    unfold execResetEnd at he
    cases he
    split
    · next hp => exact .single (.resetEnd _ _ _ _ hp)
    · exact .refl
    · exact .refl
  case startUp =>
    unfold execStartUp at he
    cases he
    split
    · next kind hp =>
      have h1 : Changes s.toPlant (s.event fun w => w.whenDue w.startUpTimer (Work.startUp kind)).toPlant := by
        refine State.event_changes _ s (Work.whenDue_changes _ _ s.work fun due => ?_)
        exact (Work.reach_changes due s.work).trans (Work.startUp_changes kind _ hp)
      revert h1
      generalize (s.event fun w => w.whenDue w.startUpTimer (Work.startUp kind)) = u
      intro h1
      unfold State.resumeBoth
      dsimp only
      split
      · have h2 := h1.tail (.draw _ (u.freeDraws + 1))
        split
        · exact L.resume .A _ (L.resume .B { u with freeDraws := u.freeDraws + 1 } h2)
        · exact L.resume .B _ (L.resume .A { u with freeDraws := u.freeDraws + 1 } h2)
      · exact L.resume .B _ (L.resume .A u h1)
    · exact .refl
    · exact .refl
  case consentWaitTimerExpiry =>
    cases he
    refine ev _ fun w => ?_
    split
    · exact timed _ _ w noConsent
    · exact .refl
  case deferTimerExpiry =>
    cases he
    refine ev _ fun w => ?_
    split
    · exact timed _ _ w noConsent
    · exact .refl
  case muteTimerExpiry x => cases he; exact ev _ fun w => timed _ _ w (Work.muteExpiry_changes x)
  case rampTick x => cases he; exact ev _ (Work.tickRamp_changes x)
  case pulseTimeEnd => cases he; exact ev _ Work.endPulse_changes
  case settleTimeEnd =>
    cases he
    exact ev _ fun w => (Work.endSettle_changes w).trans (.moves (Work.examinePending_moves _))
  case debounceEvent =>
    unfold execDebounceEvent at he
    split at he
    · cases he
    · cases he; exact ev _ (Work.debounce_changes _ _ _)
  case rfPresentEvent x active => cases he; exact ev _ (Work.rfPresent_changes x active)
  case measurementCompletion => cases he; exact ev _ (Work.measured_changes _ _ _ _)
  case verifyTimerExpiry x =>
    cases he
    refine ev _ fun w => ?_
    split
    · next hs =>
      exact Work.whenDue_changes _ _ w fun due => (Work.reach_changes due w).trans (Work.verifyExpiry_changes x _ hs)
    · exact .refl
  case outOfToleranceHoldExpiry x =>
    cases he
    refine ev _ fun w => ?_
    split
    · next hs =>
      exact Work.whenDue_changes _ _ w fun due =>
        (Work.reach_changes due w).trans (.single (.station (w.reach due) x _ (.outOfTolerance hs)))
    · exact .refl
  case staleTimerExpiry x tower =>
    unfold execStaleTimerExpiry at he
    split at he
    · cases he
    · next i _ =>
      cases he
      exact ev _ fun w => timed _ _ w fun w => .single (.station w x _ (.stale i))
  case siteClockTick => cases he; exact ev _ (Work.tickClock_changes _)
  case minuteTick => cases he; exact ev _ (Work.tickClock_changes _)
  case loadIdleTimerExpiry => cases he; exact ev _ fun w => timed _ _ w Work.loadExpired_changes
  case imageWriteCompletion =>
    cases he
    refine ev _ fun w => ?_
    split
    · exact (Changes.single (.written w)).trans (.moves (Work.examinePending_moves _))
    · exact .refl
  case lastStateWriteCompletion =>
    cases he
    refine ev _ fun w => ?_
    split
    · exact .single (.written w)
    · exact .refl
  case characterReceived x b stopLow => cases he; exact L.receiveChar x b stopLow s .refl
  case gapTimerExpiry x =>
    unfold execGapTimerExpiry at he
    cases he
    split
    · exact .refl
    · exact .single (.time _ _)
  case breakEvent x =>
    unfold execBreak at he
    cases he
    split
    · exact ev _ (Work.storePortReset_changes x)
    · exact .refl
  case characterTransmitted x =>
    unfold execCharacterTransmitted at he
    cases he
    split
    · exact .refl
    · next c _ => exact L.resume x (State.transmit x (State.onPort x _ (s.reach c.due))) (.single (.time _ _))
  case frameTransmissionStart x =>
    unfold execFrameTransmissionStart at he
    cases he
    split <;> exact .refl
  case lineReturnHigh x => cases he; exact .refl
  case powerReferencePeriodStart x =>
    cases he
    refine ev _ fun w => ?_
    unfold Work.tickPeriod
    split
    · exact .refl
    · next due _ =>
      exact (Work.reach_changes due w).trans
        (.single (.station (w.reach due) x _ (.period (due + Config.referencePeriod))))
  all_goals (cases he; exact L.receiveFrame _ _ s .refl)

/-- A property of the part outside its ports that every primitive change keeps is kept by every command. -/
theorem exec_kept {P : Plant → Prop} (hP : ∀ p q, Change p q → P p → P q) (c : Instr) (s t : State)
    (he : exec c s = .next t) (h : P s.toPlant) : P t.toPlant := (exec_changes c s t he).kept hP h

/-- A property of the part outside its ports that every primitive change keeps is kept by every step. -/
theorem step_kept {P : Plant → Prop} (hP : ∀ p q, Change p q → P p → P q) (s t : State) (he : step s = .next t)
    (h : P s.toPlant) : P t.toPlant := by
  unfold step at he
  split at he
  · cases he
    exact hP _ _ (.time _ _) h
  · exact exec_kept hP _ { s with pending := _ } t he h

end Machine
end Sys2Proof
end

