-- ==== Sys2Proof/Laws/Memory.lean ====
section
/-! SUPPORT. The byte memory: every operation keeps the canonical form, a read after a write gives the value written, and
a write leaves every other address alone. -/
namespace Sys2Proof
namespace Machine

theorem Memory.wfFrom_mono {low low' : Nat} (h : low' ≤ low) (m : Memory) (hm : Memory.wfFrom low m = true) :
    Memory.wfFrom low' m = true := by
  cases m with
  | nil => rfl
  | cons c rest =>
    simp only [Memory.wfFrom, Bool.and_eq_true, decide_eq_true_eq] at hm ⊢
    exact ⟨⟨by omega, hm.1.2⟩, hm.2⟩

/-- In a memory whose cells start above an address, that address reads as 00h. -/
theorem Memory.read_below {low : Nat} (m : Memory) (hm : Memory.wfFrom low m = true) {a : Nat} (h : a < low) :
    Memory.read m a = 0 := by
  cases m with
  | nil => rfl
  | cons c rest =>
    simp only [Memory.wfFrom, Bool.and_eq_true, decide_eq_true_eq] at hm
    have h1 : a ≠ c.1 := by omega
    have h2 : a < c.1 := by omega
    simp [Memory.read, h1, h2]

theorem Memory.write_wfFrom (m : Memory) {low : Nat} (hm : Memory.wfFrom low m = true) (a : Nat) (v : Byte) (h : low ≤ a) :
    Memory.wfFrom low (Memory.write m a v) = true := by
  induction m generalizing low with
  | nil =>
    unfold Memory.write
    split
    · rfl
    · simp_all [Memory.wfFrom]
  | cons c rest ih =>
    obtain ⟨b, u⟩ := c
    simp only [Memory.wfFrom, Bool.and_eq_true, decide_eq_true_eq] at hm
    unfold Memory.write
    split
    · next hab =>
      split
      · simp only [Memory.wfFrom, Bool.and_eq_true, decide_eq_true_eq]
        exact hm
      · next hv =>
        simp only [Memory.wfFrom, Bool.and_eq_true, decide_eq_true_eq]
        exact ⟨⟨h, hv⟩, ⟨by omega, hm.1.2⟩, hm.2⟩
    · next hab =>
      split
      · next heq =>
        split
        · exact Memory.wfFrom_mono (by omega) _ hm.2
        · next hv =>
          simp only [Memory.wfFrom, Bool.and_eq_true, decide_eq_true_eq]
          exact ⟨⟨h, hv⟩, heq ▸ hm.2⟩
      · next hne =>
        simp only [Memory.wfFrom, Bool.and_eq_true, decide_eq_true_eq]
        exact ⟨hm.1, ih hm.2 (by omega)⟩

/-- A write keeps the canonical form. -/
theorem Memory.write_wf (m : Memory) (hm : Memory.wf m = true) (a : Nat) (v : Byte) :
    Memory.wf (Memory.write m a v) = true := Memory.write_wfFrom m hm a v (Nat.zero_le a)

theorem Memory.read_write_from (m : Memory) {low : Nat} (hm : Memory.wfFrom low m = true) (a b : Nat) (v : Byte) :
    Memory.read (Memory.write m a v) b = if b = a then v else Memory.read m b := by
  induction m generalizing low with
  | nil =>
    unfold Memory.write
    split
    · next h => subst h; simp [Memory.read]
    · simp [Memory.read]
  | cons c rest ih =>
    obtain ⟨d, u⟩ := c
    simp only [Memory.wfFrom, Bool.and_eq_true, decide_eq_true_eq] at hm
    have hrest := ih hm.2
    unfold Memory.write
    split
    · next had =>
      split
      · next hv =>
        subst hv
        by_cases hb : b = a
        · subst hb; simp [Memory.read, had, Nat.ne_of_lt had]
        · simp [hb]
      · by_cases hb : b = a
        · subst hb; simp [Memory.read]
        · by_cases hba : b < a
          · have h1 : b ≠ d := by omega
            have h2 : b < d := by omega
            simp [Memory.read, hb, hba, h1, h2]
          · simp [Memory.read, hb, hba]
    · next had =>
      split
      · next heq =>
        subst heq
        split
        · next hv =>
          subst hv
          by_cases hb : b = a
          · subst hb; simp [Memory.read_below _ hm.2]
          · by_cases hba : b < a
            · simp [Memory.read, hb, hba, Memory.read_below _ hm.2 (Nat.lt_succ_of_lt hba)]
            · simp [Memory.read, hb, hba]
        · by_cases hb : b = a
          · subst hb; simp [Memory.read]
          · simp [Memory.read, hb]
      · next hne =>
        by_cases hbd : b = d
        · subst hbd; simp [Memory.read, Ne.symm hne]
        · by_cases hlt : b < d
          · have : b ≠ a := by omega
            simp [Memory.read, hbd, hlt, this]
          · simp [Memory.read, hbd, hlt, hrest]

/-- A read after a write: the value written at its address, and every other address as before. -/
theorem Memory.read_write (m : Memory) (hm : Memory.wf m = true) (a b : Nat) (v : Byte) :
    Memory.read (Memory.write m a v) b = if b = a then v else Memory.read m b := Memory.read_write_from m hm a b v

/-- A block write keeps the canonical form. -/
theorem Memory.writeBlock_wf (m : Memory) (hm : Memory.wf m = true) (a : Nat) (bytes : List Byte) :
    Memory.wf (Memory.writeBlock m a bytes) = true := by
  induction bytes generalizing m a with
  | nil => exact hm
  | cons v rest ih => exact ih _ (Memory.write_wf m hm a v) _

/-- A read after a block write: the byte written inside the block, and every other address as before. -/
theorem Memory.read_writeBlock (m : Memory) (hm : Memory.wf m = true) (a : Nat) (bytes : List Byte) (b : Nat) :
    Memory.read (Memory.writeBlock m a bytes) b =
      if h : a ≤ b ∧ b < a + bytes.length then bytes[b - a]'(by omega) else Memory.read m b := by
  induction bytes generalizing m a with
  | nil =>
    simp [Memory.writeBlock]
  | cons v rest ih =>
    rw [Memory.writeBlock, ih _ (Memory.write_wf m hm a v), Memory.read_write m hm]
    by_cases hba : b = a
    · subst hba
      simp
    · by_cases hin : a + 1 ≤ b ∧ b < a + 1 + rest.length
      · have h2 : a ≤ b ∧ b < a + (v :: rest).length := by simp; omega
        rw [dif_pos hin, dif_pos h2]
        have : b - a = (b - (a + 1)) + 1 := by omega
        simp [this]
      · have h2 : ¬(a ≤ b ∧ b < a + (v :: rest).length) := by simp; omega
        rw [dif_neg hin, dif_neg h2, if_neg hba]

/-- What a torn image record holds is canonical. -/
theorem tornBytes_wf (draw : Nat) (old new : Memory) (h : Memory.wf old = true) : Memory.wf (tornBytes draw old new) = true := by
  unfold tornBytes
  generalize List.range Config.imageSize = as
  suffices ∀ m : Memory, Memory.wf m = true →
      Memory.wf (as.foldl (fun m a =>
        if Memory.read old a = Memory.read new a then m
        else if Config.tornTakesNew draw a then Memory.write m a (Memory.read new a) else m) m) = true from this old h
  induction as with
  | nil => exact fun m hm => hm
  | cons a as ih =>
    intro m hm
    rw [List.foldl_cons]
    apply ih
    split
    · exact hm
    · split
      · exact Memory.write_wf m hm a _
      · exact hm

/-- Two memories in canonical form that read alike are equal data. -/
theorem Memory.ext_from {low : Nat} (m n : Memory) (hm : Memory.wfFrom low m = true) (hn : Memory.wfFrom low n = true)
    (h : ∀ a, Memory.read m a = Memory.read n a) : m = n := by
  induction m generalizing low n with
  | nil =>
    cases n with
    | nil => rfl
    | cons c rest =>
      simp only [Memory.wfFrom, Bool.and_eq_true, decide_eq_true_eq] at hn
      have := h c.1
      simp [Memory.read] at this
      exact absurd this.symm hn.1.2
  | cons c rest ih =>
    cases n with
    | nil =>
      simp only [Memory.wfFrom, Bool.and_eq_true, decide_eq_true_eq] at hm
      have := h c.1
      simp [Memory.read] at this
      exact absurd this hm.1.2
    | cons d rest' =>
      simp only [Memory.wfFrom, Bool.and_eq_true, decide_eq_true_eq] at hm hn
      obtain ⟨a, u⟩ := c
      obtain ⟨b, v⟩ := d
      have hab : a = b := by
        have ha := h a
        have hb := h b
        simp only [Memory.read] at ha hb
        by_contra hne
        rcases Nat.lt_or_gt_of_ne hne with hlt | hlt
        · simp [hlt, hne] at ha
          exact hm.1.2 ha
        · simp [hlt, Ne.symm hne] at hb
          exact hn.1.2 hb.symm
      subst hab
      have hv : u = v := by simpa [Memory.read] using h a
      subst hv
      congr 1
      refine ih rest' hm.2 hn.2 fun e => ?_
      by_cases he : e < a + 1
      · rw [Memory.read_below _ hm.2 he, Memory.read_below _ hn.2 he]
      · have := h e
        have h1 : e ≠ a := by omega
        have h2 : ¬e < a := by omega
        simpa [Memory.read, h1, h2] using this

/-- Equal contents are equal data (the canonical form is one). -/
theorem Memory.ext_read (m n : Memory) (hm : Memory.wf m = true) (hn : Memory.wf n = true)
    (h : ∀ a, Memory.read m a = Memory.read n a) : m = n := Memory.ext_from m n hm hn h

/-- Every memory of the reset state is in canonical form. -/
theorem reset_memories_wf : Memory.wf State.reset.loadBuffer = true ∧ Memory.wf State.reset.imageRecord.bytes = true :=
  ⟨rfl, rfl⟩

end Machine
end Sys2Proof
end

