-- ==== Sys2Proof/Laws/PerInstr.lean ====
section
/-! SUPPORT. The per-command family `FitsFrame`: a well-formed request command stands for a frame that the frame assembler can
take whole, its body holding at least the kind and, with the check byte, at most 161 bytes of content (R157, R163); an event
of the part stands for none. -/
namespace Sys2Proof
namespace Laws
namespace FitsFrame

/-- The command, if it stands for a frame, stands for one whose body has 1 to 160 bytes. -/
def Statement (i : Instr) : Prop :=
  i.wellFormed = true → ∀ x body, i.frame? = some (x, body) → 1 ≤ body.length ∧ body.length ≤ 160

/-- A command that stands for no frame. -/
theorem of_event {i : Instr} (h : i.frame? = none) : Statement i := by
  intro _ x body hb
  rw [h] at hb
  cases hb

/-- A command that stands for one frame, whose body has 1 to 160 bytes when the command is well formed. -/
theorem of_frame {i : Instr} {x : Station} {body : List Byte} (h : i.frame? = some (x, body))
    (hl : i.wellFormed = true → 1 ≤ body.length ∧ body.length ≤ 160) : Statement i := by
  intro hw y other hb
  rw [h] at hb
  cases hb
  exact hl hw

/-- A command that stands for a frame of a length its operands do not change. -/
theorem of_request {i : Instr} (x : Station) {body : List Byte} (h : i.frame? = some (x, body)) (low : Nat.ble 1 body.length = true)
    (high : Nat.ble body.length 160 = true) : Statement i :=
  of_frame h fun _ => ⟨Nat.le_of_ble_eq_true low, Nat.le_of_ble_eq_true high⟩

theorem powerOn : Statement (.powerOn) := of_event rfl

theorem resetLine : Statement (.resetLine) := of_event rfl

theorem resetEnd (strap1 strap0 : Bool) : Statement (.resetEnd strap1 strap0) := of_event rfl

theorem startUp : Statement (.startUp) := of_event rfl

theorem patternRequest (link : Station) (target : Byte) : Statement (.patternRequest link target) :=
  of_request link rfl rfl rfl

theorem withdraw (link : Station) : Statement (.withdraw link) :=
  of_request link rfl rfl rfl

theorem grant (link : Station) (tag : Byte) : Statement (.grant link tag) :=
  of_request link rfl rfl rfl

theorem defer (link : Station) (tag : Byte) : Statement (.defer link tag) :=
  of_request link rfl rfl rfl

theorem consentPolicy (link : Station) (policy : Byte) : Statement (.consentPolicy link policy) :=
  of_request link rfl rfl rfl

theorem schedulePolicy (link : Station) (policy : Byte) : Statement (.schedulePolicy link policy) :=
  of_request link rfl rfl rfl

theorem statusQuery (link : Station) : Statement (.statusQuery link) :=
  of_request link rfl rfl rfl

theorem monitorQuery (link : Station) : Statement (.monitorQuery link) :=
  of_request link rfl rfl rfl

theorem contactorQuery (link : Station) : Statement (.contactorQuery link) :=
  of_request link rfl rfl rfl

theorem contactorRelease (link : Station) (index : Byte) : Statement (.contactorRelease link index) :=
  of_request link rfl rfl rfl

theorem clockSet (link : Station) (year day : Word16) (hour minute second : Byte) : Statement (.clockSet link year day hour minute second) :=
  of_request link rfl rfl rfl

theorem clockQuery (link : Station) : Statement (.clockQuery link) :=
  of_request link rfl rfl rfl

theorem loadOpen (link : Station) (size : Byte) : Statement (.loadOpen link size) :=
  of_request link rfl rfl rfl

theorem loadBlock (link : Station) (index : Byte) (data : List Byte) : Statement (.loadBlock link index data) := by
  refine of_frame (x := link) rfl fun h => ?_
  have : data.length ≤ 158 := of_decide_eq_true h
  show 1 ≤ data.length + 1 + 1 ∧ data.length + 1 + 1 ≤ 160
  omega

theorem loadCommit (link : Station) : Statement (.loadCommit link) :=
  of_request link rfl rfl rfl

theorem loadCancel (link : Station) : Statement (.loadCancel link) :=
  of_request link rfl rfl rfl

theorem readbackOpen (link : Station) (size : Byte) : Statement (.readbackOpen link size) :=
  of_request link rfl rfl rfl

theorem readbackBlock (link : Station) (index : Byte) : Statement (.readbackBlock link index) :=
  of_request link rfl rfl rfl

theorem unknownKind (link : Station) (kind : Byte) (rest : List Byte) : Statement (.unknownKind link kind rest) := by
  refine of_frame (x := link) rfl fun h => ?_
  have : rest.length ≤ 159 := of_decide_eq_true ((Bool.and_eq_true _ _).mp h).2
  simp only [List.length_cons]
  omega

theorem consentWaitTimerExpiry : Statement (.consentWaitTimerExpiry) := of_event rfl

theorem deferTimerExpiry : Statement (.deferTimerExpiry) := of_event rfl

theorem muteTimerExpiry (station : Station) : Statement (.muteTimerExpiry station) := of_event rfl

theorem rampTick (station : Station) : Statement (.rampTick station) := of_event rfl

theorem pulseTimeEnd : Statement (.pulseTimeEnd) := of_event rfl

theorem settleTimeEnd : Statement (.settleTimeEnd) := of_event rfl

theorem debounceEvent (contactor : Nat) (made0 made1 : Option Bool) : Statement (.debounceEvent contactor made0 made1) :=
  of_event rfl

theorem rfPresentEvent (station : Station) (active : Bool) : Statement (.rfPresentEvent station active) := of_event rfl

theorem measurementCompletion (rawReference rawTower : Nat) (referenceCrossings towerCrossings : List Nat) :
    Statement (.measurementCompletion rawReference rawTower referenceCrossings towerCrossings) :=
  of_event rfl

theorem verifyTimerExpiry (station : Station) : Statement (.verifyTimerExpiry station) := of_event rfl

theorem outOfToleranceHoldExpiry (station : Station) : Statement (.outOfToleranceHoldExpiry station) := of_event rfl

theorem staleTimerExpiry (station : Station) (tower : Nat) : Statement (.staleTimerExpiry station tower) := of_event rfl

theorem siteClockTick : Statement (.siteClockTick) := of_event rfl

theorem minuteTick : Statement (.minuteTick) := of_event rfl

theorem loadIdleTimerExpiry : Statement (.loadIdleTimerExpiry) := of_event rfl

theorem imageWriteCompletion : Statement (.imageWriteCompletion) := of_event rfl

theorem lastStateWriteCompletion : Statement (.lastStateWriteCompletion) := of_event rfl

theorem characterReceived (link : Station) (char : Byte) (stopLow : Bool) : Statement (.characterReceived link char stopLow) :=
  of_event rfl

theorem gapTimerExpiry (link : Station) : Statement (.gapTimerExpiry link) := of_event rfl

theorem breakEvent (link : Station) : Statement (.breakEvent link) := of_event rfl

theorem characterTransmitted (link : Station) : Statement (.characterTransmitted link) := of_event rfl

theorem frameTransmissionStart (link : Station) : Statement (.frameTransmissionStart link) := of_event rfl

theorem powerReferencePeriodStart (station : Station) : Statement (.powerReferencePeriodStart station) := of_event rfl

theorem lineReturnHigh (link : Station) : Statement (.lineReturnHigh link) := of_event rfl

end FitsFrame
end Laws
end Sys2Proof
end

