-- ==== Sys2Proof/Laws/Requests.lean ====
section
/-! SUPPORT. What a request command does on a link that is ready for it, and what an event leaves when no scan stay begins
or ends in it: the two rules by which a command's next state is read off its block's own operation. -/
namespace Sys2Proof
namespace Machine

/-! ### Events -/

/-- An event in which no scan stay begins or ends leaves its work's records and notices and nothing more. -/
theorem State.event_eq (f : Work → Work) (s : State)
    (h : ∀ y, ((f s.work).stations.get y).scanStay = (s.stations.get y).scanStay) : s.event f = s.finish (f s.work) := by
  have hA := h .A
  have hB := h .B
  simp only [Pair.get_A, Pair.get_B] at hA hB
  simp [State.event, Work.settleScan, hA, hB]

/-- An event taken while a measurement is in progress and kept so leaves the scan list alone. -/
theorem State.event_eq_of_measuring (f : Work → Work) (s : State) (h : (f s.work).measurement.isSome = true) :
    s.event f = s.finish (f s.work) := by
  have : (f s.work).measurement.isNone = false := by
    cases hm : (f s.work).measurement <;> simp_all
  simp [State.event, Work.settleScan, this]

/-- The state an event's work leaves. -/
theorem State.finish_eq (w : Work) (s : State) : s.finish w = State.deliver w.posts { s with toPlant := w.toPlant } := rfl

/-! ### Requests -/

/-- A request's body is read as that request (R163). -/
theorem parseRequest_body (r : Request) : parseRequest r.body = .ok r := by
  cases r <;> try rfl
  case clockSet year day hour minute second =>
    have split (w : Word16) : byteOf (w.toNat / 256) ++ byteOf w.toNat = w := by
      apply BitVec.eq_of_toNat_eq
      simp only [byteOf, BitVec.toNat_append, BitVec.toNat_ofNat]
      rw [← Nat.shiftLeft_add_eq_or_of_lt (by omega), Nat.shiftLeft_eq]
      have := w.isLt
      omega
    show parseRequest (0x0A :: (wordBytes year ++ wordBytes day ++ [hour, minute, second])) = _
    simp only [parseRequest, wordBytes, bytes16, List.cons_append, List.nil_append]
    show clockOperands _ = _
    simp [clockOperands, split]

/-- A frame received on a link that is ready is handed on at once. -/
theorem State.receiveFrame_ready (x : Station) (body : List Byte) (s : State) (h : s.Ready x) :
    s.receiveFrame x body = (s.onPort x Port.frameClosed).handOn x body := by
  obtain ⟨hr, hl, hh, hs⟩ := h
  simp [State.receiveFrame, State.hears, PartPhase.isHeld, hr, hl, hh, State.completeFrame, State.slotEmpty, hs]

/-- A request received on a link that is ready is acted on and answered at once. -/
theorem State.receiveRequest_ready (x : Station) (r : Request) (s : State) (h : s.Ready x) :
    s.receiveRequest x r = (s.onPort x Port.frameClosed).answer x r := by
  rw [State.receiveRequest, State.receiveFrame_ready x _ s h, State.handOn, parseRequest_body]

/-- Posting a notice and closing a frame on a port may be taken in either order. -/
theorem Port.post_frameClosed (n : Notice) (p : Port) : p.frameClosed.post n = (p.post n).frameClosed := by
  by_cases h : p.notices.length < Config.noticeQueueSize
  · simp only [Port.post, Port.frameClosed_notices, h, if_true]
    rfl
  · simp only [Port.post, Port.frameClosed_notices, h, if_false]
    rfl

theorem State.deliver_frameClosed (x : Station) (posts : List (Station × Notice)) (s : State) :
    State.deliver posts (s.onPort x Port.frameClosed) = (State.deliver posts s).onPort x Port.frameClosed := by
  induction posts generalizing s with
  | nil => rfl
  | cons q posts ih =>
    have step : (s.onPort x Port.frameClosed).onPort q.1 (Port.post q.2)
        = (s.onPort q.1 (Port.post q.2)).onPort x Port.frameClosed := by
      rcases q with ⟨y, n⟩
      cases x <;> cases y <;> simp [State.onPort, Pair.set, Pair.get, Port.post_frameClosed]
    show State.deliver posts ((s.onPort x Port.frameClosed).onPort q.1 (Port.post q.2)) = _
    rw [step, ih]
    rfl

/-- What a request's command leaves on a ready link, when no scan stay begins or ends in it: the work's records, its
notices, and the reply. -/
theorem State.answer_eq (x : Station) (r : Request) (s : State)
    (h : ∀ y, ((act x (s.ports.get x).dropped r s.work).1.stations.get y).scanStay = (s.stations.get y).scanStay) :
    (s.onPort x Port.frameClosed).answer x r =
      (State.deliver (act x (s.ports.get x).dropped r s.work).1.posts
        { s with toPlant := (act x (s.ports.get x).dropped r s.work).1.toPlant }).answered x r.kind
          (act x (s.ports.get x).dropped r s.work).2.code (act x (s.ports.get x).dropped r s.work).2.data := by
  have hd : ((s.onPort x Port.frameClosed).ports.get x).dropped = (s.ports.get x).dropped := by simp
  have hw : (s.onPort x Port.frameClosed).work = s.work := rfl
  unfold State.answer
  simp only [hd, hw]
  rw [State.event_eq _ _ (by intro y; rw [hw]; exact h y), hw]
  have hp : { s.onPort x Port.frameClosed with toPlant := (act x (s.ports.get x).dropped r s.work).1.toPlant }
      = ({ s with toPlant := (act x (s.ports.get x).dropped r s.work).1.toPlant } : State).onPort x Port.frameClosed := rfl
  rw [State.finish_eq, hp, State.deliver_frameClosed]
  simp only [State.placeReply, State.onPort_onPort]
  rfl

/-- Notices that join the queues leave the reply slots alone. -/
theorem State.deliver_reply (posts : List (Station × Notice)) (s : State) (y : Station) :
    ((State.deliver posts s).ports.get y).reply = (s.ports.get y).reply := by
  induction posts generalizing s with
  | nil => rfl
  | cons q posts ih =>
    show ((State.deliver posts (s.onPort q.1 (Port.post q.2))).ports.get y).reply = _
    rw [ih, State.onPort_ports]
    by_cases hy : y = q.1
    · subst hy
      rw [Pair.get_set_self]
      unfold Port.post
      split <;> rfl
    · rw [Pair.get_set_of_ne _ _ hy]

/-- The reply slots after a request has been answered. -/
theorem State.answer_reply (s : State) (x y : Station) (r : Request) :
    ((s.answer x r).ports.get y).reply =
      if y = x then some ((act x (s.ports.get x).dropped r s.work).2.body r.kind) else (s.ports.get y).reply := by
  unfold State.answer
  simp only [State.placeReply, State.onPort_ports]
  by_cases hy : y = x
  · subst hy
    rw [Pair.get_set_self, if_pos rfl]
  · rw [Pair.get_set_of_ne _ _ hy, if_neg hy]
    simp only [State.event, State.finish]
    rw [State.deliver_reply]

/-- What the end of an event may do to the scan list leaves every other field alone. -/
theorem Work.settleScan_field {α : Type} (f : Plant → α)
    (hf : ∀ (p : Plant) list m e, f { p with scanList := list, measurement := m, lastEntry := e } = f p) (w : Work)
    (before : Plant) : f (w.settleScan before).toPlant = f w.toPlant := by
  have h1 : f w.recomputeScan.toPlant = f w.toPlant := by
    unfold Work.recomputeScan
    dsimp only
    split
    · exact hf w.toPlant _ w.measurement w.lastEntry
    · exact hf w.toPlant _ _ _
  unfold Work.settleScan
  split
  · exact h1
  · rfl

/-- Whatever the event leaves outside the scan, in any one field. -/
theorem State.event_field {α : Type} (g : Plant → α)
    (hg : ∀ (p : Plant) list m e, g { p with scanList := list, measurement := m, lastEntry := e } = g p) (f : Work → Work)
    (s : State) : g (s.event f).toPlant = g (f s.work).toPlant := by
  rw [State.event_toPlant]
  exact Work.settleScan_field g hg _ _

/-! ### The pending list and the end of a transition -/

/-- While its head cannot start, the pending list stays as it is (R25). -/
theorem Work.examinePending_waiting (w : Work) (h : w.Waiting) : w.examinePending = w := by
  unfold Work.examinePending Work.examineFor
  rcases h with h | h
  · rw [h]
    rfl
  · split
    · rfl
    · split
      · rfl
      · rw [h]
        rfl

/-- While a transition is active, the pending list stays as it is (R25). -/
theorem Work.examinePending_active (w : Work) (h : w.transition ≠ none) : w.examinePending = w := by
  refine w.examinePending_waiting (.inr ?_)
  cases ht : w.transition with
  | none => exact absurd ht h
  | some t => simp [Plant.canStart, ht]

/-- Handing a last-state record changes the store's own fields and nothing else (R50, R152). -/
theorem Work.handLastState_eq (marker : Bool) (w : Work) :
    w.handLastState marker = { w with
      writing := (w.handLastState marker).writing
      writeQueue := (w.handLastState marker).writeQueue
      imageRecord := (w.handLastState marker).imageRecord
      lastRecord := (w.handLastState marker).lastRecord } := by
  unfold Work.handLastState Work.startNextWrite
  dsimp only
  split
  · unfold Work.startWrite
    dsimp only
    split <;> rfl
  · rfl

/-- What a last-state record holds depends on the active patterns, the store and elapsed time alone. -/
theorem Work.handLastState_congr (marker : Bool) (v w : Work) (h1 : v.writing = w.writing) (h2 : v.writeQueue = w.writeQueue)
    (h3 : v.imageRecord = w.imageRecord) (h4 : v.lastRecord = w.lastRecord) (h5 : v.elapsed = w.elapsed)
    (h6 : ∀ x, v.active x = w.active x) :
    (v.handLastState marker).writing = (w.handLastState marker).writing ∧
    (v.handLastState marker).writeQueue = (w.handLastState marker).writeQueue ∧
    (v.handLastState marker).imageRecord = (w.handLastState marker).imageRecord ∧
    (v.handLastState marker).lastRecord = (w.handLastState marker).lastRecord := by
  unfold Work.handLastState Work.startNextWrite
  rw [h1, h2, h6, h6]
  dsimp only
  generalize queueLastState ⟨w.active .A, w.active .B, marker⟩ w.writeQueue = queue
  cases w.writing with
  | some g => exact ⟨rfl, rfl, h3, h4⟩
  | none =>
    cases queue with
    | nil => exact ⟨rfl, rfl, h3, h4⟩
    | cons job rest =>
      cases job with
      | image bytes =>
        refine ⟨?_, rfl, ?_, h4⟩
        · simp only [Work.startWrite, h5]
        · simp only [Work.startWrite, h3]
      | lastState content =>
        refine ⟨?_, rfl, h3, rfl⟩
        simp only [Work.startWrite, h5]

/-- The end of a transition (R51): the notices, the last-state record, the retry hold, and the record deleted. -/
theorem Work.endTransition_eq (result : Result) (w : Work) (t : Transition) (h : w.transition = some t) :
    w.endTransition result = { w with
      posts := w.posts ++ t.informed.map fun y =>
        (y, .transitionEnded t.tag t.station t.target t.source result (w.active .A) (w.active .B))
      writing := (w.handLastState false).writing
      writeQueue := (w.handLastState false).writeQueue
      imageRecord := (w.handLastState false).imageRecord
      lastRecord := (w.handLastState false).lastRecord
      retryHold := if t.source = .schedule ∧ result.spares = false then w.retryHold.set t.station 10 else w.retryHold
      transition := none
      consentTimer := none
      deferTimer := none } := by
  unfold Work.endTransition
  simp only [h]
  set n := Notice.transitionEnded t.tag t.station t.target t.source result (w.active .A) (w.active .B)
  have hp := Work.postAll_toPlant t.informed n w
  have hf : ∀ {α : Type} (f : Plant → α), f (w.postAll t.informed n).toPlant = f w.toPlant := fun f => by rw [hp]
  obtain ⟨c1, c2, c3, c4⟩ := Work.handLastState_congr false (w.postAll t.informed n) w (hf Plant.writing) (hf Plant.writeQueue)
    (hf Plant.imageRecord) (hf Plant.lastRecord) (hf Plant.elapsed) (fun x => hf fun p => p.active x)
  rw [Work.handLastState_eq false (w.postAll t.informed n), c1, c2, c3, c4]
  have hw : w.postAll t.informed n = { w with posts := w.posts ++ t.informed.map fun y => (y, n) } := by
    have := Work.postAll_posts t.informed n w
    cases hv : w.postAll t.informed n with
    | mk p q =>
      rw [hv] at hp this
      dsimp only at hp this
      rw [hp, this]
  rw [hw]
  unfold Work.reportEnd
  split <;> rfl

end Machine
end Sys2Proof
end

