-- ==== Sys2Proof/Laws/Sampling.lean ====
section
/-! SUPPORT. What the phase timer's operations answer (R93). -/
namespace Sys2Proof
namespace Machine

/-- The first crossing from a period on is one of the crossings, and the least of those in time. -/
theorem firstCrossing_eq_some {since : Nat} {crossings : List Nat} {c : Nat} :
    firstCrossing since crossings = some c ↔
      (c ∈ crossings ∧ since ≤ c ∧ c ≤ Config.measurementCounts) ∧
        ∀ e ∈ crossings, since ≤ e → e ≤ Config.measurementCounts → c ≤ e := by
  unfold firstCrossing
  rw [List.min?_eq_some_iff]
  simp only [List.mem_filter, decide_eq_true_eq]
  exact and_congr_right fun _ => ⟨fun h e he hs hl => h e ⟨he, hs, hl⟩, fun h e he => h e he.1 he.2.1 he.2.2⟩

/-- There is no first crossing from a period on when none is in time. -/
theorem firstCrossing_eq_none {since : Nat} {crossings : List Nat} :
    firstCrossing since crossings = none ↔ ∀ e ∈ crossings, since ≤ e → Config.measurementCounts < e := by
  unfold firstCrossing
  rw [List.min?_eq_none_iff, List.filter_eq_nil_iff]
  simp only [decide_eq_true_eq, not_and, Nat.not_le]

/-- A count reads at most 8191 (R93). -/
theorem timerReading_le (opening closing : Option Nat) : timerReading opening closing ≤ 8191 := Nat.min_le_left ..

end Machine
end Sys2Proof
end

