-- ==== Sys2Proof/Tests/Slice0.lean ====
section
/-! SUPPORT. The model's own tests: what `Instr.wellFormed` refuses, one or two single steps for each command with the
outcome the manual gives it, and for each statement with hypotheses a concrete state that meets them. -/
namespace Sys2Proof
namespace Tests
set_option Elab.async false
open Machine

/-! ### Well-formedness: each check refuses an ill-formed command -/

theorem test_loadBlock_of_159_bytes_refused : (Instr.loadBlock .A 0 (List.replicate 159 0)).wellFormed = false := by decide +kernel
theorem test_loadBlock_of_158_bytes_admitted : (Instr.loadBlock .A 0 (List.replicate 158 0)).wellFormed = true := by decide +kernel
theorem test_unknownKind_of_a_request_kind_refused :
    (Instr.unknownKind .A 0x01 []).wellFormed = false ∧ (Instr.unknownKind .A 0x11 []).wellFormed = false := by decide
theorem test_unknownKind_of_160_bytes_refused : (Instr.unknownKind .A 0x12 (List.replicate 160 0)).wellFormed = false := by decide +kernel
theorem test_unknownKind_admitted :
    (Instr.unknownKind .A 0x00 []).wellFormed = true ∧ (Instr.unknownKind .A 0x12 (List.replicate 159 0)).wellFormed = true := by
  decide +kernel
theorem test_debounceEvent_of_no_contactor_refused :
    (Instr.debounceEvent 0 (some true) none).wellFormed = false ∧ (Instr.debounceEvent 17 (some true) none).wellFormed = false := by
  decide
theorem test_debounceEvent_of_no_input_refused : (Instr.debounceEvent 1 none none).wellFormed = false := by decide
theorem test_measurementCompletion_out_of_range_refused :
    (Instr.measurementCompletion 4096 0 [] []).wellFormed = false ∧ (Instr.measurementCompletion 0 4096 [] []).wellFormed = false ∧
    (Instr.measurementCompletion 0 0 [1280001] []).wellFormed = false ∧
    (Instr.measurementCompletion 0 0 [] [1280001]).wellFormed = false := by decide +kernel
theorem test_measurementCompletion_out_of_order_refused :
    (Instr.measurementCompletion 0 0 [6400, 0] []).wellFormed = false ∧
    (Instr.measurementCompletion 0 0 [] [5, 5]).wellFormed = false ∧
    (Instr.measurementCompletion 4095 4095 [0, 6400, 1280000] [1125, 7525]).wellFormed = true := by decide +kernel
theorem test_staleTimerExpiry_of_no_channel_refused :
    (Instr.staleTimerExpiry .A 1).wellFormed = false ∧ (Instr.staleTimerExpiry .A 7).wellFormed = false := by decide

/-! ### A small configuration -/

/-- A memory with some bytes written at an offset. -/
def put (a : Nat) (bytes : List Byte) (m : Memory) : Memory := Memory.writeBlock m a bytes

/-- A sound image (R168, R169). Contactor 1 is shared and contactor 2 is A's, each with a pulse of 100 ms, a settle of 50 ms and
one retry. A1 needs contactor 1 at 0 with power 1000 and fault power 400, A2 needs it at 1 with power and fault power 500, and
B1 needs nothing with power 800 and fault power 300; each has towers 1 and 2, a window of 4 and a verify count of 2. Station A
has one schedule entry, for A2 at 12:02 on every day. -/
def image : Memory :=
  let settings (s : Nat) (policies : Byte) (m : Memory) : Memory := put s [0, 100, 20, 0, 30, 10, 0, 60, 3, policies] m
  let pattern (b : Nat) (number powerHigh powerLow faultHigh faultLow position : Byte) (m : Memory) : Memory :=
    put b [1, 0x50, 0x41, 0x54, number, powerHigh, powerLow, faultHigh, faultLow, 2, 30, 4, 2, 30, 0, 100, 0, 200, position]
      (put (b + 34) [3, 0xE8, 0, 50, 0, 0, 0, 50] m)
  put 1096 [0x81] (put 472 [0x04, 0x01, 0x01, 0x6E, 0x02, 0xD2] (pattern 632 0x31 3 0x20 1 0x2C 0 (pattern 232 0x32 1 0xF4 1 0xF4 2
    (pattern 152 0x31 3 0xE8 1 0x90 1 (settings 616 0x11 (settings 136 0x00
      (put 16 [1, 1, 2, 10, 5, 1] (put 8 [1, 3, 1, 10, 5, 1] (put 0 [3] [])))))))))

theorem test_image_sound : firstFailure image = none := by decide +kernel
theorem test_image_in_canonical_form : Memory.wf image = true := by decide +kernel
theorem test_check_byte_fails_first : firstFailure (put 0 [4] image) = some 1096 := by decide +kernel
theorem test_lowest_offset_fails_first :
    firstFailure (put 1096 [0x6E] (put 10 [17] (put 0 [6] image))) = some 0 := by decide +kernel
theorem test_rank_17_fails_alone : firstFailure (put 1096 [0x71] (put 10 [17] image)) = some 10 := by decide +kernel

/-! ### Small states -/

/-- A station's units with a carrier state, a level and an active pattern, RF present following the level. -/
def unit (state : CarrierState) (level : Nat) (active : Option PatternNo) : StationUnit :=
  { StationUnit.reset with
    activePattern := active
    carrier :=
      { Carrier.reset with
        state := state, level := level, rfPresent := some (decide (0 < level))
        verifyRequired := state != .normal, rampTimer := some (Config.ms 100), periodTimer := some (Config.ms 1) } }

/-- The part in service with A1 and B1 on the air at full power and every contactor at 0. -/
def service : State :=
  { State.reset with
    phase := .running
    startUpCause := some .powerOn
    image := some image
    imageRecord := ⟨.valid, image⟩
    lastRecord := .valid ⟨some 0, some 0, false⟩
    consentPolicy := ⟨some .auto, some .ask⟩
    schedulePolicy := ⟨some .auto, some .manual⟩
    aux := Vector.replicate 16 ⟨some true, some false⟩
    contactors := Vector.replicate 16 ⟨some .zero, .idle, .noFailure⟩
    stations := ⟨unit .normal 1000 (some 0), unit .normal 800 (some 0)⟩ }

/-- A's transition with tag 7 from A1 to A2: contactor 1 is to move from 0 to 1, and both stations are affected. -/
def toA2 (phase : Phase) (consent : ConsentState) : Transition :=
  { tag := 7, station := .A, target := 1, source := .manual, previous := some 0
    moves := [⟨0, some .zero, .one, .waiting⟩], affected := ⟨true, true⟩
    entries := ⟨some ⟨some 0, some .full⟩, some ⟨some 0, some .full⟩⟩
    phase := phase, consent := consent, withdrawTaken := false, cause := none, result := none }

/-- The part with that transition in a phase and the stations as given. -/
def inPhase (phase : Phase) (consent : ConsentState) (a b : StationUnit) : State :=
  { service with transition := some (toA2 phase consent), stations := ⟨a, b⟩ }

/-- The transition waiting for B's answer. -/
def asking : State :=
  { inPhase .consentWait .asked (unit .normal 1000 (some 0)) (unit .normal 800 (some 0)) with
    consentTimer := some (Config.seconds 30) }

/-- B's deferral running. -/
def deferred : State :=
  { inPhase .consentWait .deferred (unit .normal 1000 (some 0)) (unit .normal 800 (some 0)) with
    deferTimer := some (Config.seconds 60) }

/-- Both stations HELD and QUIET, contactor 1 moving to 1 in its first attempt, and its contacts as given. -/
def moving (phase : AttemptPhase) (contacts : Aux) : State :=
  { inPhase .switch .granted (unit .held 0 (some 0)) (unit .held 0 (some 0)) with
    driver := some ⟨0, some .zero, .one, 1, phase, false, Config.ms 1⟩
    aux := service.aux.set 0 contacts
    contactors := service.contactors.set 0 ⟨some .zero, if phase = .pulsing then .pulsing else .settling, .noFailure⟩ }

/-- The same with contactor 2 moved before. -/
def movingSecond (contacts : Aux) (attempt : Nat) (taken : Bool) : State :=
  let s := moving .settling contacts
  { s with
    transition := some { toA2 .switch .granted with
      moves := [⟨1, some .zero, .one, .moved⟩, ⟨0, some .zero, .one, .waiting⟩], withdrawTaken := taken }
    driver := some ⟨0, some .zero, .one, attempt, .settling, taken, Config.ms 1⟩ }

/-- Station A measured on tower 2, in service with A's carrier as given. -/
def measuring (state : CarrierState) (passes : Nat) : State :=
  let u := unit state 1000 (some 0)
  let u := { u with carrier := { u.carrier with
    passCount := passes, verifyTimer := if state = .verifying then some (Config.seconds 30) else none } }
  { service with
    stations := ⟨u, unit .normal 800 (some 0)⟩
    measurement := some ⟨⟨.A, 0⟩, 12, -8, 100, 0, Config.ms 20⟩
    lastEntry := some ⟨.A, 0⟩ }

/-- The part with a load of block size 128 held by A. -/
def loading (expected : Nat) (complete : Bool) (buffer : Memory) : State :=
  { service with
    loadSlot := .held .A 128 expected complete, loadBuffer := buffer, loadIdleTimer := some (Config.seconds 60) }

/-- The part with a reading of the site clock. -/
def clocked (hour minute second : Nat) : State :=
  { service with clock := some ⟨2024, 60, hour, minute, second⟩, clockTimer := some (Config.seconds 1) }

/-- The part with an image write in progress, so that no head can start. -/
def writingImage : State := { service with writing := some ⟨.image image, Config.ms 400⟩ }

/-- The answer of a command is a next state of which a property holds. -/
def gives (o : Host.Outcome State Fault Refusal) (p : State → Bool) : Bool :=
  match o with
  | .next t => p t
  | .fault _ | .refused _ => false

/-- The reply body in A's slot. -/
def replyA (s : State) : Option (List Byte) := (s.ports.get .A).reply

/-- Changes A's carrier record. -/
def withA (f : Carrier → Carrier) (s : State) : State := s.onCarrier .A f

/-! ### One or two steps for each command, with the outcome the manual gives -/

theorem test_powerOn_forgets_the_image : gives (exec .powerOn service) (fun t => t.image == none && t.phase == .held .powerOn) = true := by
  decide +kernel
theorem test_resetLine_keeps_the_records :
    gives (exec .resetLine service) (fun t => t.lastRecord == service.lastRecord && t.imageRecord == service.imageRecord) = true := by
  decide +kernel
/-- The strap table of R155: high, low is 38400. -/
theorem test_resetEnd_reads_straps : gives (exec (.resetEnd true false) State.reset) (fun t => t.rate == .r38400) = true := by decide
theorem test_startUp_without_image :
    gives (exec .startUp { State.reset with phase := .starting .powerOn, startUpTimer := some 1 })
      (fun t => t.phase == .running && (t.ports.get .B).notices == [.started .powerOn false false none none]) = true := by
  decide +kernel
/-- A1's map asks for contactor 1 at 0 and A2's for 1; the contacts show 1 made. -/
theorem test_startUp_takes_the_candidate :
    gives (exec .startUp
        { State.reset with
          phase := .starting .resetLine, startUpTimer := some 1, imageRecord := ⟨.valid, image⟩
          aux := (Vector.replicate 16 ⟨some true, some false⟩).set 0 ⟨some false, some true⟩ })
      (fun t => t.active .A == some 1 && (t.carrier .A).state == .raising && t.lastRecord == .torn) = true := by
  decide +kernel

theorem test_patternRequest_accepted : gives (exec (.patternRequest .A 2) writingImage) (fun t =>
    replyA t == some [0x81, 0x00, 1] && t.pendingList == [⟨1, .A, 1, .manual⟩] && t.tagCounter == 2) = true := by decide +kernel
/-- B's policy is ASK, contactor 1 is shared, and the request so waits for B's consent; one pulse of 100 ms and one settle of
50 ms are an estimated hold of 2 units (R30). -/
theorem test_patternRequest_asks : gives (exec (.patternRequest .A 2) service) (fun t =>
    (t.transition.map fun r => (r.phase, r.consent)) == some (.consentWait, .asked) &&
      (t.ports.get .B).notices == [.transitionStarted 1 .A 1 .manual 1, .consentQuery 1 .A 1 2]) = true := by decide +kernel
theorem test_withdraw_of_nothing : gives (exec (.withdraw .A) service) (fun t => replyA t == some [0x82, 0x07]) = true := by
  decide +kernel
theorem test_withdraw_ends_the_query : gives (exec (.withdraw .A) asking) (fun t =>
    t.transition == none && ((t.ports.get .B).notices.head? == some (.consentWithdrawn 7))) = true := by decide +kernel
theorem test_grant_quiesces : gives (exec (.grant .B 7) asking) (fun t =>
    (t.transition.map fun r => r.phase) == some .quiesce && (t.carrier .B).state == .lowering) = true := by decide +kernel
theorem test_defer_stale : gives (exec (.defer .B 6) asking) (fun t =>
    (t.ports.get .B).reply == some [0x83, 0x08] && t.transition == asking.transition) = true := by decide +kernel
theorem test_defer_starts_its_timer : gives (exec (.defer .B 7) asking) (fun t =>
    t.deferTimer == some (Config.seconds 60) && t.consentTimer == none) = true := by
  decide +kernel
theorem test_consentPolicy_bad_value : gives (exec (.consentPolicy .A 3) service) (fun t =>
    replyA t == some [0x84, 0x02] && t.consentPolicy == service.consentPolicy) = true := by decide +kernel
theorem test_schedulePolicy_auto_clears_the_override :
    gives (exec (.schedulePolicy .A 0) { service with override := ⟨.set .unknown, .clear⟩ }) (fun t =>
      t.override == ⟨.clear, .clear⟩ && t.schedulePolicy.a == some .auto) = true := by decide +kernel
theorem test_statusQuery_length : gives (exec (.statusQuery .A) service) (fun t =>
    ((t.ports.get .A).reply.map (fun b => b.take 2)) == some [0x86, 0x00]) = true := by decide +kernel
theorem test_monitorQuery_changes_no_plant : gives (exec (.monitorQuery .B) service) (fun t => t.stations == service.stations) = true := by
  decide +kernel
theorem test_contactorQuery_answers : gives (exec (.contactorQuery .A) service) (fun t =>
    (replyA t).map (fun b => b.take 2) == some [0x88, 0x00]) = true := by decide +kernel
theorem test_contactorRelease_of_the_other_station : gives (exec (.contactorRelease .B 2) service) (fun t =>
    (t.ports.get .B).reply == some [0x89, 0x0A]) = true := by decide +kernel
theorem test_contactorRelease_mends : gives
    (exec (.contactorRelease .A 2) { service with contactors := service.contactors.set 1 ⟨some .one, .failed, .stuck⟩ }) (fun t =>
      t.contactors[1] == ⟨some .zero, .idle, .noFailure⟩ && (t.ports.get .B).notices == []) = true := by decide +kernel
theorem test_clockSet_day_366 :
    gives (exec (.clockSet .A 2023 366 0 0 0) service) (fun t => replyA t == some [0x8A, 0x02] && t.clock == none) = true ∧
    gives (exec (.clockSet .A 2024 366 0 0 0) service) (fun t => t.clock == some ⟨2024, 366, 0, 0, 0⟩) = true := by decide +kernel
theorem test_clockQuery : gives (exec (.clockQuery .A) service) (fun t => replyA t == some [0x8B, 0x11]) = true ∧
    gives (exec (.clockQuery .A) (clocked 12 1 59)) (fun t => replyA t == some [0x8B, 0x00, 0x07, 0xE8, 0, 60, 12, 1, 59]) = true := by
  decide +kernel
theorem test_loadOpen_busy : gives (exec (.loadOpen .B 16) (loading 0 false [])) (fun t =>
    (t.ports.get .B).reply == some [0x8C, 0x0C] && t.loadSlot == .held .A 128 0 false) = true := by decide +kernel
/-- 1097 bytes are eight blocks of 128 and one of 73. -/
theorem test_loadBlock_last : gives (exec (.loadBlock .A 8 (List.replicate 73 0)) (loading 8 false [])) (fun t =>
    t.loadSlot == .held .A 128 9 true) = true := by decide +kernel
theorem test_loadCommit_invalid : gives (exec (.loadCommit .A) (loading 9 true (put 1096 [0x71] (put 10 [17] image)))) (fun t =>
    replyA t == some [0x8E, 0x0F, 0, 10]) = true := by decide +kernel
theorem test_loadCommit_accepted : gives (exec (.loadCommit .A) (loading 9 true image)) (fun t =>
    replyA t == some [0x8E, 0x00] && t.loadSlot == .free && t.imageRecord.condition == .torn) = true := by decide +kernel
theorem test_loadCancel_of_nothing : gives (exec (.loadCancel .A) service) (fun t => replyA t == some [0x8F, 0x0D]) = true := by
  decide +kernel
theorem test_readbackOpen_bad_size : gives (exec (.readbackOpen .A 17) service) (fun t => replyA t == some [0x90, 0x02]) = true := by
  decide +kernel
/-- Index 68 of size 16 is the last: the image's nine bytes from 1088 on, the check byte behind them. -/
theorem test_readbackBlock_last :
    gives (exec (.readbackBlock .A 68) { service with readback := ⟨some 16, none⟩ }) (fun t =>
      replyA t == some [0x91, 0x00, 68, 0, 0, 0, 0, 0, 0, 0, 0, 0x81]) = true := by decide +kernel
theorem test_unknownKind : gives (exec (.unknownKind .A 0x12 [1]) service) (fun t => replyA t == some [0x92, 0x03]) = true := by
  decide +kernel

theorem test_consentWaitTimerExpiry : gives (exec .consentWaitTimerExpiry asking) (fun t =>
    t.transition == none && t.elapsed == Config.seconds 30 &&
      (t.ports.get .A).notices == [.transitionEnded 7 .A 1 .manual .noConsent (some 0) (some 0)]) = true := by decide +kernel
theorem test_deferTimerExpiry : gives (exec .deferTimerExpiry deferred) (fun t => t.transition == none && t.deferTimer == none) = true := by
  decide +kernel
theorem test_muteTimerExpiry_reverts :
    let held := unit .held 0 (some 0)
    gives (exec (.muteTimerExpiry .A) (withA (fun r => { r with muteTimer := some 9, rfPresent := some true })
      (inPhase .quiesce .granted held held))) (fun t =>
        t.transition == none && (t.carrier .A).state == .raising && (t.carrier .B).state == .raising) = true := by decide +kernel
/-- A1's ramp-down step is 100 a tick (R74). -/
theorem test_rampTick_lowers : gives
    (exec (.rampTick .A) (withA (fun r => { r with state := .lowering, ramp := some ⟨0, .hold, 0⟩ }) service)) (fun t =>
      (t.carrier .A).level == 900) = true := by decide +kernel
theorem test_rampTick_ends_at_the_target : gives
    (exec (.rampTick .A) (withA (fun r => { r with state := .raising, level := 950, ramp := some ⟨1000, .full, 0⟩ }) service)) (fun t =>
      (t.carrier .A).level == 1000 && (t.carrier .A).state == .normal) = true := by decide +kernel
theorem test_pulseTimeEnd : gives (exec .pulseTimeEnd (moving .pulsing ⟨some true, some false⟩)) (fun t =>
    t.coil == none && t.contactors[0].state == .settling) = true := by decide +kernel
theorem test_settleTimeEnd_moved : gives (exec .settleTimeEnd (moving .settling ⟨some false, some true⟩)) (fun t =>
    t.contactors[0] == ⟨some .one, .idle, .noFailure⟩ && t.active .A == some 1 && (t.carrier .B).state == .raising) = true := by
  decide +kernel
theorem test_settleTimeEnd_retries : gives (exec .settleTimeEnd (moving .settling ⟨some true, some false⟩)) (fun t =>
    (t.driver.map fun m => (m.attempt, m.phase)) == some (2, .pulsing)) = true := by decide +kernel
theorem test_debounceEvent_breaks_the_map : gives (exec (.debounceEvent 1 (some false) none) service) (fun t =>
    t.active .A == none && (t.carrier .A).state == .dark && t.active .B == some 0) = true := by decide +kernel
theorem test_debounceEvent_of_index_17_faults : exec (.debounceEvent 17 (some true) none) service = .fault .noSuchContactor := rfl
theorem test_rfPresentEvent_in_held : gives
    (exec (.rfPresentEvent .A true) (withA (fun r => { r with state := .held, level := 0, rfPresent := some false }) service)) (fun t =>
      (t.ports.get .A).notices == [.rfWhileInhibited .held none]) = true := by decide +kernel
/-- The manual's 3062 with a trim of 12 is 3050. -/
theorem test_measurementCompletion : gives (exec (.measurementCompletion 3062 2702 [100, 6500, 12900] [40, 1225, 7625])
    (measuring .normal 0)) (fun t =>
    (t.stations.get .A).reference == ⟨3050, true⟩ && ((t.stations.get .A).channels[0].window == [⟨889, 633⟩])) = true := by
  decide +kernel
theorem test_measurementCompletion_dropped :
    gives (exec (.measurementCompletion 3062 2702 [100, 6500, 12900] [40, 1225, 7625])
      (withA (fun r => { r with state := .held }) (measuring .normal 0)))
      (fun t => (t.stations.get .A).reference == ⟨0, false⟩) = true := by decide +kernel
theorem test_verifyTimerExpiry : gives (exec (.verifyTimerExpiry .A) (measuring .verifying 1)) (fun t =>
    (t.carrier .A).state == .lowering && (t.carrier .A).ramp == some ⟨400, .reduce, 0⟩) = true := by decide +kernel
theorem test_outOfToleranceHoldExpiry :
    gives (exec (.outOfToleranceHoldExpiry .B) ({ service with elapsed := 4 }.onCarrier .B fun r => { r with holdTimer := some 5 }))
      (fun t => (t.carrier .B).ramp == some ⟨300, .reduce, 0⟩ && (t.ports.get .B).notices.length == 2) = true := by decide +kernel
theorem test_staleTimerExpiry_of_tower_7_faults : exec (.staleTimerExpiry .A 7) service = .fault .noSuchChannel := rfl
theorem test_siteClockTick_over_the_year :
    gives (exec .siteClockTick { service with clock := some ⟨2023, 365, 23, 59, 59⟩, clockTimer := some 9 }) (fun t =>
      t.clock == some ⟨2024, 1, 0, 0, 0⟩) = true := by decide +kernel
/-- A's entry asks for A2 at 12:02. -/
theorem test_minuteTick_fires : gives (exec .minuteTick (clocked 12 1 59)) (fun t =>
    (t.transition.map fun r => (r.target, r.source)) == some (1, .schedule)) = true := by decide +kernel
theorem test_minuteTick_is_no_other_tick : gives (exec .minuteTick (clocked 12 1 58)) (fun t => t == clocked 12 1 58) = true := by decide +kernel
theorem test_loadIdleTimerExpiry : gives (exec .loadIdleTimerExpiry (loading 3 false [])) (fun t =>
    t.loadSlot == .free && (t.ports.get .A).notices == [.loadExpired 128 3]) = true := by decide +kernel
theorem test_imageWriteCompletion : gives (exec .imageWriteCompletion writingImage) (fun t =>
    t.imageRecord == ⟨.valid, image⟩ && t.writing == none) = true := by decide +kernel
theorem test_lastStateWriteCompletion :
    gives (exec .lastStateWriteCompletion { service with writing := some ⟨.lastState ⟨some 1, none, true⟩, 9⟩, lastRecord := .torn })
      (fun t => t.lastRecord == .valid ⟨some 1, none, true⟩) = true := by decide +kernel

theorem test_characterReceived_xoff : gives (exec (.characterReceived .A 0x13 false) service) (fun t =>
    (t.ports.get .A).running == false && (t.ports.get .A).fifo == []) = true := by decide +kernel
theorem test_characterReceived_opens : gives (exec (.characterReceived .A 0xE3 false) service) (fun t =>
    (t.ports.get .A).assembler == .opened) = true := by decide +kernel
theorem test_gapTimerExpiry_drops :
    gives (exec (.gapTimerExpiry .A) (service.onPort .A fun p =>
      { p with assembler := .body, content := [1], line := .begun, gapTimer := some 9 })) (fun t =>
        (t.ports.get .A).assembler == .hunt && (t.ports.get .A).dropped == 1) = true := by decide +kernel
theorem test_break_frees_the_load : gives (exec (.breakEvent .A) (loading 3 false [])) (fun t =>
    t.loadSlot == .free && (t.ports.get .A).lineLow) = true := by decide +kernel
theorem test_characterTransmitted_empties_the_slot :
    gives (exec (.characterTransmitted .A) (service.onPort .A fun p =>
      { p with reply := some [0x81, 0x00], frame := some ⟨[], true⟩, char := some ⟨0xE3, true, 9⟩ })) (fun t =>
        replyA t == none && (t.ports.get .A).char == none) = true := by decide +kernel
/-- A character time at 9600 is ten bit times: 600000 units of 1/576000000 s. -/
theorem test_frameTransmissionStart : gives (exec (.frameTransmissionStart .A) (service.onPort .A fun p =>
    { p with reply := some [0x82, 0x07] })) (fun t =>
      (t.ports.get .A).char == some ⟨0xE3, false, 600000⟩ && (t.ports.get .A).frame == some ⟨[0x82, 0x07, 0x77, 0xE3], true⟩) = true := by
  decide +kernel
theorem test_powerReferencePeriodStart : gives (exec (.powerReferencePeriodStart .A) service) (fun t =>
    (t.carrier .A).dutyInForce == 1000) = true := by decide +kernel
/-- At a duty of 1 the output is high for the period's first 576 units, which are 1 µs, and low from then on. -/
theorem test_powerReference_of_1 :
    let s (now : Nat) : State := { withA (fun r => { r with dutyInForce := 1 }) service with elapsed := now }
    (s 575).powerReference .A = true ∧ (s 576).powerReference .A = false := by decide +kernel
theorem test_lineReturnHigh : gives (exec (.lineReturnHigh .A) (service.onPort .A fun p => { p with lineLow := true })) (fun t =>
    (t.ports.get .A).lineLow == false) = true := by decide +kernel

/-! ### The manual's worked figures -/

/-- Measurements 1, 3 and 4 of section 5.5: counts of 6400 and 1125; no crossing on either channel; and a tower crossing that
falls together with the next reference crossing. -/
theorem test_counts_figures :
    periodCount [100, 6500, 12900] = 6400 ∧ delayCount [100, 6500, 12900] [40, 1225, 7625] = 1125 ∧
    periodCount [] = 8191 ∧ delayCount [] [] = 8191 ∧
    periodCount [0, 6500] = 6500 ∧ delayCount [0, 6500] [6500] = 6500 := by decide +kernel
/-- A count not closed by the completion is the number it has reached, and two crossings that fall together are 0 apart. -/
theorem test_counts_at_the_completion :
    periodCount [1279000] = 1000 ∧ delayCount [1279000] [1278999] = 1000 ∧ delayCount [1279000] [1279000] = 0 ∧
    periodCount [0] = 8191 ∧ periodCount [0, 8192] = 8191 := by decide +kernel
theorem test_sampleRatio_figures : sampleRatio 3050 2710 = 889 ∧ sampleRatio 16 4095 = 9999 ∧ sampleRatio 2000 1001 = 501 := by decide
theorem test_samplePhase_figures :
    samplePhase 6400 1125 = 633 ∧ samplePhase 6400 6050 = -197 ∧ samplePhase 6400 3200 = 1800 ∧ samplePhase 6400 3201 = -1799 ∧
    samplePhase 6720 6719 = -1 := by decide
theorem test_phaseDeviation_figures :
    phaseDeviation 1790 (-1780) = -30 ∧ phaseDeviation (-1790) 1780 = 30 ∧ phaseDeviation 900 (-900) = 1800 := by decide
theorem test_average_figures :
    averageDeviation [-3, -4] = -4 ∧ ratioAverage [884, 887, 886, 889] = 887 ∧ ratioAverage [886, 887, 889] = 887 := by decide
theorem test_margin_figures : margin 15 40 = 63 ∧ margin 17 30 = 44 ∧ quantityStatus 17 30 50 = .advisory := by decide
theorem test_trim_figures :
    correctedAmplitude 3062 12 = 3050 ∧ correctedAmplitude 4093 (-8) = 4095 ∧ correctedAmplitude 20 31 = 0 := by decide

/-! ### Concrete states that meet the hypotheses of the statements

Each theorem is named for its statement and lists, clause by clause, what the statement supposes. -/

theorem waiting_of_empty {p : Plant} (h : p.pendingList = []) : p.Waiting := .inl h

theorem settled_of_none {p : Plant} (h : p.transition = none) : p.Settled := fun t ht => by rw [h] at ht; cases ht

theorem outOfService_at_reset : State.reset.OutOfService :=
  ⟨rfl, fun x => by cases x <;> rfl, rfl, rfl, rfl, rfl, rfl, rfl, rfl⟩

/-- The part in the start-up wait of a power-on reset, with an image record. -/
def starting (record : ImageRecord) : State :=
  { State.reset with phase := .starting .powerOn, startUpTimer := some (Config.ms 100), imageRecord := record }

theorem starting_outOfService (record : ImageRecord) : (starting record).OutOfService :=
  ⟨rfl, fun x => by cases x <;> rfl, rfl, rfl, rfl, rfl, rfl, rfl, rfl⟩

theorem starting_carriersSound (record : ImageRecord) : (starting record).CarriersSound := by
  intro x
  cases x <;> refine ⟨?_, ?_, ?_, ?_, ?_, ?_, ?_, ?_, ?_, ?_⟩ <;>
    simp [Plant.carrier, Pair.get, starting, State.reset, StationUnit.reset, Carrier.reset]

/-- A frame is held on link A, so that the port takes no further frame. -/
def holding (fifo : List FifoByte) : State :=
  service.onPort .A fun p => { p with heldFrame := some [6], fifo := fifo, char := some ⟨0xE3, false, 600000⟩ }

/-- Both stations HELD and QUIET in a phase of the switch, contactor 1 in its first attempt, and a result decided. -/
def disturbed : State :=
  let s := moving .settling ⟨some false, some false⟩
  { s with
    transition := some { toA2 .switch .granted with result := some .rfDuringSwitch }
    driver := some ⟨0, some .zero, .one, 1, .settling, true, Config.ms 1⟩ }

/-- The reversal of contactor 1 in its settle time, with A's transition in a phase, the move list and A's units as given. -/
def reversing (phase : Phase) (moves : List MoveEntry) (contacts : Aux) (attempt : Nat) (a : StationUnit) : State :=
  let s := moving .settling contacts
  { s with
    transition := some { toA2 phase .granted with moves := moves, cause := some .withdraw }
    stations := ⟨a, unit .held 0 (some 0)⟩
    driver := some ⟨0, some .one, .zero, attempt, .settling, false, Config.ms 1⟩ }

/-- A station HELD and QUIET. -/
def quiet : StationUnit :=
  let u := unit .held 0 (some 0)
  { u with carrier := { u.carrier with muteConfirmed := true } }

theorem witness_StepTakesTheFront :
    ({ service with pending := [.powerOn] } : State).pending = .powerOn :: [] ∧ service.pending = [] := ⟨rfl, rfl⟩
theorem witness_QueriesChangeNothing : service.Ready .A ∧ service.Ready .B := by decide
theorem witness_PoliciesSet : service.Ready .A ∧ ({ service with image := none } : State).Ready .B := by decide
theorem witness_ContactorReleased : service.Ready .A ∧ (17#8).toNat = 17 ∧ (1#8).toNat = (0 : ContactorNo).val + 1 ∧
    (16#8).toNat = (15 : ContactorNo).val + 1 := by decide
theorem witness_ClockIsSet : service.Ready .A ∧ ({ service with image := none } : State).Ready .A ∧ (2099#16).toNat = 2099 ∧
    (2000#16).toNat = 2000 ∧ (366#16).toNat = 366 ∧ (59#8).toNat ≤ 59 ∧ (23#8).toNat ≤ 23 := by decide
theorem witness_LoadAndReadback :
    (service.Ready .A ∧ (loading 0 false []).Ready .B ∧ ∀ size expected, service.loadSlot ≠ .held .A size expected false) ∧
    ((loading 8 false []).Ready .A ∧ (loading 8 false []).loadSlot = .held .A 128 8 false ∧ (8#8).toNat = 8 ∧
      (List.replicate 73 (0 : Byte)).length = 1097 % 128 ∧ Memory.wf (loading 8 false []).loadBuffer = true) ∧
    service.readback.get .A = none ∧
    (let s : State := { service with readback := ⟨some 16, none⟩ }
     s.Ready .A ∧ s.readback.get .A = some 16) :=
  ⟨⟨by decide, by decide, fun _ _ h => (by cases h)⟩, ⟨by decide, rfl, rfl, rfl, rfl⟩, by decide, by decide⟩
theorem witness_LoadCommitRefused :
    (service.Ready .A ∧ ∀ size expected, service.loadSlot ≠ .held .A size expected true) ∧
    (loading 9 true image).loadSlot = .held .A 128 9 true ∧
    (let busy : State := { loading 9 true image with writing := some ⟨.image image, 9⟩ }
     busy.Ready .A ∧ busy.imageWritePending = true) ∧
    (let bad := loading 9 true (put 0 [4] image)
     bad.Ready .A ∧ bad.transition = none ∧ bad.pendingList = [] ∧ bad.imageWritePending = false ∧
       firstFailure bad.loadBuffer = some 1096) ∧
    (let of (q : PatternNo) : State := { loading 9 true image with stations := ⟨unit .normal 1000 (some q), unit .normal 800 (some 0)⟩ }
     (of 2).Ready .A ∧ (of 2).active .A = some 2 ∧ ((of 2).carrier .A).state ≠ .dark ∧ firstFailure (of 2).loadBuffer = none ∧
      (pattern (of 2).loadBuffer .A 2).inUse = false ∧ satisfied (of 1).loadBuffer (of 1).contactors .A 1 = false) ∧
    (let was (a : Nat) (b : Byte) : State := { loading 9 true image with image := some (put a [b] image) }
     (pattern image .A 0).power ≠ (pattern (was 158 0).activeImage .A 0).power ∧
      (pattern image .A 0).fault ≠ (pattern (was 160 0).activeImage .A 0).fault ∧
      (pattern image .A 0).towers ≠ (pattern (was 161 3).activeImage .A 0).towers ∧
      (pattern image .A 0).verifyCount ≠ (pattern (was 164 3).activeImage .A 0).verifyCount) :=
  ⟨⟨by decide, fun _ _ h => by cases h⟩, rfl, by decide +kernel, by decide +kernel, by decide +kernel, by decide +kernel⟩
theorem witness_ImageValidated :
    let sum (m : Memory) : Nat := ((List.range 1097).map fun a => (Memory.read m a).toNat).sum % 256
    (Memory.wf image = true ∧ sum image = 0) ∧ (Memory.wf (put 0 [4] image) = true ∧ sum (put 0 [4] image) ≠ 0) ∧
    (let rank17 := put 1096 [0x71] (put 10 [17] image)
     Memory.wf rank17 = true ∧ sum rank17 = 0) := by decide +kernel
theorem witness_LoadCommitAccepted :
    let s := loading 9 true image
    s.Ready .A ∧ s.loadSlot = .held .A 128 9 true ∧ s.transition = none ∧ s.pendingList = [] ∧ s.imageWritePending = false ∧
    firstFailure s.loadBuffer = none ∧ s.mismatch s.loadBuffer .A = false ∧ s.mismatch s.loadBuffer .B = false ∧
    s.clock = none ∧ s.writing = none ∧ s.writeQueue = [] := by decide +kernel

theorem witness_PatternRequestRefused :
    (service.Ready .A ∧ service.Waiting ∧ service.image ≠ none ∧
      (∀ q : PatternNo, (3#8).toNat = q.val + 1 → (pattern service.activeImage .A q).inUse = false) ∧
      (pattern service.activeImage .A 0).inUse = true ∧ service.owns .A = false ∧ service.active .A = some 0 ∧
      (service.carrier .A).state = .normal ∧ service.pendingOf .A = none) ∧
    asking.owns .A = true ∧
    (let ramp : Ramp := ⟨400, .reduce, 0⟩
     let s := withA (fun r => { r with state := .lowering, ramp := some ramp }) service
     s.active .A = some 0 ∧ (s.carrier .A).state = .lowering ∧ (s.carrier .A).ramp = some ramp ∧ ramp.purpose = .reduce) ∧
    (let s : State := { writingImage with pendingList := [⟨9, .A, 1, .manual⟩] }
     s.Ready .A ∧ s.Waiting ∧ s.pendingOf .A = some ⟨9, .A, 1, .manual⟩ ∧ (s.carrier .A).state = .normal) :=
  ⟨⟨by decide, .inl rfl, by decide +kernel⟩, by decide +kernel, by decide +kernel, by decide +kernel, .inr (by decide +kernel),
    by decide +kernel⟩
theorem witness_PatternRequestAccepted :
    (let s := writingImage
     s.Ready .A ∧ s.image ≠ none ∧ (2#8).toNat = (1 : PatternNo).val + 1 ∧ (pattern s.activeImage .A 1).inUse = true ∧
      s.owns .A = false ∧ ¬(s.active .A = some 1 ∧ (s.carrier .A).onItsWay = true) ∧ s.canStart = false ∧ s.pendingOf .A = none) ∧
    (({ writingImage with pendingList := [⟨9, .A, 1, .manual⟩] } : State).pendingOf .A = some ⟨9, .A, 1, .manual⟩) ∧
    (let p := ({ asking with tagCounter := 255 } : State).toPlant
     p.tagCounter ≤ 255 ∧ p.tagsInUse.length ≤ 3) ∧
    (let s : State := { writingImage with clock := some ⟨2024, 60, 12, 2, 0⟩ }
     s.canStart = false ∧ s.pendingOf .A = none ∧ s.image = some image ∧ writingImage.clock = none ∧
      determining image .A ⟨2024, 60, 12, 2, 0⟩ = some (0, ⟨1, 2024, 60⟩)) ∧
    determining image .B ⟨2024, 60, 12, 2, 0⟩ = none := by decide +kernel
theorem witness_LevelChangeStarts :
    let s : State := { service with stations := ⟨unit .reduced 400 (some 0), unit .normal 800 (some 0)⟩ }
    s.Ready .A ∧ s.image ≠ none ∧ (1#8).toNat = (0 : PatternNo).val + 1 ∧ (pattern s.activeImage .A 0).inUse = true ∧
    s.transition = none ∧ s.pendingList = [] ∧ s.imageWritePending = false ∧
    ¬(s.active .A = some 0 ∧ (s.carrier .A).onItsWay = true) ∧ satisfied s.activeImage s.contactors .A 0 = true ∧
    s.conflicts .A 0 = false ∧ (s.carrier .A).level < (pattern s.activeImage .A 0).power ∧
    (let s : State := { service with stations := ⟨unit .reduced 1000 (some 0), unit .normal 800 (some 0)⟩ }
     s.Ready .A ∧ ¬(s.active .A = some 0 ∧ (s.carrier .A).onItsWay = true) ∧ s.conflicts .A 0 = false ∧
      (pattern s.activeImage .A 0).power = (s.carrier .A).level ∧ s.measurement = none ∧
      gives (exec (.patternRequest .A 1) s) (fun t => t.measurement.map (fun n => n.entry) == some ⟨.A, 0⟩) = true) ∧
    (let s := measuring .reduced 0
     s.measurement ≠ none ∧ (s.carrier .A).state = .reduced) := by decide +kernel
/-- A2 moves contactor 1, which B1 of this image also requires, at 0. -/
theorem witness_PlanEndsTheRequest :
    (let m := image
     let requested (s : State) : Prop := s.Ready .A ∧ s.image ≠ none ∧ s.transition = none ∧ s.pendingList = [] ∧
       s.imageWritePending = false ∧ ¬(s.active .A = some 1 ∧ (s.carrier .A).onItsWay = true)
     (2#8).toNat = (1 : PatternNo).val + 1 ∧ (pattern m .A 1).inUse = true ∧ mapEntry m .A 1 0 = some .one ∧
     (let s : State := { service with contactors := service.contactors.set 0 ⟨some .zero, .failed, .stuck⟩ }
      requested s ∧ s.contactors[(0 : ContactorNo)].state = .failed) ∧
     (let s : State := { service with image := some (put 650 [1] image) }
      requested s ∧ (∀ k : ContactorNo, s.contactors[k] = ⟨some .zero, .idle, .noFailure⟩) ∧ (s.carrier .B).state ≠ .dark ∧
       s.active .B = some 0 ∧ mapEntry s.activeImage .B 0 0 = some .zero) ∧
     (let s : State := { service with consentPolicy := ⟨some .auto, some .refuse⟩ }
      requested s ∧ (∀ k : ContactorNo, mapEntry m .B 0 k = none) ∧ (s.carrier .B).state ≠ .dark ∧
       s.contactors[(0 : ContactorNo)].position ≠ some .one ∧ carries m 0 .B = true ∧
       s.consentPolicy.get .B = some .refuse)) ∧
    (let s : State := { writingImage with pendingList := [⟨9, .A, 0, .manual⟩] }
     s.transition = none ∧ s.writing = some ⟨.image image, Config.ms 400⟩ ∧ s.writeQueue = [] ∧ s.active .A = some 0 ∧
      (s.carrier .A).onItsWay = true) := by decide +kernel
theorem witness_MovesArePlanned :
    let m := image
    let planned (s : State) : Prop := s.Ready .A ∧ s.image ≠ none ∧ s.transition = none ∧ s.pendingList = [] ∧
      s.imageWritePending = false ∧ ¬(s.active .A = some 1 ∧ (s.carrier .A).onItsWay = true) ∧ s.conflicts .A 1 = false ∧
      ∀ k : ContactorNo, s.contactors[k] = ⟨some .zero, .idle, .noFailure⟩
    (2#8).toNat = (1 : PatternNo).val + 1 ∧ (pattern m .A 1).inUse = true ∧ mapEntry m .A 1 0 = some .one ∧
    carries m 0 .A = true ∧ carries m 0 .B = true ∧
    (planned service ∧ (service.carrier .B).state ≠ .dark ∧ service.consentPolicy.get .B = some .ask) ∧
    (let s : State := { service with
       consentPolicy := ⟨some .auto, some .auto⟩
       stations := ⟨unit .reduced 400 (some 0), (withA (fun r => { r with state := .lowering, ramp := some ⟨0, .hold, 0⟩ })
         service).stations.a⟩ }
     planned s ∧ s.consentPolicy.get .B = some .auto ∧ (s.carrier .A).rfInhibit = false ∧ 0 < (s.carrier .A).level ∧
      s.active .A = some 0 ∧ (s.carrier .B).state = .lowering ∧
      (s.carrier .B).ramp.map (fun r => r.purpose) = some .hold) ∧
    (let s : State := { service with stations := ⟨unit .dark 0 none, unit .dark 0 none⟩ }
     planned s ∧ (∀ y ∈ [Station.A, .B], (s.carrier y).state = .dark ∧ (s.carrier y).rfInhibit = true ∧
       (s.carrier y).rfPresent = some false)) := by decide +kernel
theorem witness_WithdrawAnswered :
    (let s : State := { writingImage with pendingList := [⟨9, .A, 1, .schedule⟩] }
     s.Ready .A ∧ s.pendingOf .A = some ⟨9, .A, 1, .schedule⟩) ∧
    (service.Ready .A ∧ service.pendingOf .A = none ∧ service.owns .A = false) ∧
    (let s := inPhase .restore .granted (unit .raising 500 (some 1)) (unit .normal 800 (some 0))
     s.Ready .A ∧ s.pendingOf .A = none ∧ s.transition = some (toA2 .restore .granted)) ∧
    (let s := moving .pulsing ⟨some true, some false⟩
     s.Ready .A ∧ s.pendingOf .A = none ∧ s.transition = some (toA2 .switch .granted) ∧
      s.driver = some ⟨0, some .zero, .one, 1, .pulsing, false, Config.ms 1⟩ ∧
      (movingSecond ⟨some false, some true⟩ 1 true).transition.map (fun t => t.withdrawTaken) = some true ∧
      disturbed.transition.map (fun t => t.result.isSome) = some true) := by decide +kernel
theorem witness_WithdrawBeforeSwitch :
    (asking.Ready .A ∧ asking.pendingList = [] ∧ asking.transition = some (toA2 .consentWait .asked)) ∧
    (let s := inPhase .quiesce .granted (unit .lowering 600 (some 0)) (unit .held 0 (some 0))
     s.Ready .A ∧ s.pendingList = [] ∧ s.transition = some (toA2 .quiesce .granted) ∧ s.active .B = some 0 ∧
      (s.carrier .B).state ≠ .dark ∧ (s.carrier .B).level < (pattern s.activeImage .B 0).power) := by decide +kernel
theorem witness_GrantTaken :
    (asking.Ready .B ∧ asking.transition = some (toA2 .consentWait .asked) ∧ (7#8).toNat = 7) ∧
    (∃ y, (toA2 .consentWait .asked).affected.get y = true ∧ (asking.carrier y).rfInhibit = false ∧ 0 < (asking.carrier y).level) ∧
    (let s (purpose : RampPurpose) := withA (fun r => { r with state := .lowering, ramp := some ⟨0, purpose, 0⟩ }) asking
     ((s .hold).carrier .A).ramp = some ⟨0, .hold, 0⟩ ∧ ((s .reduce).carrier .A).ramp = some ⟨0, .reduce, 0⟩ ∧
      (s .reduce).active .A = some 0) ∧
    (let u := unit .held 0 (some 0)
     let s := inPhase .consentWait .asked (unit .verifying 0 (some 0)) { u with carrier := { u.carrier with muteConfirmed := true } }
     let e : MoveEntry := ⟨0, some .zero, .one, .waiting⟩
     s.Ready .B ∧ (s.carrier .B).quiet = true ∧
      ((s.carrier .A).rfInhibit = false ∧ (s.carrier .A).level = 0 ∧ (s.carrier .A).state ≠ .lowering ∧
        (s.carrier .A).rfPresent = some false) ∧
      (toA2 .consentWait .asked).moves.find? (fun d => d.outcome == .waiting) = some e ∧
      s.contactors[e.contactor].state ≠ .failed ∧ (s.carrier .B).rfPresent = some false ∧ (s.carrier .B).rfInhibit = true ∧
      (toA2 .consentWait .asked).affected.get .A = true) :=
  ⟨by decide, ⟨.A, by decide⟩, by decide, by decide +kernel⟩
theorem witness_DeferAndStaleAnswers :
    (asking.Ready .B ∧ asking.transition = some (toA2 .consentWait .asked) ∧ 0 < (settings asking.activeImage .B).deferLimit) ∧
    (deferred.Ready .B ∧ deferred.transition = some (toA2 .consentWait .deferred)) ∧
    (let s : State := { asking with image := some (put 622 [0, 0] image) }
     s.Ready .B ∧ (settings s.activeImage .B).deferLimit = 0 ∧ s.pendingList = []) ∧
    (∀ t, service.transition = some t → t.phase = .consentWait → t.station = Station.B.peer → t.tag ≠ (7#8).toNat) :=
  ⟨by decide +kernel, by decide +kernel, by decide +kernel, fun _ h => by cases h⟩

theorem witness_RequestFramesRead :
    (Instr.statusQuery .A).frame? = some (.A, [0x06]) ∧ State.reset.phase.isHeld = true ∧
    (let s := starting ⟨.blank, []⟩
     s.phase.isHeld = false ∧ (s.ports.get .A).lineLow = false ∧ (s.ports.get .A).heldFrame = none ∧ s.phase ≠ .running) ∧
    ((service.onPort .A fun p => { p with reply := some [0x86, 0] }).ports.get .A).reply ≠ none ∧
    (service.Ready .A ∧ (18#8).toNat = 18 ∧ (17#8).toNat ≤ 17) ∧ ∀ r : Request, (0x11 : Byte) :: ([] : List Byte) ≠ r.body := by
  refine ⟨by decide, by decide, by decide, by decide, by decide, ?_⟩
  intro r h
  cases r <;> simp_all [Request.body, Request.kind, Request.fields, wordBytes, bytes16]
theorem witness_FrameRoundTrip :
    (Instr.patternRequest .A 0xE3).wellFormed = true ∧ (Instr.patternRequest .A 0xE3).frame? = some (.A, [0x01, 0xE3]) ∧
    service.phase.isHeld = false ∧
    (let p := service.ports.get .A
     p.lineLow = false ∧ p.fifo = [] ∧ p.heldFrame = none ∧ (p.assembler = .hunt ∨ p.assembler = .opened) ∧ p.content = [] ∧
       p.damaged = false ∧ (p.char ≠ none ∨ (p.flowQueued = none ∧ (p.running = false ∨ p.frame = none)))) := by decide

theorem witness_ResetHeldAndEnded :
    writingImage.writing = some ⟨.image image, Config.ms 400⟩ ∧ Memory.wf writingImage.imageRecord.bytes = true ∧
    (∀ m due, service.writing ≠ some ⟨.image m, due⟩) ∧ State.reset.phase = .held .powerOn ∧ ∀ kind, service.phase ≠ .held kind :=
  ⟨rfl, by decide +kernel, fun _ _ h => (by cases h), rfl, fun _ h => by cases h⟩
theorem witness_StartUpUnconfigured :
    let s := starting ⟨.torn, [(0, 3)]⟩
    s.phase = .starting .powerOn ∧ s.startUpTimer = some (Config.ms 100) ∧ s.OutOfService ∧ (∀ x, s.active x = none) ∧
    (∀ x, (s.ports.get x).heldFrame = none) ∧ s.imageRecord.condition ≠ .valid ∧ firstFailure s.imageRecord.bytes ≠ none :=
  ⟨rfl, rfl, starting_outOfService _, fun x => by cases x <;> rfl, fun x => by cases x <;> rfl, by decide, by decide +kernel⟩
theorem witness_StartUpConfigured :
    let s := starting ⟨.valid, image⟩
    s.phase = .starting .powerOn ∧ s.startUpTimer = some (Config.ms 100) ∧ s.OutOfService ∧ (∀ x, s.active x = none) ∧
    (∀ x, (s.carrier x).level = 0) ∧ (∀ x, (s.ports.get x).heldFrame = none) ∧ (∀ x, (s.ports.get x).notices = []) ∧
    s.CarriersSound ∧ s.imageRecord = ⟨.valid, image⟩ ∧ firstFailure image = none :=
  ⟨rfl, rfl, starting_outOfService _, fun x => by cases x <;> rfl, fun x => by cases x <;> rfl, fun x => by cases x <;> rfl,
    fun x => by cases x <;> rfl, starting_carriersSound _, rfl, test_image_sound⟩

theorem witness_ConsentWaitExpires :
    (asking.transition = some (toA2 .consentWait .asked) ∧ asking.pendingList = [] ∧
      asking.consentTimer = some (Config.seconds 30)) ∧
    (deferred.transition = some (toA2 .consentWait .deferred) ∧ deferred.pendingList = [] ∧
      deferred.deferTimer = some (Config.seconds 60)) := by decide +kernel
theorem witness_MuteTimerExpires :
    let s := withA (fun r => { r with muteTimer := some 9, rfPresent := some true })
      (inPhase .quiesce .granted (unit .held 0 (some 0)) (unit .held 0 (some 0)))
    (s.carrier .A).muteTimer = some 9 ∧ s.transition = some (toA2 .quiesce .granted) ∧ s.pendingList = [] ∧
    (toA2 .quiesce .granted).affected.get .A = true ∧ s.active .B = some 0 ∧ (s.carrier .B).state ≠ .dark ∧
    (s.carrier .B).level < (pattern s.activeImage .B 0).power := by decide +kernel
theorem witness_CarrierClocksTick :
    let s := withA (fun r => { r with state := .lowering, ramp := some ⟨0, .hold, 0⟩ }) service
    let up := withA (fun r => { r with state := .raising, level := 799, ramp := some ⟨1000, .full, 0⟩ }) service
    s.Settled ∧ s.Waiting ∧ (s.carrier .A).rampTimer = some (Config.ms 100) ∧ (service.carrier .A).ramp = none ∧
    max 0 ((s.carrier .A).level - (pattern s.activeImage .A 0).rampDown) ≠ 0 ∧
    min 1000 ((up.carrier .A).level + (pattern up.activeImage .A 0).rampUp) ≠ 1000 ∧
    (service.carrier .A).periodTimer = some (Config.ms 1) ∧ (State.reset.carrier .A).periodTimer = none ∧
    (service.carrier .A).periodTimer = some (0 + Config.ms 1) ∧ service.elapsed = 0 + 0 ∧ 0 < Config.us 1000 ∧
    (service.carrier .A).dutyInForce ≤ 1000 ∧
    ((withA (fun r => { r with dutyInForce := 1000 }) service).carrier .A).dutyInForce = 1000 :=
  ⟨settled_of_none rfl, .inl rfl, by decide +kernel⟩
theorem witness_HoldRampCompletes :
    let s := withA (fun r => { r with state := .lowering, level := 100, ramp := some ⟨0, .hold, 0⟩ }) service
    (s.carrier .A).rampTimer = some (Config.ms 100) ∧ s.Settled ∧ s.Waiting ∧ (s.carrier .A).state = .lowering ∧
    (s.carrier .A).ramp = some ⟨0, .hold, 0⟩ ∧ (s.carrier .A).level ≤ (pattern s.activeImage .A 0).rampDown ∧
    ((s.carrier .A).rfPresent == some false) = false ∧
    (let lowering := withA (fun r => { r with state := .lowering, level := 100, ramp := some ⟨0, .hold, 0⟩, rfPresent := some false })
       (inPhase .quiesce .granted (unit .lowering 100 (some 0)) quiet)
     let e : MoveEntry := ⟨0, some .zero, .one, .waiting⟩
     (lowering.carrier .A).rampTimer = some (Config.ms 100) ∧ lowering.Settled ∧ lowering.Waiting ∧
      ((lowering.carrier .A).rfPresent == some false) = true ∧ lowering.transition = some (toA2 .quiesce .granted) ∧
      (lowering.carrier .B).quiet = true ∧
      (toA2 .quiesce .granted).moves.find? (fun d => d.outcome == .waiting) = some e ∧
      lowering.contactors[e.contactor].state ≠ .failed ∧ (lowering.carrier .B).rfInhibit = true ∧
      (lowering.carrier .A).rfPresent = some false ∧ (lowering.carrier .B).rfPresent = some false) :=
  ⟨rfl, settled_of_none rfl, .inl rfl, rfl, rfl, by decide +kernel, by decide +kernel, rfl,
    fun t h => (by cases h; exact ⟨rfl, fun _ => by decide, fun h => (by cases h), fun h => (by cases h)⟩), .inl rfl,
    by decide +kernel⟩
theorem witness_RampCompletes :
    let s := withA (fun r => { r with state := .raising, level := 800, ramp := some ⟨1000, .full, 0⟩ }) service
    (s.carrier .A).rampTimer = some (Config.ms 100) ∧ s.Settled ∧ s.pendingList = [] ∧ s.active .A = some 0 ∧
    (s.carrier .A).ramp = some ⟨1000, .full, 0⟩ ∧ (s.carrier .A).state = .raising ∧
    1000 ≤ (s.carrier .A).level + (pattern s.activeImage .A 0).rampUp ∧ s.measurement = none :=
  ⟨rfl, settled_of_none rfl, rfl, rfl, rfl, rfl, by decide +kernel, rfl⟩
theorem witness_RfPresentFollowed :
    State.reset.phase = .held .powerOn ∧ ((starting ⟨.blank, []⟩).phase = .starting .powerOn ∧
      ((starting ⟨.blank, []⟩).carrier .A).state = .dark) ∧
    (service.phase = .running ∧ (service.carrier .A).rfPresent = some true ∧ service.Settled ∧ service.Waiting ∧
      ∀ t, service.transition = some t → t.phase ≠ .switch ∧ t.phase ≠ .reverse) ∧
    (∀ t, service.transition = some t → t.phase = .quiesce →
      (∃ y, y ≠ .A ∧ t.affected.get y = true ∧ (service.carrier y).quiet = false) ∨
      (t.affected.get .A = true ∧ (service.carrier .A).state ≠ .held)) :=
  ⟨rfl, ⟨rfl, rfl⟩, ⟨rfl, rfl, settled_of_none rfl, .inl rfl, fun _ h => by cases h⟩, fun _ h => by cases h⟩
theorem witness_RfDisturbsSwitch :
    let s := moving .pulsing ⟨some true, some false⟩
    s.phase = .running ∧ (s.carrier .B).rfPresent ≠ some true ∧ s.transition = some (toA2 .switch .granted) ∧
    s.driver = some ⟨0, some .zero, .one, 1, .pulsing, false, Config.ms 1⟩ ∧
    (toA2 .switch .granted).moves.any (fun e => carries s.activeImage e.contactor .B) = true := by decide +kernel
theorem witness_QuiesceEndsInSwitch :
    let s := withA (fun r => { r with rfPresent := some true })
      (inPhase .quiesce .granted (unit .held 0 (some 0)) { unit .held 0 (some 0) with
        carrier := { (unit .held 0 (some 0)).carrier with muteConfirmed := true } })
    let e : MoveEntry := ⟨0, some .zero, .one, .waiting⟩
    s.phase = .running ∧ (s.carrier .A).rfPresent ≠ some false ∧ s.transition = some (toA2 .quiesce .granted) ∧
    (s.carrier .A).state = .held ∧ (∀ y, y ≠ Station.A → (toA2 .quiesce .granted).affected.get y = true → (s.carrier y).quiet = true) ∧
    (toA2 .quiesce .granted).moves.find? (fun d => d.outcome == .waiting) = some e ∧ s.contactors[e.contactor].state ≠ .failed ∧
    (∀ y, carries s.activeImage e.contactor y = true →
      (s.carrier y).rfInhibit = true ∧ (y ≠ .A → (s.carrier y).rfPresent = some false)) := by
  refine ⟨rfl, by decide, rfl, rfl, fun y => ?_, rfl, by decide, fun y _ => ?_⟩ <;> cases y <;> decide
theorem witness_VerifyTimerExpires :
    let s := measuring .verifying 1
    (s.carrier .A).verifyTimer = some (Config.seconds 30) ∧ (s.carrier .A).state = .verifying ∧ s.active .A = some 0 ∧
    (∀ t, s.transition = some t → t.station = .A → t.phase = .confirm → s.pendingList = []) ∧
    (pattern s.activeImage .A 0).fault ≤ (s.carrier .A).level ∧
    (let t := inPhase .confirm .granted (unit .verifying 500 (some 1)) (unit .normal 800 (some 0))
     t.transition = some (toA2 .confirm .granted) ∧ (pattern t.activeImage .A 1).fault = (t.carrier .A).level ∧ t.pendingList = []) :=
  ⟨rfl, rfl, rfl, fun _ h => (by cases h), by decide +kernel, by decide +kernel⟩
theorem witness_OutOfToleranceExpires :
    let s := withA (fun r => { r with holdTimer := some 9 }) service
    (s.carrier .A).holdTimer = some 9 ∧ (s.carrier .A).state = .normal ∧ s.active .A = some 0 ∧
    (pattern s.activeImage .A 0).fault ≤ (s.carrier .A).level := by decide +kernel

theorem witness_AttemptsRun :
    (moving .pulsing ⟨some true, some false⟩).driver = some ⟨0, some .zero, .one, 1, .pulsing, false, Config.ms 1⟩ ∧
    (let s := moving .settling ⟨some true, some false⟩
     let m : Move := ⟨0, some .zero, .one, 1, .settling, false, Config.ms 1⟩
     s.driver = some m ∧ s.aux[m.contactor].shows = some m.toPos.other ∧
      m.attempt ≤ (contactorRecord s.activeImage m.contactor).retries ∧ s.Waiting ∧ s.pendingList = [] ∧
      ∀ y, carries s.activeImage m.contactor y = true → (s.carrier y).rfInhibit = true ∧ (s.carrier y).rfPresent = some false) ∧
    (let s := withA (fun r => { r with rfPresent := some true }) (moving .settling ⟨some true, some false⟩)
     ∃ y, carries s.activeImage 0 y = true ∧ ¬((s.carrier y).rfInhibit = true ∧ (s.carrier y).rfPresent = some false)) := by
  refine ⟨rfl, ⟨rfl, by decide, by decide +kernel, .inl rfl, rfl, fun y _ => ?_⟩, .A, by decide +kernel⟩
  cases y <;> decide
theorem witness_AttemptIsRead :
    service.Waiting ∧ (∀ m, service.driver = some m → m.phase ≠ .settling) ∧
    (let s := moving .settling ⟨some true, some false⟩
     s.driver = some ⟨0, some .zero, .one, 1, .settling, false, Config.ms 1⟩ ∧ s.aux[(0 : ContactorNo)].shows = some .zero ∧
      (contactorRecord s.activeImage 0).retries = 1) ∧
    (moving .settling ⟨some false, some true⟩).aux[(0 : ContactorNo)].shows = some .one ∧
    (moving .settling ⟨some true, some true⟩).aux[(0 : ContactorNo)].shows = none :=
  ⟨.inl rfl, fun _ h => (by cases h), by decide +kernel, by decide, by decide⟩
theorem witness_MoveIsMade :
    (let s := moving .settling ⟨some false, some true⟩
     s.driver = some ⟨0, some .zero, .one, 1, .settling, false, Config.ms 1⟩ ∧ s.aux[(0 : ContactorNo)].shows = some .one ∧
      s.transition = some (toA2 .switch .granted) ∧ ((toA2 .switch .granted).entries.get .A).isSome = true ∧
      (s.carrier .A).level < (pattern s.activeImage .A 1).power) ∧
    (let s := moving .settling ⟨some false, some true⟩
     let e : MoveEntry := ⟨1, some .zero, .one, .waiting⟩
     let moves : List MoveEntry := [⟨0, some .zero, .one, .waiting⟩, e]
     (moves.map fun d => if d.contactor = 0 then { d with outcome := .moved } else d).find? (fun d => d.outcome == .waiting) =
        some e ∧ s.contactors[e.contactor].state ≠ .failed ∧
      ∀ y, carries s.activeImage e.contactor y = true → (s.carrier y).rfInhibit = true ∧ (s.carrier y).rfPresent = some false) := by
  refine ⟨by decide +kernel, by decide, by decide, fun y _ => ?_⟩
  cases y <;> decide
/-- The four endings of `Obligations.ReversalBegins`: MOVED behind a withdraw, STOPPED, STUCK and DISAGREE. -/
theorem witness_ReversalBegins :
    let retries := (contactorRecord image 0).retries
    let first : MoveEntry := ⟨1, some .zero, .one, .moved⟩
    (let s := movingSecond ⟨some false, some true⟩ 1 true
     s.driver = some ⟨0, some .zero, .one, 1, .settling, true, Config.ms 1⟩ ∧ s.aux[(0 : ContactorNo)].shows = some .one ∧
      s.transition.map (fun t => (t.phase, t.result, t.withdrawTaken)) = some (.switch, none, true)) ∧
    ((movingSecond ⟨some true, some false⟩ 1 true).aux[(0 : ContactorNo)].shows = some .zero ∧ 1 ≤ retries) ∧
    ((movingSecond ⟨some true, some false⟩ 2 false).aux[(0 : ContactorNo)].shows = some .zero ∧ ¬2 ≤ retries) ∧
    (movingSecond ⟨some true, some true⟩ 1 false).aux[(0 : ContactorNo)].shows = none ∧
    ([⟨0, some .zero, .one, .stuck⟩, first] : List MoveEntry).find? (fun d => d.outcome == .moved) = some first ∧
    (let s := movingSecond ⟨some true, some true⟩ 1 false
     s.contactors[first.contactor].state ≠ .failed ∧
      ∀ y, carries s.activeImage first.contactor y = true →
        (s.carrier y).rfInhibit = true ∧ (s.carrier y).rfPresent = some false) := by
  refine ⟨by decide +kernel, by decide +kernel, by decide +kernel, by decide, by decide, by decide, fun y _ => ?_⟩
  cases y <;> decide
/-- The cases of `Obligations.ReversalEnds`: the next reversal, a failed one, and the reversal complete behind a reversal and behind
the three endings of a move in SWITCH, with the requester to be raised, DARK, at its fault power, and with a map unsatisfied. -/
theorem witness_ReversalEnds :
    let retries := (contactorRecord image 0).retries
    let first : MoveEntry := ⟨1, some .zero, .one, .moved⟩
    let second : MoveEntry := ⟨0, some .zero, .one, .moved⟩
    let live (s : State) (l : Live) : Vector Live 16 := s.contactors.set 0 l
    let back : Live := ⟨some .zero, .idle, .noFailure⟩
    (let s := reversing .reverse [first, second] ⟨some true, some false⟩ 1 quiet
     s.driver = some ⟨0, some .one, .zero, 1, .settling, false, Config.ms 1⟩ ∧ s.aux[(0 : ContactorNo)].shows = some .zero ∧
      s.transition.map (fun t => (t.phase, t.result)) = some (.reverse, none) ∧
      ([first, { second with outcome := .notDone }].reverse.find? fun d => d.outcome == .moved) = some first ∧
      (live s back)[(1 : ContactorNo)].state ≠ .failed ∧
      ∀ y ∈ [Station.A, .B], (s.carrier y).rfInhibit = true ∧ (s.carrier y).rfPresent = some false) ∧
    ((reversing .reverse [second] ⟨some false, some true⟩ 2 quiet).aux[(0 : ContactorNo)].shows = some .one ∧ ¬2 ≤ retries) ∧
    (reversing .reverse [second] ⟨some true, some true⟩ 1 quiet).aux[(0 : ContactorNo)].shows = none ∧
    (let s := reversing .reverse [second] ⟨some true, some false⟩ 1 quiet
     let t := toA2 .reverse .granted
     s.pendingList = [] ∧ s.active .A = some 0 ∧ s.active .B = some 0 ∧ satisfied s.activeImage (live s back) .A 0 = true ∧
      satisfied s.activeImage (live s back) .B 0 = true ∧ t.restores .A = true ∧ t.returnLevel .A = some .full ∧
      (s.carrier .A).state ≠ .dark ∧ (s.carrier .A).level < (pattern s.activeImage .A 0).power ∧
      satisfied s.activeImage (live s ⟨none, .failed, .disagree⟩) .A 0 = false) ∧
    ((reversing .reverse [second] ⟨some true, some false⟩ 1 (unit .dark 0 none)).carrier .A).state = .dark ∧
    (let s := reversing .reverse [second] ⟨some true, some false⟩ 1 (unit .held 400 (some 0))
     (s.carrier .A).level = (pattern s.activeImage .A 0).fault) ∧
    (let s := reversing .switch [{ second with outcome := .waiting }] ⟨some false, some true⟩ 1 quiet
     s.transition.map (fun t => (t.phase, t.result)) = some (.switch, none) ∧ s.aux[(0 : ContactorNo)].shows = some .one ∧
      1 ≤ retries ∧ s.driver.map (fun m => { m with stop := true }) =
        some ⟨0, some .one, .zero, 1, .settling, true, Config.ms 1⟩) := by decide +kernel
theorem witness_ResolutionEndsTheSwitch :
    disturbed.driver = some ⟨0, some .zero, .one, 1, .settling, true, Config.ms 1⟩ ∧
    disturbed.transition.map (fun t => (t.phase, t.result)) = some (.switch, some .rfDuringSwitch) ∧ disturbed.pendingList = [] ∧
    (disturbed.ports.get .A).notices.length ≤ 8 := by decide +kernel

theorem witness_DebounceJudged :
    State.reset.phase = .held .powerOn ∧ (starting ⟨.blank, []⟩).phase = .starting .powerOn ∧ service.phase = .running ∧
    service.Waiting ∧ (⟨some false, some false⟩ : Aux) ≠ service.aux[(0 : ContactorNo)] ∧
    (contactorRecord service.activeImage 15).inUse = false ∧ (15 : ContactorNo).val + 1 = 16 ∧
    (contactorRecord service.activeImage 0).inUse = true ∧ (0 : ContactorNo).val + 1 = 1 ∧
    ((moving .pulsing ⟨some true, some false⟩).driver.map fun m => m.contactor) = some 0 ∧
    (∀ m, service.driver = some m → m.contactor ≠ 1) ∧ service.contactors[(1 : ContactorNo)].failure ≠ .disagree ∧
    service.transition = none ∧
    (∀ x q, service.active x = some q → satisfied service.activeImage service.contactors x q = true →
      satisfied service.activeImage (service.contactors.set 1 ⟨none, .failed, .disagree⟩) x q = true) := by
  refine ⟨rfl, rfl, rfl, .inl rfl, by decide, by decide +kernel, rfl, by decide +kernel, rfl, rfl, fun _ h => (by cases h), by decide, rfl,
    fun x q h _ => ?_⟩
  cases x <;> cases h <;> decide +kernel
theorem witness_MovementBreaksMaps :
    (let s := service
     s.phase = .running ∧ s.Waiting ∧ (⟨some false, some false⟩ : Aux) ≠ s.aux[(0 : ContactorNo)] ∧
      (contactorRecord s.activeImage 0).inUse = true ∧ s.driver = none ∧ s.contactors[(0 : ContactorNo)].failure ≠ .disagree ∧
      s.transition = none ∧ s.active .A = some 0 ∧ satisfied s.activeImage s.contactors .A 0 = true ∧
      satisfied s.activeImage (s.contactors.set 0 ⟨none, .failed, .disagree⟩) .A 0 = false) ∧
    (let s := moving .pulsing ⟨some true, some false⟩
     s.transition = some (toA2 .switch .granted) ∧ s.driver.map (fun m => m.contactor) = some 0 ∧
      (contactorRecord s.activeImage 1).inUse = true ∧ (⟨some false, some false⟩ : Aux) ≠ s.aux[(1 : ContactorNo)]) ∧
    (let s := inPhase .quiesce .granted (unit .lowering 600 (some 0)) (unit .held 0 (some 0))
     let split := s.contactors.set 0 ⟨none, .failed, .disagree⟩
     s.pendingList = [] ∧ s.driver = none ∧ s.transition = some (toA2 .quiesce .granted) ∧
      satisfied s.activeImage s.contactors .A 0 = true ∧ satisfied s.activeImage split .A 0 = false ∧
      satisfied s.activeImage split .B 0 = true ∧ (toA2 .quiesce .granted).affected.get .B = true) :=
  ⟨⟨rfl, .inl rfl, by decide +kernel⟩, by decide +kernel, by decide +kernel⟩
theorem witness_MeasurementCompletes :
    service.measurement = none ∧
    (let s := measuring .verifying 1
     let m : Measurement := ⟨⟨.A, 0⟩, 12, -8, 100, 0, Config.ms 20⟩
     s.measurement = some m ∧ s.pendingList = [] ∧ (s.carrier .A).state.measured = true ∧ (s.stations.get .A).scanStay = m.stay ∧
      m.floor ≤ min 4095 (((3062 : Nat) : Int) - m.referenceTrim).toNat ∧
      periodCount [0, 6720] = 6720 ∧ delayCount [0, 6720] [6719] = 6719 ∧ periodCount [9, 6089] = 6080 ∧ s.active .A = some 0 ∧
      (s.carrier .A).passCount + 1 = (pattern s.activeImage .A 0).verifyCount) ∧
    ((withA (fun r => { r with state := .held }) (measuring .normal 0)).carrier .A).state.measured = false ∧
    min 4095 (((91 : Nat) : Int) - -8).toNat < 100 ∧
    gives (exec (.measurementCompletion 3062 1000 [100, 6500] [100]) (measuring .normal 0)) (fun t =>
      (t.stations.get .A).arrayStatus == .out && ((measuring .normal 0).carrier .A).lastStatus == .unknown) = true ∧
    (let s : State := { measuring .verifying 1 with transition := some (toA2 .confirm .granted) }
     (toA2 .confirm .granted).station = .A ∧ s.pendingList = [] ∧ (s.ports.get .A).notices = []) ∧
    gives (exec (.measurementCompletion 3062 1000 [100, 6500] [100]) (measuring .normal 0)) (fun t =>
      t.scanList != [] && t.measurement.isSome && (t.stations.get .A).channels[(0 : TowerNo)].figures.isSome &&
        (t.stations.get .A).channels[(1 : TowerNo)].towerStatus == .unknown) = true := by
  decide +kernel
theorem witness_StaleTimerExpires :
    (0 : TowerNo).val + 2 = 2 ∧ (4 : TowerNo).val + 2 = 6 ∧
    (service.stations.get .A).channels[(4 : TowerNo)].staleTimer = none ∧
    (let u := unit .normal 1000 (some 0)
     let s : State := { service with
       stations := ⟨{ u with channels := u.channels.set 0 { Channel.reset with staleTimer := some 9 } }, u⟩ }
     (s.stations.get .A).channels[(0 : TowerNo)].staleTimer = some 9 ∧ s.active .A = some 0 ∧
      (0 : TowerNo).val + 2 ≤ (pattern s.activeImage .A 0).towers ∧ (s.stations.get .A).reference.present = false) := by
  decide +kernel

theorem witness_ClockTicks :
    service.clock = none ∧
    (let s := clocked 12 1 58
     s.clock = some ⟨2024, 60, 12, 1, 58⟩ ∧ s.clockTimer = some (Config.seconds 1) ∧
      Reading.valid ⟨2024, 60, 12, 1, 58⟩ = true ∧ 58 < 59) ∧
    (Reading.valid ⟨2099, 365, 23, 59, 59⟩ = true ∧ Reading.valid ⟨2024, 366, 23, 59, 59⟩ = true) ∧
    (let s : State := { clocked 23 59 59 with schedulePolicy := ⟨some .manual, some .manual⟩ }
     s.clock = some ⟨2024, 60, 23, 59, 59⟩ ∧ s.image ≠ none ∧ s.schedulePolicy.get .A ≠ some .auto ∧
      s.schedulePolicy.get .B ≠ some .auto) := by decide +kernel
theorem witness_ScheduleFires :
    let s : State := { clocked 12 1 59 with writing := writingImage.writing }
    let n : Reading := ⟨2024, 60, 12, 2, 0⟩
    s.clock = some ⟨2024, 60, 12, 1, 59⟩ ∧ s.clockTimer = some (Config.seconds 1) ∧ Reading.tick ⟨2024, 60, 12, 1, 59⟩ = some n ∧
    s.image = some image ∧ s.schedulePolicy.get .A = some .auto ∧ s.schedulePolicy.get .B ≠ some .auto ∧
    s.override.get .A = .clear ∧ s.override.get .B = .clear ∧ (s.carrier .A).state ≠ .dark ∧ s.owns .A = false ∧
    s.pendingOf .A = none ∧ s.retryHold.get .A ≤ 1 ∧ determining image .A n = some (0, ⟨1, 2024, 60⟩) ∧
    (scheduleEntry image .A 0).target = (1 : PatternNo).val + 1 ∧ (pattern image .A 1).inUse = true ∧ s.active .A ≠ some 1 ∧
    s.canStart = false := by decide +kernel
/-- Before 12:02 the determining occurrence is the day before's. -/
theorem witness_DeterminingIsLatest :
    determining image .A ⟨2024, 60, 12, 2, 0⟩ = some (0, ⟨1, 2024, 60⟩) ∧
    determining image .A ⟨2024, 1, 12, 1, 0⟩ = some (0, ⟨1, 2023, 365⟩) ∧ determining image .B ⟨2024, 60, 12, 2, 0⟩ = none := by
  decide +kernel
theorem witness_StoreEvents :
    (loading 3 false []).loadSlot = .held .A 128 3 false ∧ (loading 3 false []).loadIdleTimer = some (Config.seconds 60) ∧
    service.loadIdleTimer = none ∧ (writingImage.writing = some ⟨.image image, Config.ms 400⟩ ∧ writingImage.pendingList = []) ∧
    service.writing = none ∧
    (let s : State := { writingImage with
       pendingList := [⟨9, .A, 0, .manual⟩], stations := ⟨unit .reduced 400 (some 0), unit .normal 800 (some 0)⟩ }
     s.pendingList = ⟨9, .A, 0, .manual⟩ :: [] ∧ s.transition = none ∧ s.writeQueue = [] ∧
      ¬(s.active .A = some 0 ∧ (s.carrier .A).onItsWay = true) ∧ satisfied s.activeImage s.contactors .A 0 = true ∧
      s.conflicts .A 0 = false) ∧
    (let s : State := { writingImage with writeQueue := [.lastState ⟨none, none, false⟩] }
     s.pendingList = [] ∧ s.writeQueue = .lastState ⟨none, none, false⟩ :: []) ∧
    service.writeQueue = [] ∧ (writingImage.writing ≠ none ∧ writingImage.writeQueue = []) ∧
    (let s : State := { writingImage with writeQueue := [.lastState ⟨none, none, false⟩, .image image] }
     s.writing ≠ none ∧ s.writeQueue = [] ++ .lastState ⟨none, none, false⟩ :: [.image image] ∧
      ∀ d, WriteJob.lastState d ∉ [] ++ [WriteJob.image image]) :=
  ⟨rfl, rfl, rfl, by decide +kernel, rfl, by decide +kernel, by decide +kernel, rfl, by decide +kernel,
    by decide +kernel, rfl, by simp⟩

theorem witness_AssemblerTable :
    Port.reset.assembler = .hunt ∧
    (let p : Port := { Port.reset with assembler := .body, content := [0x06, 0xFA] }
     2 ≤ p.content.length ∧ (p.content.map BitVec.toNat).sum % 256 = 0 ∧ p.damaged = false) := by decide
theorem witness_CharactersReceived :
    State.reset.phase.isHeld = true ∧ (service.phase.isHeld = false ∧ (service.ports.get .A).lineLow = false ∧
      (service.ports.get .A).fifo = []) ∧
    (let p := (holding (List.replicate 47 ⟨0, false, false⟩)).ports.get .A
     p.heldFrame ≠ none ∧ p.fifo.length = 47 ∧ p.flowState = .xon ∧ p.char ≠ none) ∧
    (let p := (holding (List.replicate 63 ⟨0, false, false⟩)).ports.get .A
     p.fifo.length = 63) ∧
    (let p := (holding (List.replicate 64 ⟨0, false, false⟩)).ports.get .A
     64 ≤ p.fifo.length) ∧
    (Port.takeByte 0x41 { Port.reset with assembler := .opened }).2 = none ∧
    (let p := service.ports.get .A
     p.char = none ∧ p.flowQueued = none ∧ p.frame = none ∧ p.heldFrame = none) ∧
    (let p := (service.onPort .A fun p => { p with running := false, frame := some ⟨[0x86, 0xE3], true⟩ }).ports.get .A
     p.char = none ∧ p.flowQueued = none ∧ p.frame = some ⟨0x86 :: [0xE3], true⟩ ∧ p.running = false) ∧
    (let p := (service.onPort .A fun p => { p with assembler := .body, content := [0x06, 0xFA] }).ports.get .A
     p.char = none ∧ p.flowQueued = none ∧ p.frame = none ∧ p.heldFrame = none ∧ p.fifo = [] ∧
      (Port.takeByte 0xE3 { p with line := .delimiter, gapTimer := none }).2 = some [0x06]) ∧
    (Instr.statusQuery .A).frame? = some (.A, [0x06]) := by decide
theorem witness_GapsAndBreaks :
    (service.ports.get .A).gapTimer = none ∧
    (let p := (service.onPort .A fun p => { p with assembler := .body, content := [1], gapTimer := some 9 }).ports.get .A
     p.gapTimer = some 9 ∧ p.fifo = []) ∧
    (let p := (service.onPort .A fun p => { p with assembler := .opened, damaged := true, gapTimer := some 9 }).ports.get .A
     p.gapTimer = some 9 ∧ p.fifo = []) ∧
    (let p := ((holding [⟨0, false, false⟩]).onPort .A fun p => { p with gapTimer := some 9 }).ports.get .A
     p.gapTimer = some 9 ∧ p.fifo ≠ []) ∧
    service.phase.isHeld = false ∧ (service.ports.get .A).lineLow = false := by decide
theorem witness_FramesTransmitted :
    let idle (s : State) : Bool :=
      !s.phase.isHeld && (s.ports.get .A).running && (s.ports.get .A).frame.isNone && (s.ports.get .A).flowQueued.isNone &&
        (s.ports.get .A).char.isNone
    (idle service = true ∧ (service.ports.get .A).reply = none ∧ (service.ports.get .A).notices = []) ∧
    idle (service.onPort .A fun p => { p with reply := some [0x86, 0] }) = true ∧
    idle (service.onPort .A fun p => { p with notices := [.tableChanged .B] }) = true ∧
    (let p := (service.onPort .A fun p => { p with char := some ⟨0xE3, false, 600000⟩, frame := some ⟨[0x86], true⟩ }).ports.get .A
     p.char = some ⟨0xE3, false, 600000⟩ ∧ p.heldFrame = none ∧ p.frame = some ⟨[0x86], true⟩ ∧ p.flowQueued = none ∧
      p.running = true) ∧
    (let p := (service.onPort .A fun p =>
       { p with char := some ⟨0x86, false, 600000⟩, frame := some ⟨[0xE3], true⟩, reply := some [0x86, 0],
                heldFrame := some [6] }).ports.get .A
     p.char = some ⟨0x86, false, 600000⟩ ∧ p.heldFrame ≠ none ∧ p.reply ≠ none ∧ p.flowQueued = none ∧ p.running = true ∧
      p.frame = some ⟨[0xE3], true⟩) := by decide
theorem witness_HeldFramesHandedOn :
    let held (p : Port) : Port := { p with heldFrame := some [6], fifo := [⟨0xE3, true, true⟩] }
    ((Instr.statusQuery .A).frame? = some (.A, [6]) ∧ (Instr.statusQuery .B).frame? = some (.B, [6])) ∧
    (let s := service.onPort .A fun p => { held p with reply := some [0x86, 0], char := some ⟨0xE3, true, 600000⟩ }
     let p := s.ports.get .A
     s.phase = .running ∧ p.char = some ⟨0xE3, true, 600000⟩ ∧ p.lineLow = false ∧ p.frame = none ∧ p.heldFrame = some [6]) ∧
    (let s := (starting ⟨.blank, []⟩).onPort .A held
     let t := s.onPort .B held
     s.phase = .starting .powerOn ∧ s.startUpTimer = some (Config.ms 100) ∧ (s.ports.get .B).heldFrame = none ∧
      (∀ x ∈ [Station.A, .B], let p := t.ports.get x
        p.lineLow = false ∧ p.frame = none ∧ p.reply = none ∧ p.flowQueued = none ∧ p.heldFrame = some [6])) := by decide

theorem witness_SampleMeasures :
    0 < 1 ∧ 6719 < 6720 ∧
    (let reference := [0, 6400, 1280001]
     let tower := [6400]
     0 ∈ reference ∧ (∀ c ∈ reference, 0 ≤ c) ∧ 6400 ∈ reference ∧ 0 < 6400 ∧ (∀ e ∈ reference, 0 < e → 6400 ≤ e) ∧
      6400 ∈ tower ∧ ∀ e ∈ tower, 0 ≤ e → 6400 ≤ e) ∧
    (∀ c ∈ [1280000, 1280001], 1280000 < c → 1280000 < c) ∧ (∀ c ∈ [1279999], 1280000 ≤ c → 1280000 < c) ∧
    ∀ c ∈ [1280001], 1280000 < c := by decide +kernel
theorem witness_FiguresJudged :
    ([⟨9999, 1800⟩, ⟨0, -1799⟩] : List Sample) ≠ [] ∧
    (∀ v ∈ ([⟨9999, 1800⟩, ⟨0, -1799⟩] : List Sample), v.ratio ≤ 9999 ∧ -1799 ≤ v.phase ∧ v.phase ≤ 1800) ∧
    (-1799 : Int) ≤ (towerParameters image .A 0 0).phase ∧ (towerParameters image .A 0 0).phase ≤ 1800 ∧
    1 ≤ (towerParameters image .A 0 0).ratioTolerance ∧ 1 ≤ (towerParameters image .A 0 0).phaseTolerance := by decide +kernel
theorem witness_SizesAndFormsKept : State.reset.PortsBounded ∧ State.reset.Canonical ∧ step State.reset = .next { State.reset with elapsed := 1 } := by
  refine ⟨fun x => ?_, ⟨fun _ h => (by cases h), fun _ h => (by cases h), rfl, rfl, fun _ h => (by cases h), fun _ h => (by cases h)⟩, rfl⟩
  cases x <;> exact ⟨by decide, by decide, by decide, by decide, by decide⟩
theorem witness_CarriersStaySound : State.reset.CarriersSound := by
  intro x
  cases x <;> refine ⟨?_, ?_, ?_, ?_, ?_, ?_, ?_, ?_, ?_, ?_⟩ <;>
    simp [Plant.carrier, Pair.get, State.reset, StationUnit.reset, Carrier.reset]
theorem witness_NothingIsLeftUndone : State.reset.HeldUntilStarted ∧ State.reset.Waiting ∧ State.reset.Settled :=
  ⟨fun _ => outOfService_at_reset, .inl rfl, settled_of_none rfl⟩
theorem witness_ColdSwitchingKept :
    let s := moving .pulsing ⟨some true, some false⟩
    s.HeldUntilStarted ∧ s.Cold ∧ s.driver ≠ none := by
  refine ⟨fun h => absurd rfl h, ⟨fun _ => ⟨_, rfl, .inl rfl⟩, ?_⟩, by decide⟩
  intro m hm x _
  cases x <;> decide
theorem witness_NoPatternExactlyInDark : service.HeldUntilStarted ∧ service.Settled ∧ service.PatternUnlessDark := by
  refine ⟨fun h => absurd rfl h, settled_of_none rfl, fun x => ?_⟩
  cases x <;> decide

end Tests
end Sys2Proof
end

/-! PROOFS. A station without an active pattern is DARK (R19): what each operation of a station's units, of the Transition
Engine and of the other blocks keeps of it. -/
namespace Sys2Proof
namespace Machine

/-! ### A station's own units -/

/-- A station's records with no active pattern exactly in DARK (R19). -/
def StationUnit.Coupled (u : StationUnit) : Prop := u.activePattern = none ↔ u.carrier.state = .dark

/-- An operation of a station's units that keeps its pattern and its darkness coupled. -/
def KeepsCoupled (f : Ctx → StationWork → StationWork) : Prop :=
  ∀ c w, w.toStationUnit.Coupled → (f c w).toStationUnit.Coupled

/-- An operation that leaves the active pattern as it is and the station not DARK. -/
def Lights (f : Ctx → StationWork → StationWork) : Prop :=
  ∀ c w, (f c w).activePattern = w.activePattern ∧ (f c w).carrier.state ≠ .dark

@[simp] theorem StationWork.notifyStatus_activePattern (w : StationWork) :
    w.notifyStatus.activePattern = w.activePattern := by
  unfold StationWork.notifyStatus
  split <;> rfl

@[simp] theorem StationWork.notifyStatus_state (w : StationWork) : w.notifyStatus.carrier.state = w.carrier.state :=
  w.notifyStatus_alike.state

@[simp] theorem StationWork.quietReport_activePattern (c : Ctx) (w : StationWork) :
    (w.quietReport c).activePattern = w.activePattern := by
  unfold StationWork.quietReport
  dsimp only
  split <;> rfl

@[simp] theorem StationWork.emptyWindows_activePattern (c : Ctx) (w : StationWork) :
    (w.emptyWindows c).activePattern = w.activePattern := StationWork.quietReport_activePattern c _

@[simp] theorem StationWork.emptyWindows_state (c : Ctx) (w : StationWork) :
    (w.emptyWindows c).carrier.state = w.carrier.state := (w.emptyWindows_alike c).state

@[simp] theorem StationWork.setPattern_activePattern (p : Option PatternNo) (c : Ctx) (w : StationWork) :
    (StationWork.setPattern p c w).activePattern = p := StationWork.quietReport_activePattern c _

@[simp] theorem StationWork.setPattern_state (p : Option PatternNo) (c : Ctx) (w : StationWork) :
    (StationWork.setPattern p c w).carrier.state = w.carrier.state := (StationWork.setPattern_alike p c w).state

theorem StationWork.settleIn_keeps (c : Ctx) (w : StationWork) :
    (w.settleIn c).activePattern = w.activePattern ∧ (w.settleIn c).carrier.state = w.carrier.state := by
  unfold StationWork.settleIn
  split
  · simp
  · split <;> simp
  · simp
  · exact ⟨rfl, rfl⟩

theorem Carrier.enter_state (c : Ctx) (new : CarrierState) (r : Carrier) : (r.enter c new).state = new := by
  cases new <;> rfl

/-- An entry takes the station to the state entered, under the same pattern. -/
theorem StationWork.enterState_keeps (new : CarrierState) (c : Ctx) (w : StationWork) :
    (w.enterState new c).activePattern = w.activePattern ∧ (w.enterState new c).carrier.state = new := by
  unfold StationWork.enterState
  dsimp only
  rw [(StationWork.settleIn_keeps c _).1, (StationWork.settleIn_keeps c _).2]
  split <;> exact ⟨rfl, Carrier.enter_state c new _⟩

/-! ### Ramps and carrier commands -/

theorem Carrier.completionState_ne_dark (purpose : RampPurpose) (r : Carrier) : r.completionState purpose ≠ .dark := by
  cases purpose <;> simp only [Carrier.completionState]
  case full => split <;> simp
  all_goals simp

theorem StationWork.completeRamp_lights (purpose : RampPurpose) : Lights (StationWork.completeRamp purpose) := by
  intro c w
  obtain ⟨hp, hs⟩ := StationWork.enterState_keeps (w.carrier.completionState purpose) c
    { w with carrier := { w.carrier with ramp := none } }
  exact ⟨hp, fun h => Carrier.completionState_ne_dark purpose w.carrier (hs ▸ h)⟩

theorem StationWork.rampTo_lights (ramp : Ramp) : Lights (StationWork.rampTo ramp) := by
  intro c w
  unfold StationWork.rampTo
  split
  · exact StationWork.completeRamp_lights _ c w
  · obtain ⟨hp, hs⟩ := StationWork.enterState_keeps (if ramp.target < w.carrier.level then .lowering else .raising) c
      { w with carrier := { w.carrier with ramp := some ramp } }
    refine ⟨hp, ?_⟩
    rw [hs]
    split <;> simp

theorem StationWork.raiseToFull_lights : Lights StationWork.raiseToFull := fun c w => StationWork.rampTo_lights _ c w

theorem StationWork.raiseToFault_lights : Lights StationWork.raiseToFault := fun c w => StationWork.rampTo_lights _ c w

theorem StationWork.lowerToReduce_lights : Lights StationWork.lowerToReduce := fun c w => StationWork.rampTo_lights _ c w

theorem StationWork.levelChange_lights (previous : Option PatternNo) : Lights (StationWork.levelChange previous) :=
  fun c _ => StationWork.rampTo_lights _ c _

theorem StationWork.verifyFailed_lights : Lights StationWork.verifyFailed := fun c _ => StationWork.lowerToReduce_lights c _

theorem StationWork.outOfTolerance_lights : Lights StationWork.outOfTolerance := fun c _ => StationWork.lowerToReduce_lights c _

/-- A station with a pattern that is lit stays coupled. -/
theorem Lights.coupled {f : Ctx → StationWork → StationWork} (hf : Lights f) (c : Ctx) (w : StationWork)
    (h : w.activePattern ≠ none) : (f c w).toStationUnit.Coupled := by
  obtain ⟨hp, hs⟩ := hf c w
  exact ⟨fun hn => absurd (hp ▸ hn) h, fun hd => absurd hd hs⟩

/-- A coupled station that is not DARK stays coupled when it is lit. -/
theorem Lights.coupled_of_ne_dark {f : Ctx → StationWork → StationWork} (hf : Lights f) (c : Ctx) (w : StationWork)
    (h : w.toStationUnit.Coupled) (hd : w.carrier.state ≠ .dark) : (f c w).toStationUnit.Coupled :=
  hf.coupled c w fun hn => hd (h.1 hn)

/-- An operation that changes neither the pattern nor the state keeps them coupled. -/
theorem StationUnit.Coupled.congr {u v : StationUnit} (h : u.Coupled) (hp : v.activePattern = u.activePattern)
    (hs : v.carrier.state = u.carrier.state) : v.Coupled := by
  unfold StationUnit.Coupled
  rw [hp, hs]
  exact h

theorem StationWork.goDark_spec (c : Ctx) (w : StationWork) :
    (w.goDark c).activePattern = w.activePattern ∧ (w.goDark c).carrier.state = .dark := by
  unfold StationWork.goDark
  split
  · next h => exact ⟨rfl, h⟩
  · exact StationWork.enterState_keeps .dark c _

theorem StationWork.lowerToHold_keepsCoupled : KeepsCoupled fun c w => StationWork.lowerToHold c w := by
  intro c w h
  dsimp only
  unfold StationWork.lowerToHold
  split
  · exact h
  · next hs =>
    split
    · exact h
    · exact (StationWork.rampTo_lights _).coupled_of_ne_dark c w h fun hd => hs (.inr hd)

theorem StationWork.rampTick_keepsCoupled : KeepsCoupled StationWork.rampTick := by
  intro c w h
  unfold StationWork.rampTick
  split
  · exact h
  · split
    · next hs =>
      dsimp only
      split
      · refine (StationWork.completeRamp_lights _).coupled_of_ne_dark c _ h ?_
        dsimp only
        rcases hs with hs | hs <;> rw [hs] <;> simp
      · exact h
    · exact h

/-! ### Status reports and verification -/

theorem StationWork.takeStatus_keeps (c : Ctx) (status : Status) (w : StationWork) :
    (w.takeStatus c status).activePattern = w.activePattern ∧
      (w.takeStatus c status).carrier.state = w.carrier.state := by
  have hs (before : Status) (v : StationWork) :
      (v.superviseHold c before).activePattern = v.activePattern ∧
        (v.superviseHold c before).carrier.state = v.carrier.state := by
    unfold StationWork.superviseHold
    repeat' split
    all_goals exact ⟨rfl, rfl⟩
  unfold StationWork.takeStatus
  simp [hs]

theorem StationWork.statusReport_keeps (c : Ctx) (w : StationWork) :
    (w.statusReport c).activePattern = w.activePattern ∧ (w.statusReport c).carrier.state = w.carrier.state := by
  unfold StationWork.statusReport
  dsimp only
  split
  · exact ⟨rfl, rfl⟩
  · exact StationWork.takeStatus_keeps c _ w

theorem StationWork.statusReport_keepsCoupled (c : Ctx) (w : StationWork) (h : w.toStationUnit.Coupled) :
    (w.statusReport c).toStationUnit.Coupled :=
  h.congr (StationWork.statusReport_keeps c w).1 (StationWork.statusReport_keeps c w).2

theorem StationWork.staleExpiry_keepsCoupled (i : TowerNo) : KeepsCoupled (StationWork.staleExpiry i) := by
  intro c w h
  unfold StationWork.staleExpiry
  split
  · exact h
  · exact StationWork.statusReport_keepsCoupled c _ h

theorem StationWork.evaluationReport_keepsCoupled (c : Ctx) (w : StationWork) (h : w.toStationUnit.Coupled) :
    (w.evaluationReport c).toStationUnit.Coupled := by
  obtain ⟨hp, hs⟩ := StationWork.takeStatus_keeps c (w.toStationUnit.decideStatus c) w
  have ht := h.congr hp hs
  unfold StationWork.evaluationReport
  dsimp only
  split
  · next hv =>
    split
    · have verified : Lights fun c w => StationWork.verified c w := fun c w => by
        obtain ⟨hp, hs⟩ := StationWork.enterState_keeps .normal c w
        exact ⟨hp, by simp [StationWork.verified, hs]⟩
      refine verified.coupled_of_ne_dark c _ ht ?_
      dsimp only
      rw [hv]
      simp
    · exact ht
  · exact ht

theorem StationWork.judgeTowers_activePattern (c : Ctx) (w : StationWork) :
    (w.judgeTowers c).activePattern = w.activePattern := by
  unfold StationWork.judgeTowers
  split <;> rfl

theorem StationWork.keptMeasurement_keepsCoupled (m : Measurement) (reference tower period delay : Nat) :
    KeepsCoupled (StationWork.keptMeasurement m reference tower period delay) := by
  intro c w h
  unfold StationWork.keptMeasurement
  dsimp only
  split
  · exact StationWork.statusReport_keepsCoupled c _ h
  · exact StationWork.statusReport_keepsCoupled c _ h
  · refine StationWork.evaluationReport_keepsCoupled c _ (h.congr ?_ ?_)
    · exact StationWork.judgeTowers_activePattern c _
    · rw [StationWork.judgeTowers_carrier]
      rfl

end Machine
end Sys2Proof

/-! PROOFS. Every operation of the Transition Engine leaves each station's pattern and darkness coupled, and the active
transition's requester in its restore set, so that a switch that succeeds raises the station that has taken the target. -/
namespace Sys2Proof
namespace Machine

/-- What the engine's operations keep between events: each station has no pattern exactly in DARK (R19), and the active
transition's requester is of its restore set (R29). -/
structure Plant.Coupled (p : Plant) : Prop where
  stations : ∀ x, (p.stations.get x).Coupled
  restored : ∀ t, p.transition = some t → t.restores t.station = true

theorem Plant.patternUnlessDark_iff (p : Plant) : p.PatternUnlessDark ↔ ∀ x, (p.stations.get x).Coupled := Iff.rfl

/-! ### The primitives -/

/-- Station `y`'s records after an operation of station `x`'s units. -/
theorem Work.onStation_get (x y : Station) (f : Ctx → StationWork → StationWork) (w : Work) :
    (w.onStation x f).stations.get y =
      if y = x then (f (w.toPlant.ctx x) { toStationUnit := w.stations.get x, out := [] }).toStationUnit
      else w.stations.get y := by
  cases x <;> cases y <;> rfl

theorem Plant.Coupled.congr {p p' : Plant} (h : p.Coupled) (hs : p'.stations = p.stations)
    (ht : p'.transition = p.transition) : p'.Coupled :=
  ⟨hs ▸ h.stations, ht ▸ h.restored⟩

theorem Plant.Coupled.of_idle {p : Plant} (h : ∀ x, (p.stations.get x).Coupled) (ht : p.transition = none) : p.Coupled :=
  ⟨h, fun t hn => by rw [ht] at hn; cases hn⟩

/-- A change of one station's records alone. -/
theorem Work.onStation_coupled_of (x : Station) (f : Ctx → StationWork → StationWork) (w : Work) (h : w.Coupled)
    (hx : (f (w.toPlant.ctx x) { toStationUnit := w.stations.get x, out := [] }).toStationUnit.Coupled) :
    (w.onStation x f).Coupled := by
  refine ⟨fun y => ?_, h.restored⟩
  rw [Work.onStation_get]
  split
  · exact hx
  · exact h.stations y

theorem Work.onStation_coupled (x : Station) {f : Ctx → StationWork → StationWork} {w : Work} (hf : KeepsCoupled f)
    (h : w.Coupled) : (w.onStation x f).Coupled :=
  Work.onStation_coupled_of x f w h (hf _ _ (h.stations x))

/-- A station that is not DARK may be lit. -/
theorem Work.onStation_lit (x : Station) {f : Ctx → StationWork → StationWork} (hf : Lights f) {w : Work} (h : w.Coupled)
    (hd : (w.carrier x).state ≠ .dark) : (w.onStation x f).Coupled :=
  Work.onStation_coupled_of x f w h (hf.coupled_of_ne_dark _ _ (h.stations x) hd)

theorem Work.onTransition_coupled {f : Transition → Transition} {w : Work}
    (hf : ∀ t, t.restores t.station = true → (f t).restores (f t).station = true) (h : w.Coupled) :
    (w.onTransition f).Coupled := by
  refine ⟨h.stations, fun t ht => ?_⟩
  obtain ⟨t', ht', rfl⟩ := Option.map_eq_some_iff.1 ht
  exact hf t' (h.restored t' ht')

theorem Work.handLastState_stations (marker : Bool) (w : Work) :
    (w.handLastState marker).stations = w.stations ∧ (w.handLastState marker).transition = w.transition := by
  rw [Work.handLastState_eq]
  exact ⟨rfl, rfl⟩

theorem Work.handLastState_coupled (marker : Bool) {w : Work} (h : w.Coupled) : (w.handLastState marker).Coupled :=
  h.congr (Work.handLastState_stations marker w).1 (Work.handLastState_stations marker w).2

theorem Work.postAll_coupled (xs : List Station) (n : Notice) {w : Work} (h : w.Coupled) : (w.postAll xs n).Coupled := by
  rw [Work.postAll_toPlant]
  exact h

theorem Work.reportEnd_coupled (x : Station) (source : Source) (result : Result) {w : Work} (h : w.Coupled) :
    (w.reportEnd x source result).Coupled := by
  unfold Work.reportEnd
  split
  · exact h.congr rfl rfl
  · exact h

theorem Work.foldl_coupled {f : Work → Station → Work} (hf : ∀ w x, w.Coupled → (f w x).Coupled) (xs : List Station)
    (w : Work) (h : w.Coupled) : (xs.foldl f w).Coupled := by
  induction xs generalizing w with
  | nil => exact h
  | cons x xs ih => exact ih _ (hf w x h)

/-! ### Ends of transitions and resolution -/

/-- The end of a transition leaves none active. -/
theorem Work.endTransition_idle (result : Result) (w : Work) :
    (w.endTransition result).transition = none ∧ (w.endTransition result).stations = w.stations := by
  cases h : w.transition with
  | none =>
    unfold Work.endTransition
    simp [h]
  | some t =>
    rw [Work.endTransition_eq result w t h]
    exact ⟨rfl, rfl⟩

theorem Work.endTransition_coupled (result : Result) {w : Work} (h : ∀ x, (w.stations.get x).Coupled) :
    (w.endTransition result).Coupled :=
  .of_idle ((Work.endTransition_idle result w).2 ▸ h) (Work.endTransition_idle result w).1

theorem Work.endPending_coupled (e : PendingEntry) (result : Result) {w : Work} (h : w.Coupled) :
    (w.endPending e result).Coupled :=
  Work.reportEnd_coupled _ _ _ (w := w.post _ _) (h.congr rfl rfl)

theorem Work.raiseBack_coupled (x : Station) {w : Work} (h : w.Coupled) : (w.raiseBack x).Coupled := by
  unfold Work.raiseBack
  split
  · exact h
  · next hd =>
    split
    · exact Work.onStation_lit x StationWork.raiseToFull_lights h hd
    · exact Work.onStation_lit x StationWork.raiseToFault_lights h hd
    · exact h

theorem Work.raiseBackAll_coupled (xs : List Station) {w : Work} (h : w.Coupled) : (w.raiseBackAll xs).Coupled :=
  Work.foldl_coupled (fun _ x h => Work.raiseBack_coupled x h) xs w h

/-- Station `y`'s records after a pattern is set and carried at station `x`: coupled at `x`, whatever was there, and the other
station's as they were. -/
theorem Work.carryResolved_get (x y : Station) (choice : Option PatternNo) (w : Work) :
    (y = x → w.active x = choice → ((w.carryResolved x choice).stations.get y).Coupled) ∧
      (y ≠ x → (w.carryResolved x choice).stations.get y = w.stations.get y) := by
  constructor
  · rintro rfl hc
    unfold Work.carryResolved
    split
    · rw [Work.onStation_get, if_pos rfl]
      refine StationWork.raiseToFull_lights.coupled _ _ ?_
      show w.active y ≠ none
      rw [hc]
      simp
    · rw [Work.onStation_get, if_pos rfl]
      obtain ⟨hp, hs⟩ := StationWork.goDark_spec (w.toPlant.ctx y) { toStationUnit := w.stations.get y, out := [] }
      exact iff_of_true (hp.trans hc) hs
  · intro hy
    unfold Work.carryResolved
    split <;> rw [Work.onStation_get, if_neg hy]

theorem Work.carryResolved_transition (x : Station) (choice : Option PatternNo) (w : Work) :
    (w.carryResolved x choice).transition = w.transition := by
  unfold Work.carryResolved
  split <;> rfl

theorem Work.setPattern_active (x : Station) (p : Option PatternNo) (w : Work) : (w.setPattern x p).active x = p := by
  unfold Work.setPattern Plant.active
  rw [Work.onStation_get, if_pos rfl, StationWork.setPattern_activePattern]

theorem Work.setPattern_get_of_ne {x y : Station} (h : y ≠ x) (p : Option PatternNo) (w : Work) :
    (w.setPattern x p).stations.get y = w.stations.get y := by
  unfold Work.setPattern
  rw [Work.onStation_get, if_neg h]

/-- A pattern set and carried leaves the station coupled. -/
theorem Work.setPattern_carryResolved_coupled (x : Station) (choice : Option PatternNo) {w : Work} (h : w.Coupled) :
    ((w.setPattern x choice).carryResolved x choice).Coupled := by
  refine ⟨fun y => ?_, ?_⟩
  · by_cases hy : y = x
    · exact (Work.carryResolved_get x y choice _).1 hy (Work.setPattern_active x choice w)
    · rw [(Work.carryResolved_get x y choice _).2 hy, Work.setPattern_get_of_ne hy]
      exact h.stations y
  · rw [Work.carryResolved_transition]
    exact h.restored

theorem Work.resolve_coupled (t : Transition) (x : Station) {w : Work} (h : w.Coupled) : (w.resolve t x).Coupled :=
  Work.setPattern_carryResolved_coupled x _ h

theorem Work.resolveAndEnd_coupled (result : Result) {w : Work} (h : w.Coupled) : (w.resolveAndEnd result).Coupled := by
  unfold Work.resolveAndEnd
  split
  · exact h
  · next t _ =>
    exact Work.endTransition_coupled _
      (Work.handLastState_coupled _ (Work.foldl_coupled (fun _ x h => Work.resolve_coupled t x h) _ w h)).stations

/-! ### Moves of contactors -/

theorem Work.moveRefused_coupled {w : Work} (h : w.Coupled) : w.moveRefused.Coupled :=
  Work.resolveAndEnd_coupled _ (Work.onTransition_coupled (w := { w with driver := none }) (fun _ ht => ht) (h.congr rfl rfl))

theorem Work.attempt_coupled (move : Move) {w : Work} (h : w.Coupled) : (w.attempt move).Coupled := by
  unfold Work.attempt
  split
  · exact h.congr rfl rfl
  · exact Work.moveRefused_coupled h

theorem Work.commandMove_coupled (k : ContactorNo) (toPos : Side) {w : Work} (h : w.Coupled) :
    (w.commandMove k toPos).Coupled := Work.attempt_coupled _ h

theorem Work.restoreCheck_coupled {w : Work} (h : w.Coupled) : w.restoreCheck.Coupled := by
  unfold Work.restoreCheck
  split
  · exact h
  · split
    · exact Work.onTransition_coupled (fun _ ht => ht) h
    · exact Work.endTransition_coupled _ h.stations
    · exact Work.endTransition_coupled _ h.stations
    · exact Work.endTransition_coupled _ h.stations
    · exact h

/-- The requester with the target set, every other station coupled: raising a list that holds the requester couples both. -/
theorem Work.raiseRequester_coupled (r : Station) (f : Work → Station → Work)
    (hr : ∀ w, f w r = w.onStation r StationWork.raiseToFull) (hf : ∀ w x, x ≠ r → f w x = w.raiseBack x)
    (xs : List Station) (w : Work) (ht : ∀ t, w.transition = some t → t.restores t.station = true)
    (ho : ∀ y, y ≠ r → (w.stations.get y).Coupled) (hp : w.active r ≠ none)
    (hx : r ∈ xs ∨ (w.stations.get r).Coupled) : (xs.foldl f w).Coupled := by
  induction xs generalizing w with
  | nil =>
    refine ⟨fun y => ?_, ht⟩
    by_cases hy : y = r
    · subst hy
      exact hx.resolve_left (by simp)
    · exact ho y hy
  | cons x xs ih =>
    rw [List.foldl_cons]
    by_cases hxr : x = r
    · subst hxr
      rw [hr]
      have hl := StationWork.raiseToFull_lights (w.toPlant.ctx x) { toStationUnit := w.stations.get x, out := [] }
      refine ih _ ht (fun y hy => ?_) ?_ (.inr ?_)
      · rw [Work.onStation_get, if_neg hy]
        exact ho y hy
      · unfold Plant.active
        rw [Work.onStation_get, if_pos rfl, hl.1]
        exact hp
      · rw [Work.onStation_get, if_pos rfl]
        exact StationWork.raiseToFull_lights.coupled _ _ hp
    · rw [hf w x hxr]
      have hget : ∀ y, y ≠ x → (w.raiseBack x).stations.get y = w.stations.get y := by
        intro y hy
        unfold Work.raiseBack
        repeat' split
        · rfl
        · rw [Work.onStation_get, if_neg hy]
        · rw [Work.onStation_get, if_neg hy]
        · rfl
      have hother : ((w.raiseBack x).stations.get x).Coupled := by
        unfold Work.raiseBack
        split
        · exact ho x hxr
        · next hd =>
          split
          · rw [Work.onStation_get, if_pos rfl]
            exact StationWork.raiseToFull_lights.coupled_of_ne_dark _ _ (ho x hxr) hd
          · rw [Work.onStation_get, if_pos rfl]
            exact StationWork.raiseToFault_lights.coupled_of_ne_dark _ _ (ho x hxr) hd
          · exact ho x hxr
      have hr' := hget r (Ne.symm hxr)
      have htr : (w.raiseBack x).transition = w.transition := by
        unfold Work.raiseBack
        repeat' split
        all_goals rfl
      refine ih _ (htr ▸ ht) (fun y hy => ?_) ?_ ?_
      · by_cases hyx : y = x
        · subst hyx
          exact hother
        · rw [hget y hyx]
          exact ho y hy
      · unfold Plant.active
        rw [hr']
        exact hp
      · rw [hr']
        exact hx.imp_left fun hm => (List.mem_cons.1 hm).resolve_left (Ne.symm hxr)

theorem Transition.mem_restoreSet (t : Transition) (x : Station) : x ∈ t.restoreSet ↔ t.restores x = true := by
  unfold Transition.restoreSet Transition.restores Pair.recorded
  cases x <;> simp

theorem Work.switchSuccess_coupled (t : Transition) {w : Work} (h : w.Coupled) (ht : w.transition = some t) :
    (w.switchSuccess t).Coupled := by
  unfold Work.switchSuccess
  refine Work.restoreCheck_coupled ?_
  refine Work.raiseRequester_coupled t.station _ (fun w => if_pos rfl) (fun w x hx => if_neg hx) _ _ ?_ ?_ ?_ (.inl ?_)
  · intro u hu
    rw [Work.onTransition_transition] at hu
    simp only [Work.setPattern, Work.onStation_transition, ht, Option.map_some, Option.some.injEq] at hu
    subst hu
    exact h.restored t ht
  · intro y hy
    rw [Work.onTransition_stations, Work.setPattern_get_of_ne hy]
    exact h.stations y
  · have := Work.setPattern_active t.station (some t.target) w
    simp only [Plant.active, Work.onTransition_stations] at this ⊢
    rw [this]
    simp
  · exact (t.mem_restoreSet t.station).2 (h.restored t ht)

theorem Work.nextMove_coupled {w : Work} (h : w.Coupled) : w.nextMove.Coupled := by
  unfold Work.nextMove
  split
  · exact h
  · next t ht =>
    split
    · exact Work.commandMove_coupled _ _ h
    · exact Work.switchSuccess_coupled t h ht

theorem Work.endReversalFor_coupled (t : Transition) (x : Station) {w : Work} (h : w.Coupled) :
    (w.endReversalFor t x).Coupled := by
  unfold Work.endReversalFor
  split
  · exact h
  · split
    · exact Work.raiseBack_coupled x h
    · exact Work.resolve_coupled t x h

theorem Work.reversalComplete_coupled (t : Transition) {w : Work} (h : w.Coupled) : (w.reversalComplete t).Coupled := by
  have fold {w : Work} (h : w.Coupled) : (t.restoreSet.foldl (fun w x => w.endReversalFor t x) w).Coupled :=
    Work.foldl_coupled (fun _ x h => Work.endReversalFor_coupled t x h) _ w h
  have restoring : (Work.onTransition
      (fun u => { u with phase := .restore, result := some t.reversalResult }) w).Coupled :=
    Work.onTransition_coupled (fun _ hu => hu) h
  unfold Work.reversalComplete
  dsimp only
  split
  · exact Work.endTransition_coupled _ (Work.handLastState_coupled _ (fold h)).stations
  · split
    · exact Work.endTransition_coupled _ (fold restoring).stations
    · exact Work.restoreCheck_coupled (fold restoring)

theorem Work.nextReversal_coupled {w : Work} (h : w.Coupled) : w.nextReversal.Coupled := by
  unfold Work.nextReversal
  split
  · exact h
  · split
    · exact Work.commandMove_coupled _ _ h
    · exact Work.reversalComplete_coupled _ h

theorem Work.beginReverse_coupled (cause : ReversalCause) {w : Work} (h : w.Coupled) : (w.beginReverse cause).Coupled :=
  Work.nextReversal_coupled (Work.onTransition_coupled (fun _ ht => ht) h)

theorem Work.afterSwitchMove_coupled (t : Transition) (o : MoveOutcome) {w : Work} (h : w.Coupled) :
    (w.afterSwitchMove t o).Coupled := by
  unfold Work.afterSwitchMove
  split
  · exact Work.beginReverse_coupled _ h
  · exact Work.beginReverse_coupled _ h
  · exact Work.beginReverse_coupled _ h
  · split
    · exact Work.beginReverse_coupled _ h
    · exact Work.nextMove_coupled h
  · exact Work.moveRefused_coupled h

theorem Work.afterReversal_coupled (o : MoveOutcome) {w : Work} (h : w.Coupled) : (w.afterReversal o).Coupled := by
  unfold Work.afterReversal
  split
  · exact Work.nextReversal_coupled h
  · exact Work.resolveAndEnd_coupled _ h
  · exact Work.resolveAndEnd_coupled _ h
  · exact Work.moveRefused_coupled h
  · exact Work.moveRefused_coupled h

theorem Work.moveOutcome_coupled (k : ContactorNo) (o : MoveOutcome) {w : Work} (h : w.Coupled) :
    (w.moveOutcome k o).Coupled := by
  have written : (Work.writeMoveOutcome k o { w with driver := none }).Coupled :=
    Work.onTransition_coupled (w := { w with driver := none }) (fun _ ht => ht) (h.congr rfl rfl)
  unfold Work.moveOutcome
  dsimp only
  split
  · exact written
  · split
    · exact Work.resolveAndEnd_coupled _ written
    · exact Work.afterSwitchMove_coupled _ _ written
    · exact Work.afterReversal_coupled _ written
    · exact written

/-! ### QUIESCE, PLAN and the pending list -/

theorem StationWork.stopMuteTimer_keepsCoupled : KeepsCoupled StationWork.stopMuteTimer := fun _ _ h => h

theorem Work.enterSwitch_coupled (t : Transition) {w : Work} (h : w.Coupled) : (w.enterSwitch t).Coupled := by
  unfold Work.enterSwitch
  refine Work.nextMove_coupled (Work.handLastState_coupled _ (Work.onTransition_coupled (fun _ ht => ht) ?_))
  exact Work.foldl_coupled (fun _ x h => Work.onStation_coupled x StationWork.stopMuteTimer_keepsCoupled h) _ w h

theorem Work.quiesceCheck_coupled {w : Work} (h : w.Coupled) : w.quiesceCheck.Coupled := by
  unfold Work.quiesceCheck
  split
  · exact h
  · split
    · exact Work.enterSwitch_coupled _ h
    · exact h

theorem Plant.withReturnLevels_isSome (p : Plant) (t : Transition) (x : Station) :
    ((p.withReturnLevels t).get x).isSome = (t.entries.get x).isSome := by
  cases x <;> simp [Plant.withReturnLevels]

theorem Work.enterQuiesce_coupled {w : Work} (h : w.Coupled) : w.enterQuiesce.Coupled := by
  unfold Work.enterQuiesce
  split
  · exact h
  · next t ht =>
    refine Work.quiesceCheck_coupled (Work.foldl_coupled
      (fun _ x h => Work.onStation_coupled x StationWork.lowerToHold_keepsCoupled h) _ _ ⟨h.stations, fun u hu => ?_⟩)
    simp only [Work.onTransition_transition, ht, Option.map_some, Option.some.injEq] at hu
    subst hu
    simp only [Transition.restores, Plant.withReturnLevels_isSome]
    exact h.restored t ht

theorem Work.askConsent_coupled (t : Transition) {w : Work} (h : w.Coupled) : (w.askConsent t).Coupled :=
  Work.onTransition_coupled (fun _ ht => ht) (h.congr rfl rfl)

theorem Work.announceStart_coupled (t : Transition) {w : Work} (h : w.Coupled) : (w.announceStart t).Coupled :=
  Work.postAll_coupled _ _ h

theorem Work.beginLevelChange_coupled (t : Transition) {w : Work} (h : w.Coupled) : (w.beginLevelChange t).Coupled := by
  unfold Work.beginLevelChange
  refine Work.restoreCheck_coupled ?_
  have announced := Work.announceStart_coupled t
    (Work.onTransition_coupled (f := fun t => { t with phase := .restore }) (fun _ ht => ht) h)
  generalize Work.announceStart t (Work.onTransition (fun t => { t with phase := .restore }) w) = v at announced ⊢
  refine ⟨fun y => ?_, announced.restored⟩
  rw [Work.onStation_get]
  split
  · refine (StationWork.levelChange_lights t.previous).coupled _ _ ?_
    show (v.setPattern t.station (some t.target)).active t.station ≠ none
    rw [Work.setPattern_active]
    simp
  · next hy =>
    rw [Work.setPattern_get_of_ne hy]
    exact announced.stations y

theorem Work.decideConsent_coupled (t : Transition) {w : Work} (h : w.Coupled) : (w.decideConsent t).Coupled := by
  unfold Work.decideConsent
  split
  · split
    · exact Work.endTransition_coupled _ h.stations
    · exact Work.askConsent_coupled t (Work.announceStart_coupled t h)
    · exact Work.enterQuiesce_coupled (Work.announceStart_coupled t h)
  · exact Work.enterQuiesce_coupled (Work.announceStart_coupled t h)

/-- PLAN gives the requester a station entry (R29). -/
theorem Plant.stationEntries_requester (p : Plant) (x : Station) (affected : StationSet) :
    ((p.stationEntries x affected).get x).isSome = true := by
  cases x <;> simp [Plant.stationEntries]

theorem Work.planMoves_coupled (t : Transition) {w : Work} (h : ∀ x, (w.stations.get x).Coupled) :
    (w.planMoves t).Coupled := by
  have entered (affected : StationSet) (u : Transition) (hu : u.entries = w.stationEntries t.station affected)
      (hs : u.station = t.station) : Plant.Coupled { w.toPlant with transition := some u } := by
    refine ⟨h, fun v hv => ?_⟩
    cases hv
    rw [Transition.restores, hu, hs]
    exact Plant.stationEntries_requester _ _ _
  unfold Work.planMoves
  split
  · exact Work.endTransition_coupled _ h
  · split
    · exact Work.endTransition_coupled _ h
    · split
      · exact Work.beginLevelChange_coupled _ (entered ⟨false, false⟩ _ rfl rfl)
      · exact Work.decideConsent_coupled _ (entered (w.affectedSet t.moves) _ rfl rfl)

theorem Work.plan_coupled (t : Transition) {w : Work} (h : ∀ x, (w.stations.get x).Coupled) : (w.plan t).Coupled := by
  unfold Work.plan
  split
  · exact Work.endTransition_coupled _ h
  · exact Work.planMoves_coupled _ h

theorem Work.examineFor_coupled (n : Nat) {w : Work} (h : w.Coupled) : (w.examineFor n).Coupled := by
  induction n generalizing w with
  | zero => exact h
  | succ n ih =>
    unfold Work.examineFor
    split
    · exact h
    · split
      · exact ih (Work.plan_coupled _ h.stations)
      · exact h

theorem Work.examinePending_coupled {w : Work} (h : w.Coupled) : w.examinePending.Coupled := Work.examineFor_coupled _ h

/-! ### Requests, withdraws and disturbances -/

theorem Work.dropPending_coupled (x : Station) (result : Result) {w : Work} (h : w.Coupled) :
    (w.dropPending x result).Coupled := by
  unfold Work.dropPending
  split
  · exact h
  · exact Work.endPending_coupled _ _ (h.congr rfl rfl)

theorem Work.enterPending_coupled (e : PendingEntry) {w : Work} (h : w.Coupled) : (w.enterPending e).Coupled := by
  unfold Work.enterPending
  split
  · exact Work.endPending_coupled _ _ (h.congr rfl rfl)
  · exact h.congr rfl rfl

theorem Work.acceptRequest_coupled (x : Station) (target : PatternNo) (source : Source) {w : Work} (h : w.Coupled) :
    (w.acceptRequest x target source).Coupled := by
  have entered (e : PendingEntry) (tag : Nat) : (Work.enterPending e { w with tagCounter := tag }).Coupled :=
    Work.enterPending_coupled e (h.congr rfl rfl)
  unfold Work.acceptRequest
  dsimp only
  split
  · exact (entered _ _).congr rfl rfl
  · exact entered _ _

theorem Work.checkRequest_coupled (x : Station) (target : Nat) (source : Source) {w : Work} (h : w.Coupled) :
    (w.checkRequest x target source).1.Coupled := by
  unfold Work.checkRequest
  split
  · exact h
  · split
    · exact h
    · split
      · exact h
      · split
        · exact Work.dropPending_coupled x _ h
        · exact Work.acceptRequest_coupled x _ _ h

theorem Work.submit_coupled (x : Station) (target : Nat) (source : Source) {w : Work} (h : w.Coupled) :
    (w.submit x target source).1.Coupled :=
  Work.examinePending_coupled (Work.checkRequest_coupled x target source h)

theorem Work.takeGrant_coupled {w : Work} (h : w.Coupled) : w.takeGrant.Coupled :=
  Work.enterQuiesce_coupled
    (Work.onTransition_coupled (w := { w with consentTimer := none, deferTimer := none }) (fun _ ht => ht) (h.congr rfl rfl))

theorem Work.takeDefer_coupled (x : Station) (t : Transition) {w : Work} (h : w.Coupled) : (w.takeDefer x t).Coupled := by
  unfold Work.takeDefer
  split
  · exact h
  · dsimp only
    split
    · exact Work.endTransition_coupled _ h.stations
    · exact Work.onTransition_coupled (fun _ ht => ht) (h.congr rfl rfl)

theorem Work.consentReply_coupled (x : Station) (tag answer : Nat) {w : Work} (h : w.Coupled) :
    (w.consentReply x tag answer).1.Coupled := by
  unfold Work.consentReply
  split
  · exact h
  · split
    · exact h
    · split
      · exact h
      · refine Work.examinePending_coupled ?_
        split
        · exact Work.takeGrant_coupled h
        · exact Work.takeDefer_coupled x _ h

theorem Work.withdrawQuery_coupled (t : Transition) {w : Work} (h : w.Coupled) : (w.withdrawQuery t).Coupled := by
  unfold Work.withdrawQuery
  split
  · exact h.congr rfl rfl
  · exact h

theorem Work.stopDriver_coupled {w : Work} (h : w.Coupled) : w.stopDriver.Coupled := h.congr rfl rfl

theorem Work.withdrawInSwitch_coupled (t : Transition) {w : Work} (h : w.Coupled) : (w.withdrawInSwitch t).1.Coupled := by
  unfold Work.withdrawInSwitch
  split
  · exact h
  · split
    · exact h
    · have taken (moves : Transition → List MoveEntry) :
          (Work.onTransition (fun t => { t with withdrawTaken := true, moves := moves t }) w.stopDriver).Coupled :=
        Work.onTransition_coupled (fun _ ht => ht) (Work.stopDriver_coupled h)
      dsimp only
      split
      · exact taken _
      · exact Work.beginReverse_coupled _ (taken _)

theorem Work.withdrawActive_coupled (t : Transition) {w : Work} (h : w.Coupled) : (w.withdrawActive t).1.Coupled := by
  unfold Work.withdrawActive
  split
  · exact Work.endTransition_coupled _ (Work.withdrawQuery_coupled t h).stations
  · exact Work.endTransition_coupled _ (Work.raiseBackAll_coupled _ h).stations
  · exact Work.withdrawInSwitch_coupled t h
  all_goals exact h

theorem Work.withdraw_coupled (x : Station) {w : Work} (h : w.Coupled) : (w.withdraw x).1.Coupled := by
  unfold Work.withdraw
  split
  · exact Work.dropPending_coupled x _ h
  · split
    · split
      · exact Work.examinePending_coupled (Work.withdrawActive_coupled _ h)
      · exact h
    · exact h

theorem Work.disturbSwitch_coupled (result : Result) {w : Work} (h : w.Coupled) : (w.disturbSwitch result).Coupled := by
  have decided (f : Transition → Option Result × List MoveEntry) :
      (Work.onTransition (fun t => { t with result := (f t).1, moves := (f t).2 }) w.stopDriver).Coupled :=
    Work.onTransition_coupled (fun _ ht => ht) (Work.stopDriver_coupled h)
  unfold Work.disturbSwitch
  dsimp only
  split
  · exact decided fun t => (some (t.result.getD result), _)
  · exact Work.resolveAndEnd_coupled _ (decided fun t => (some (t.result.getD result), _))

theorem Work.rfDisturbance_coupled (x : Station) {w : Work} (h : w.Coupled) : (w.rfDisturbance x).Coupled := by
  unfold Work.rfDisturbance
  split
  · exact h
  · split
    · exact Work.disturbSwitch_coupled _ h
    · exact h

theorem Work.arrayDisturbance_coupled {w : Work} (h : w.Coupled) : w.arrayDisturbance.Coupled := by
  unfold Work.arrayDisturbance
  split
  · exact h
  · split
    · exact Work.endTransition_coupled _ (Work.withdrawQuery_coupled _ h).stations
    · exact Work.endTransition_coupled _ (Work.raiseBackAll_coupled _ h).stations
    · exact Work.disturbSwitch_coupled _ h
    · exact Work.disturbSwitch_coupled _ h
    · split
      · exact Work.endTransition_coupled _ h.stations
      · exact h
    · split
      · exact Work.endTransition_coupled _ h.stations
      · exact h
    · exact h

/-! ### The drive and the schedule -/

theorem Work.onLive_coupled (k : ContactorNo) (f : Live → Live) {w : Work} (h : w.Coupled) : (w.onLive k f).Coupled :=
  h.congr rfl rfl

theorem Work.postFault_coupled (k : ContactorNo) (cause : FaultCause) {w : Work} (h : w.Coupled) :
    (w.postFault k cause).Coupled := Work.postAll_coupled _ _ h

theorem Work.breakMap_coupled (before : Plant) (x : Station) {w : Work} (h : w.Coupled) :
    (w.breakMap before x).Coupled := by
  unfold Work.breakMap
  split
  · exact h
  · split
    · exact Work.setPattern_carryResolved_coupled x none h
    · exact h

theorem Work.unexpectedMovement_coupled (k : ContactorNo) {w : Work} (h : w.Coupled) :
    (w.unexpectedMovement k).Coupled :=
  Work.arrayDisturbance_coupled (Work.breakMap_coupled _ .B (Work.breakMap_coupled _ .A
    (Work.postFault_coupled k _ (Work.onLive_coupled k _ h))))

theorem Work.judgeCombination_coupled (k : ContactorNo) {w : Work} (h : w.Coupled) : (w.judgeCombination k).Coupled := by
  unfold Work.judgeCombination
  split
  · exact Work.onLive_coupled k _ h
  · split
    · exact h
    · split
      · exact h
      · exact Work.unexpectedMovement_coupled k h

theorem Work.release_coupled (x : Station) (index : Nat) {w : Work} (h : w.Coupled) : (w.release x index).1.Coupled := by
  have carried (k : ContactorNo) : (w.carryRelease k).1.Coupled := by
    unfold Work.carryRelease
    split
    · exact h
    · split
      · exact Work.postFault_coupled k _ (Work.onLive_coupled k _ h)
      · exact h
  unfold Work.release
  split
  · exact h
  · next k _ =>
    split_ifs
    · exact h
    · exact h
    · exact h
    · exact h
    · exact carried k

theorem Work.fire_coupled (x : Station) (target : Nat) (o : Occurrence) {w : Work} (h : w.Coupled) :
    (w.fire x target o).Coupled := by
  unfold Work.fire
  dsimp only
  split
  · exact (Work.submit_coupled x target _ h).congr rfl rfl
  · exact Work.submit_coupled x target _ h

theorem Work.evaluateStation_coupled (m : Memory) (r : Reading) (x : Station) {w : Work} (h : w.Coupled) :
    (w.evaluateStation m r x).Coupled := by
  have tested (present : Recorded) : (w.testOverride x present).Coupled := h.congr rfl rfl
  unfold Work.evaluateStation
  dsimp only
  split
  · exact tested _
  · split
    · exact Work.fire_coupled _ _ _ (tested _)
    · exact tested _

theorem Work.evaluate_coupled (minuteTick : Bool) {w : Work} (h : w.Coupled) : (w.evaluate minuteTick).Coupled := by
  have deal (m : Memory) (r : Reading) (x : Station) {w : Work} (h : w.Coupled) :
      (Work.evaluateStation m r x (if minuteTick then w.decreaseHold x else w)).Coupled := by
    refine Work.evaluateStation_coupled m r x ?_
    split
    · exact h.congr rfl rfl
    · exact h
  unfold Work.evaluate
  split
  · exact deal _ _ .B (deal _ _ .A h)
  · exact h

end Machine
end Sys2Proof

/-! PROOFS. Every command keeps each station's pattern and darkness coupled (R19), by the events of the blocks and by the
requests that the links hand on. -/
namespace Sys2Proof
namespace Machine

/-! ### Events -/

theorem Work.recomputeScan_coupled {w : Work} (h : w.Coupled) : w.recomputeScan.Coupled := by
  unfold Work.recomputeScan
  dsimp only
  split <;> exact h.congr rfl rfl

theorem State.event_coupled (f : Work → Work) (s : State) (hf : (f s.work).Coupled) : (s.event f).Coupled := by
  rw [State.event_toPlant]
  unfold Work.settleScan
  split
  · exact Work.recomputeScan_coupled hf
  · exact hf

theorem Work.whenDue_coupled (t : Timer) (f : Work → Work) {w : Work} (h : w.Coupled)
    (hf : ∀ due, (w.reach due).Coupled → (f (w.reach due)).Coupled) : (w.whenDue t f).Coupled := by
  unfold Work.whenDue
  split
  · exact h
  · next due => exact hf due (h.congr rfl rfl)

theorem Work.endPulse_coupled {w : Work} (h : w.Coupled) : w.endPulse.Coupled := by
  unfold Work.endPulse
  split
  · exact h
  · split
    · exact h.congr rfl rfl
    · exact h

theorem Work.endSettle_coupled {w : Work} (h : w.Coupled) : w.endSettle.Coupled := by
  unfold Work.endSettle
  split
  · exact h
  · next move _ =>
    have read (k : ContactorNo) (f : Live → Live) : ((w.reach move.due).onLive k f).Coupled :=
      Work.onLive_coupled k f (h.congr rfl rfl)
    dsimp only
    split
    · split
      · exact Work.attempt_coupled _ (read _ _)
      · refine Work.moveOutcome_coupled _ _ ?_
        split
        · exact Work.postFault_coupled _ _ (read _ _)
        · exact read _ _
    · exact h

theorem Work.debounce_coupled (k : ContactorNo) (made0 made1 : Option Bool) {w : Work} (h : w.Coupled) :
    (w.debounce k made0 made1).Coupled := by
  have taken (aux : Vector Aux 16) : Plant.Coupled { w.toPlant with aux := aux } := h.congr rfl rfl
  unfold Work.debounce
  dsimp only
  split
  · exact h
  · exact h.congr rfl rfl
  · split
    · exact h
    · exact Work.examinePending_coupled
        (Work.judgeCombination_coupled k (w := { w with aux := w.aux.set k (w.aux[k].take made0 made1) }) (taken _))

theorem takeRf_keepsCoupled (active : Bool) :
    KeepsCoupled fun _ u => { u with carrier := u.carrier.takeRfPresent active } := fun _ _ h => h

theorem Work.noticeRf_coupled (x : Station) {w : Work} (h : w.Coupled) : (w.noticeRf x).Coupled := by
  unfold Work.noticeRf
  split
  · exact Work.onStation_coupled x (fun _ _ h => h) (w := w.post x _) (h.congr rfl rfl)
  · exact h

theorem Work.rfPresent_coupled (x : Station) (active : Bool) {w : Work} (h : w.Coupled) :
    (w.rfPresent x active).Coupled := by
  have taken := Work.onStation_coupled x (takeRf_keepsCoupled active) h
  unfold Work.rfPresent
  split
  · exact h
  · exact taken
  · split
    · exact h
    · unfold Work.rfEvent
      dsimp only
      split
      · exact Work.examinePending_coupled (Work.rfDisturbance_coupled x (Work.noticeRf_coupled x taken))
      · exact Work.examinePending_coupled (Work.quiesceCheck_coupled taken)

theorem Work.muteExpiry_coupled (x : Station) {w : Work} (h : w.Coupled) : (w.muteExpiry x).Coupled := by
  have stopped := Work.onStation_coupled x StationWork.stopMuteTimer_keepsCoupled h
  unfold Work.muteExpiry
  dsimp only
  split
  · exact stopped
  · split
    · exact Work.examinePending_coupled (Work.endTransition_coupled _ (Work.raiseBackAll_coupled _ stopped).stations)
    · exact stopped

theorem Work.tickRamp_coupled (x : Station) {w : Work} (h : w.Coupled) : (w.tickRamp x).Coupled := by
  unfold Work.tickRamp
  split
  · exact h
  · next due _ =>
    have ticked : KeepsCoupled fun c u =>
        StationWork.rampTick c { u with carrier := { u.carrier with rampTimer := some (due + Config.rampTick) } } :=
      fun c _ hu => StationWork.rampTick_keepsCoupled c _ hu
    exact Work.examinePending_coupled (Work.restoreCheck_coupled (Work.quiesceCheck_coupled
      (Work.onStation_coupled x ticked (w := w.reach due) (h.congr rfl rfl))))

theorem Work.verifyExpiry_coupled (x : Station) {w : Work} (h : w.Coupled) (hv : (w.carrier x).state = .verifying) :
    (w.verifyExpiry x).Coupled := by
  have failed := Work.onStation_lit x StationWork.verifyFailed_lights h (by rw [hv]; simp)
  unfold Work.verifyExpiry
  dsimp only
  split
  · exact failed
  · split
    · exact Work.examinePending_coupled (Work.endTransition_coupled _ failed.stations)
    · exact failed

theorem Work.measured_coupled (r t : Nat) (q d : List Nat) {w : Work} (h : w.Coupled) : (w.measured r t q d).Coupled := by
  unfold Work.measured
  split
  · exact h
  · next m _ =>
    have finished : Plant.Coupled { (w.reach m.due).toPlant with measurement := none } := h.congr rfl rfl
    unfold Work.completeMeasurement
    refine Work.recomputeScan_coupled ?_
    dsimp only
    split
    · exact Work.examinePending_coupled (Work.restoreCheck_coupled (Work.onStation_coupled m.entry.station
        (StationWork.keptMeasurement_keepsCoupled m _ _ _ _) (w := { w.reach m.due with measurement := none }) finished))
    · exact finished

theorem Work.tickClock_coupled (admits : Reading → Bool) {w : Work} (h : w.Coupled) : (w.tickClock admits).Coupled := by
  unfold Work.tickClock
  split
  · next r due _ _ =>
    split
    · unfold Work.clockTick
      split
      · exact h.congr rfl rfl
      · next n _ =>
        have on : Plant.Coupled
            { (w.reach due).toPlant with clock := some n, clockTimer := some (due + Config.seconds 1) } := h.congr rfl rfl
        dsimp only
        split
        · exact Work.evaluate_coupled true (w :=
            { w.reach due with clock := some n, clockTimer := some (due + Config.seconds 1) }) on
        · exact on
    · exact h
  · exact h

theorem Work.loadExpired_coupled {w : Work} (h : w.Coupled) : w.loadExpired.Coupled := by
  unfold Work.loadExpired
  split <;> exact h.congr rfl rfl

theorem Work.storePortReset_coupled (x : Station) {w : Work} (h : w.Coupled) : (w.storePortReset x).Coupled := by
  unfold Work.storePortReset
  dsimp only
  split <;> exact h.congr rfl rfl

theorem Work.startNextWrite_coupled {w : Work} (h : w.Coupled) : w.startNextWrite.Coupled := by
  unfold Work.startNextWrite
  split
  · unfold Work.startWrite
    dsimp only
    split <;> exact h.congr rfl rfl
  · exact h

theorem Work.completeWrite_coupled {w : Work} (h : w.Coupled) : w.completeWrite.Coupled := by
  unfold Work.completeWrite
  split
  · exact h
  · dsimp only
    refine Work.startNextWrite_coupled ?_
    split <;> exact h.congr rfl rfl

/-! ### Requests, resets and start-up -/

theorem Work.commit_coupled (x : Station) {w : Work} (h : w.Coupled) : (w.commit x).Coupled := by
  have defaults : ((w.activate w.loadBuffer).firstDefaults w.image w.loadBuffer).Coupled := by
    unfold Work.firstDefaults
    split <;> exact h.congr rfl rfl
  unfold Work.commit
  refine Work.evaluate_coupled _ (Work.postAll_coupled _ _ ?_)
  generalize (w.activate w.loadBuffer).firstDefaults w.image w.loadBuffer = v at defaults ⊢
  exact Work.startNextWrite_coupled (defaults.congr rfl rfl)

/-- A request acted on by its block. -/
theorem act_coupled (x : Station) (dropped : Nat) (r : Request) {w : Work} (h : w.Coupled) :
    (act x dropped r w).1.Coupled := by
  cases r with
  | patternRequest target => exact Work.submit_coupled _ _ _ h
  | withdraw => exact Work.withdraw_coupled _ h
  | consentReply tag answer => exact Work.consentReply_coupled _ _ _ h
  | contactorRelease index => exact Work.release_coupled _ _ h
  | statusQuery => exact h
  | monitorQuery => exact h
  | contactorQuery => exact h
  | readbackBlock index => exact h
  | consentPolicy policy =>
    simp only [act, actConsentPolicy, Work.setConsentPolicy]
    repeat' split
    all_goals exact h.congr rfl rfl
  | schedulePolicy policy =>
    simp only [act, actSchedulePolicy, Work.setSchedulePolicy]
    repeat' split
    all_goals exact h.congr rfl rfl
  | clockSet year day hour minute second =>
    simp only [act, actClockSet, Work.setClock]
    split
    · exact Work.evaluate_coupled _ (Work.postAll_coupled _ _ (h.congr rfl rfl))
    · exact h
  | clockQuery =>
    simp only [act, actClockQuery]
    split <;> exact h
  | loadOpen size =>
    simp only [act, actLoadOpen, Work.loadOpen]
    repeat' split
    all_goals exact h.congr rfl rfl
  | loadBlock index data =>
    simp only [act, actLoadBlock, Work.loadBlock]
    repeat' split
    all_goals exact h.congr rfl rfl
  | loadCommit =>
    simp only [act, actLoadCommit, Work.loadCommit]
    split
    · split
      · exact h
      · split
        · exact h
        · split
          · exact h
          · split
            · exact h
            · exact Work.commit_coupled x h
    · exact h
  | loadCancel =>
    simp only [act, actLoadCancel, Work.loadCancel]
    split <;> exact h.congr rfl rfl
  | readbackOpen size =>
    simp only [act, actReadbackOpen, Work.readbackOpen]
    split <;> exact h.congr rfl rfl

theorem coupled_linkKept : LinkKept fun s => s.Coupled :=
  linkKept_of_plant (P := Plant.Coupled) fun x body s h _ => by
    unfold State.handOn
    split
    · exact State.event_coupled _ s (act_coupled x _ _ h)
    · exact h

theorem State.wholeReset_coupled (kind : ResetKind) (s : State) : (s.wholeReset kind).Coupled :=
  .of_idle (fun x => by cases x <;> exact iff_of_true rfl rfl) rfl

theorem State.endReset_coupled (kind : ResetKind) (rate : LinkRate) {s : State} (h : s.Coupled) :
    (s.endReset kind rate).Coupled :=
  ⟨fun x => by
    cases x
    · exact h.stations .A
    · exact h.stations .B, h.restored⟩

/-- Patterns set at both stations and carried there leave both coupled, whatever they were. -/
theorem Work.carryBoth_coupled (c : Pair (Option PatternNo)) {w : Work} (hc : ∀ x, w.active x = c.get x)
    (ht : ∀ t, w.transition = some t → t.restores t.station = true) : (w.carryBoth c).Coupled := by
  unfold Work.carryBoth
  have hB : (w.carryResolved .A c.a).active .B = c.b := by
    unfold Plant.active
    rw [(Work.carryResolved_get .A .B c.a w).2 (by decide)]
    exact hc .B
  refine ⟨fun x => ?_, ?_⟩
  · cases x
    · rw [(Work.carryResolved_get .B .A c.b _).2 (by decide)]
      exact (Work.carryResolved_get .A .A c.a w).1 rfl (hc .A)
    · exact (Work.carryResolved_get .B .B c.b _).1 rfl hB
  · rw [Work.carryResolved_transition, Work.carryResolved_transition]
    exact ht

theorem Work.setBoth_active (c : Pair (Option PatternNo)) (w : Work) (x : Station) :
    (w.setBoth c).active x = c.get x := by
  cases x
  · unfold Work.setBoth Plant.active
    rw [Work.setPattern_get_of_ne (by decide)]
    exact Work.setPattern_active .A c.a w
  · exact Work.setPattern_active .B c.b _

/-- A station's records once the start-up wait is over: RF present has its value, and nothing else has changed (R85). -/
theorem Work.readRecords_get (w : Work) (x : Station) :
    w.readRecords.stations.get x = { w.stations.get x with carrier := (w.carrier x).settleRf } := by
  cases x <;> rfl

theorem Work.startUp_coupled (kind : ResetKind) {w : Work} (h : w.Coupled) : (Work.startUp kind w).Coupled := by
  have read : w.readRecords.Coupled := by
    refine ⟨fun x => ?_, h.restored⟩
    rw [Work.readRecords_get]
    exact h.stations x
  unfold Work.startUp
  generalize w.readRecords = v at read ⊢
  refine Work.evaluate_coupled false ?_
  split
  · unfold Work.startConfigured
    dsimp only
    generalize (v.activate v.imageRecord.bytes).startChoices v.lastRecord = choices
    have chosen := Work.setBoth_active choices (v.activate v.imageRecord.bytes)
    have idle : ((v.activate v.imageRecord.bytes).setBoth choices).transition = v.transition := rfl
    generalize (v.activate v.imageRecord.bytes).setBoth choices = b at chosen idle ⊢
    obtain ⟨hs, ht⟩ := Work.handLastState_stations false b
    generalize b.handLastState false = u at hs ht ⊢
    refine Work.carryBoth_coupled choices (fun x => ?_) ?_
    · unfold Work.announceStartUp Plant.active
      rw [Work.postAll_toPlant]
      exact (congrArg (fun p => (Pair.get p x).activePattern) hs).trans (chosen x)
    · unfold Work.announceStartUp
      rw [Work.postAll_toPlant]
      exact fun t hn => read.restored t ((ht.trans idle) ▸ hn)
  · exact Work.postAll_coupled _ _ (read.congr rfl rfl)

/-! ### Commands and steps -/

theorem State.resumeBoth_coupled {s : State} (h : s.Coupled) : s.resumeBoth.Coupled := by
  have resumed (x : Station) {s : State} (h : s.Coupled) : (s.resume x).Coupled := coupled_linkKept.resume x s h
  unfold State.resumeBoth
  dsimp only
  split
  · have drawn : Plant.Coupled { s.toPlant with freeDraws := s.freeDraws + 1 } := h.congr rfl rfl
    split
    · exact resumed .A (resumed .B (s := { s with freeDraws := s.freeDraws + 1 }) drawn)
    · exact resumed .B (resumed .A (s := { s with freeDraws := s.freeDraws + 1 }) drawn)
  · exact resumed .B (resumed .A h)

theorem Work.noConsent_coupled {w : Work} (h : w.Coupled) : w.noConsent.Coupled :=
  Work.examinePending_coupled (Work.endTransition_coupled _ h.stations)

/-- Every command keeps the stations coupled. -/
theorem exec_coupled (c : Instr) (s t : State) (he : exec c s = .next t) (h : s.Coupled) : t.Coupled := by
  have event (f : Work → Work) (hf : ∀ {w : Work}, w.Coupled → (f w).Coupled) : (s.event f).Coupled :=
    State.event_coupled f s (hf h)
  have L := coupled_linkKept
  cases c <;> simp only [exec] at he
  case powerOn => cases he; exact State.wholeReset_coupled _ s
  case resetLine => cases he; exact State.wholeReset_coupled _ s
  case resetEnd =>
    unfold execResetEnd at he
    cases he
    split
    · exact State.endReset_coupled _ _ h
    · exact h
    · exact h
  case startUp =>
    unfold execStartUp at he
    cases he
    split
    · exact State.resumeBoth_coupled
        (event _ fun h => Work.whenDue_coupled _ _ h fun _ h => Work.startUp_coupled _ h)
    · exact h
    · exact h
  case consentWaitTimerExpiry =>
    cases he
    refine event _ fun {w} h => ?_
    split
    · exact Work.whenDue_coupled _ _ h fun _ h => Work.noConsent_coupled h
    · exact h
  case deferTimerExpiry =>
    cases he
    refine event _ fun {w} h => ?_
    split
    · exact Work.whenDue_coupled _ _ h fun _ h => Work.noConsent_coupled h
    · exact h
  case muteTimerExpiry x =>
    cases he
    exact event _ fun h => Work.whenDue_coupled _ _ h fun _ h => Work.muteExpiry_coupled x h
  case rampTick x => cases he; exact event _ fun h => Work.tickRamp_coupled x h
  case pulseTimeEnd => cases he; exact event _ fun h => Work.endPulse_coupled h
  case settleTimeEnd => cases he; exact event _ fun h => Work.examinePending_coupled (Work.endSettle_coupled h)
  case debounceEvent =>
    unfold execDebounceEvent at he
    split at he
    · cases he
    · cases he; exact event _ fun h => Work.debounce_coupled _ _ _ h
  case rfPresentEvent x active => cases he; exact event _ fun h => Work.rfPresent_coupled x active h
  case measurementCompletion => cases he; exact event _ fun h => Work.measured_coupled _ _ _ _ h
  case verifyTimerExpiry x =>
    cases he
    refine event _ fun {w} h => ?_
    split
    · next hv => exact Work.whenDue_coupled _ _ h fun _ h => Work.verifyExpiry_coupled x h hv
    · exact h
  case outOfToleranceHoldExpiry x =>
    cases he
    refine event _ fun {w} h => ?_
    split
    · next hn =>
      refine Work.whenDue_coupled _ _ h fun due h => Work.onStation_lit x StationWork.outOfTolerance_lights h ?_
      show (w.carrier x).state ≠ .dark
      rw [hn]
      simp
    · exact h
  case staleTimerExpiry x tower =>
    unfold execStaleTimerExpiry at he
    split at he
    · cases he
    · next i _ =>
      cases he
      exact event _ fun h => Work.whenDue_coupled _ _ h fun _ h =>
        Work.onStation_coupled x (StationWork.staleExpiry_keepsCoupled i) h
  case siteClockTick => cases he; exact event _ fun h => Work.tickClock_coupled _ h
  case minuteTick => cases he; exact event _ fun h => Work.tickClock_coupled _ h
  case loadIdleTimerExpiry =>
    cases he
    exact event _ fun h => Work.whenDue_coupled _ _ h fun _ h => Work.loadExpired_coupled h
  case imageWriteCompletion =>
    cases he
    refine event _ fun {w} h => ?_
    split
    · exact Work.examinePending_coupled (Work.completeWrite_coupled h)
    · exact h
  case lastStateWriteCompletion =>
    cases he
    refine event _ fun {w} h => ?_
    split
    · exact Work.completeWrite_coupled h
    · exact h
  case characterReceived x b stopLow => cases he; exact L.receiveChar x b stopLow s h
  case gapTimerExpiry x =>
    unfold execGapTimerExpiry at he
    cases he
    split
    · exact h
    · exact h.congr rfl rfl
  case breakEvent x =>
    unfold execBreak at he
    cases he
    split
    · exact event _ fun h => Work.storePortReset_coupled x h
    · exact h
  case characterTransmitted x =>
    unfold execCharacterTransmitted at he
    cases he
    split
    · exact h
    · exact L.resume x _ (h.congr rfl rfl)
  case frameTransmissionStart x =>
    unfold execFrameTransmissionStart at he
    cases he
    split <;> exact h
  case lineReturnHigh x => cases he; exact h
  case powerReferencePeriodStart x =>
    cases he
    refine event _ fun {w} h => ?_
    unfold Work.tickPeriod
    split
    · exact h
    · next due _ =>
      exact Work.onStation_coupled x (fun _ _ h => h) (w := w.reach due) (h.congr rfl rfl)
  all_goals (cases he; exact L.receiveFrame _ _ s h)

/-- Settles O60: the pattern and the darkness of each station stay coupled through every command, with the requester of the
active transition in its restore set, which `Settled` brings to the step. -/
theorem noPatternExactlyInDark : Obligations.NoPatternExactlyInDark := by
  intro s t _ settled dark he
  have h : s.Coupled := ⟨dark, fun u hu => (settled u hu).1⟩
  unfold step at he
  split at he
  · cases he
    exact dark
  · next c rest _ => exact (exec_coupled c { s with pending := rest } t he h).stations

end Machine
end Sys2Proof

/-! PROOFS. Requests answered on a ready link by a block that leaves the carriers alone: the policies (R143, R164) and the
refusals of LOAD COMMIT (R149). -/
namespace Sys2Proof
namespace Machine

/-! ### A request whose event begins and ends no scan stay -/

/-- A request received on a ready link, its block's work known: the work's records and notices, and the reply. -/
theorem State.receiveRequest_eq {x : Station} {r : Request} {s : State} (h : s.Ready x) {w : Work} {reply : Reply}
    (ha : act x (s.ports.get x).dropped r s.work = (w, reply))
    (hs : ∀ y, (w.stations.get y).scanStay = (s.stations.get y).scanStay) :
    s.receiveRequest x r =
      (State.deliver w.posts { s with toPlant := w.toPlant }).answered x r.kind reply.code reply.data := by
  rw [State.receiveRequest_ready x r s h, State.answer_eq x r s (by rw [ha]; exact hs), ha]

/-- A request that changes nothing is answered, and no more. -/
theorem State.receiveRequest_unchanged {x : Station} {r : Request} {s : State} (h : s.Ready x) {reply : Reply}
    (ha : act x (s.ports.get x).dropped r s.work = (s.work, reply)) :
    s.receiveRequest x r = s.answered x r.kind reply.code reply.data :=
  State.receiveRequest_eq h ha fun _ => rfl

/-! ### Policies (R143, R164) -/

theorem consentPolicyOf?_toNat (v : Byte) :
    consentPolicyOf? v.toNat =
      if v = 0 then some .auto else if v = 1 then some .ask else if v = 2 then some .refuse else none := by
  revert v
  decide

theorem schedulePolicyOf?_toNat (v : Byte) :
    schedulePolicyOf? v.toNat = if v = 0 then some .auto else if v = 1 then some .manual else none := by
  revert v
  decide

/-- What CONSENT POLICY does, by the state of the image and the value (R164). -/
theorem act_consentPolicy (x : Station) (dropped : Nat) (v : Byte) (w : Work) :
    act x dropped (.consentPolicy v) w =
      if w.image = none then (w, .plain .notConfigured)
      else match consentPolicyOf? v.toNat with
        | none => (w, .plain .badArg)
        | some policy => ({ w with consentPolicy := w.consentPolicy.set x (some policy) }, .plain .accepted) := by
  simp only [act, actConsentPolicy, Work.setConsentPolicy, Option.isNone_iff_eq_none]
  split
  · rfl
  · cases consentPolicyOf? v.toNat <;> rfl

/-- What SCHEDULE POLICY does, by the state of the image and the value (R143). -/
theorem act_schedulePolicy (x : Station) (dropped : Nat) (v : Byte) (w : Work) :
    act x dropped (.schedulePolicy v) w =
      if w.image = none then (w, .plain .notConfigured)
      else match schedulePolicyOf? v.toNat with
        | none => (w, .plain .badArg)
        | some policy =>
          ({ w with
              schedulePolicy := w.schedulePolicy.set x (some policy)
              override := if policy = .auto then w.override.set x .clear else w.override }, .plain .accepted) := by
  simp only [act, actSchedulePolicy, Work.setSchedulePolicy, Option.isNone_iff_eq_none]
  split
  · rfl
  · cases schedulePolicyOf? v.toNat with
    | none => rfl
    | some policy => cases policy <;> rfl

/-- Settles O3: each request's block decides by the image and the value, and no scan stay turns. -/
theorem policiesSet : Obligations.PoliciesSet := by
  intro x v s h
  have hw : s.work.image = s.image := rfl
  constructor
  · have ha := act_consentPolicy x (s.ports.get x).dropped v s.work
    rw [consentPolicyOf?_toNat, hw] at ha
    refine congrArg Host.Outcome.next ?_
    split_ifs at ha ⊢ <;> exact State.receiveRequest_eq h ha fun _ => rfl
  · have ha := act_schedulePolicy x (s.ports.get x).dropped v s.work
    rw [schedulePolicyOf?_toNat, hw] at ha
    refine congrArg Host.Outcome.next ?_
    split_ifs at ha ⊢ <;> exact State.receiveRequest_eq h ha fun _ => rfl

/-! ### LOAD COMMIT refused (R149) -/

/-- A commit refused: the reply is all there is. -/
theorem exec_loadCommit_refused {x : Station} {s : State} (h : s.Ready x) {code : ReplyCode} {offset : Option Nat}
    (hc : s.work.loadCommit x = (s.work, code, offset)) :
    exec (.loadCommit x) s = .next (s.answered x 0x0E code ((offset.map bytes16).getD [])) := by
  refine congrArg Host.Outcome.next (State.receiveRequest_unchanged (r := .loadCommit) h
    (reply := ⟨code, (offset.map bytes16).getD []⟩) ?_)
  simp only [act, actLoadCommit, hc]

/-- Without a COMPLETE load of its own a port's commit is out of sequence. -/
theorem Work.loadCommit_sequence (x : Station) (w : Work)
    (h : ∀ size expected, w.loadSlot ≠ .held x size expected true) : w.loadCommit x = (w, .sequence, none) := by
  unfold Work.loadCommit
  split
  · next holder size expected hl =>
    have : holder ≠ x := fun he => h size expected (he ▸ hl)
    rw [if_pos this]
  · rfl

section
variable {x : Station} {w : Work} {size expected : Nat} (hl : w.loadSlot = .held x size expected true)
include hl

/-- With a COMPLETE load of its own the engine and the store must be idle. -/
theorem Work.loadCommit_busy (h : w.transition ≠ none ∨ w.pendingList ≠ [] ∨ w.imageWritePending = true) :
    w.loadCommit x = (w, .busy, none) := by
  have busy : (w.transition.isSome || !w.pendingList.isEmpty || w.imageWritePending) = true := by
    simpa [Option.isSome_iff_ne_none, or_assoc] using h
  unfold Work.loadCommit
  simp [hl, busy]

variable (hi : (w.transition.isSome || !w.pendingList.isEmpty || w.imageWritePending) = false)
include hi

/-- With both idle the image must be sound. -/
theorem Work.loadCommit_invalid {offset : Nat} (hf : firstFailure w.loadBuffer = some offset) :
    w.loadCommit x = (w, .invalid, some offset) := by
  unfold Work.loadCommit
  simp [hl, hi, hf]

/-- A sound image must carry on both stations' patterns. -/
theorem Work.loadCommit_mismatch {y : Station} (hf : firstFailure w.loadBuffer = none)
    (hm : w.mismatch w.loadBuffer y = true) : w.loadCommit x = (w, .mismatch, none) := by
  have either : (w.mismatch w.loadBuffer .A || w.mismatch w.loadBuffer .B) = true := by cases y <;> simp [hm]
  unfold Work.loadCommit
  simp [hl, hi, hf, either]

end

/-- A station not in DARK whose pattern the new image does not carry on is a mismatch (R21, R149 step 4). -/
theorem Plant.mismatch_of_active {p : Plant} {new : Memory} {y : Station} {q : PatternNo} (ha : p.active y = some q)
    (hd : (p.carrier y).state ≠ .dark)
    (h : (pattern new y q).inUse = false ∨ satisfied new p.contactors y q = false ∨
      (pattern new y q).power ≠ (pattern p.activeImage y q).power ∨
      (pattern new y q).fault ≠ (pattern p.activeImage y q).fault ∨
      (pattern new y q).towers ≠ (pattern p.activeImage y q).towers ∨
      (pattern new y q).verifyCount ≠ (pattern p.activeImage y q).verifyCount) :
    p.mismatch new y = true := by
  simp only [ne_comm (a := (pattern new y q).power), ne_comm (a := (pattern new y q).fault),
    ne_comm (a := (pattern new y q).towers), ne_comm (a := (pattern new y q).verifyCount)] at h
  simp [Plant.mismatch, ha, hd, or_assoc]
  exact h

/-- Settles O7: the checks of the commit in their order. -/
theorem loadCommitRefused : Obligations.LoadCommitRefused := by
  intro x s h
  refine ⟨fun hn => exec_loadCommit_refused h (Work.loadCommit_sequence x s.work hn), fun size expected hl => ?_⟩
  refine ⟨fun hb => exec_loadCommit_refused h (Work.loadCommit_busy (w := s.work) hl hb), fun ht hp hi => ?_⟩
  have idle : (s.work.transition.isSome || !s.work.pendingList.isEmpty || s.work.imageWritePending) = false := by
    simp [ht, hp, hi]
  exact ⟨fun offset hf => exec_loadCommit_refused h (Work.loadCommit_invalid (w := s.work) hl idle hf),
    fun y q hf ha hd hm => exec_loadCommit_refused h
      (Work.loadCommit_mismatch (w := s.work) hl idle hf (Plant.mismatch_of_active ha hd hm))⟩

/-! ### The invariants at reset -/

/-- A carrier record at its reset values is sound. -/
theorem Carrier.reset_sound : Carrier.reset.Sound := by
  constructor <;> simp [Carrier.reset]

theorem State.reset_outOfService : State.reset.OutOfService where
  image := rfl
  dark x := by cases x <;> rfl
  driver := rfl
  transition := rfl
  pendingList := rfl
  measurement := rfl
  clock := rfl
  writing := rfl
  writeQueue := rfl

theorem State.reset_canonical : State.reset.Canonical where
  image _ h := nomatch h
  foundImage _ h := nomatch h
  loadBuffer := reset_memories_wf.1
  imageRecord := reset_memories_wf.2
  writing _ h := nomatch h
  writeQueue _ h := nomatch h

/-- Settles O55: with no transition, no move and no memory, most invariants speak of nothing, and the records and ports have
their reset values. -/
theorem invariantsHoldAtReset : Obligations.InvariantsHoldAtReset := by
  refine ⟨?ports, ?carriers, fun _ => State.reset_outOfService, State.reset_canonical, .inl rfl, ?settled, ?cold, ?dark⟩
  case ports => intro x; cases x <;> exact Port.reset_bounded
  case carriers => intro x; cases x <;> exact Carrier.reset_sound
  case settled => intro t ht; cases ht
  case cold => exact ⟨fun h => absurd rfl h, fun m hm => nomatch hm⟩
  case dark => exact (State.wholeReset_coupled .powerOn State.reset).stations

end Machine
end Sys2Proof

/-! PROOFS. The debounce events (R53, R54): what each case leaves, and unexpected movement that breaks no map (R62, R64). -/
namespace Sys2Proof
namespace Machine

/-! ### The event and its contactor -/

theorem contactorOfIndex?_succ (k : ContactorNo) : contactorOfIndex? (k.val + 1) = some k := by
  unfold contactorOfIndex?
  rw [dif_pos (by omega)]
  rfl

theorem contactorOfIndex?_eq_none {n : Nat} (h : n = 0 ∨ 17 ≤ n) : contactorOfIndex? n = none :=
  dif_neg (by omega)

/-- An event that leaves the stations' records alone turns no scan stay. -/
theorem State.event_eq_of_stations {f : Work → Work} {s : State} {w : Work} (h : f s.work = w)
    (hs : w.stations = s.stations) : s.event f = s.finish w := by
  rw [State.event_eq f s (by rw [h, hs]; exact fun _ => rfl), h]

/-- What a debounce event of a contactor leaves, its work known and no station's records touched. -/
theorem exec_debounceEvent_eq {k : ContactorNo} {made0 made1 : Option Bool} {s : State} {w : Work}
    (h : s.work.debounce k made0 made1 = w) (hs : w.stations = s.stations) :
    exec (.debounceEvent (k.val + 1) made0 made1) s = .next (s.finish w) := by
  simp only [exec, execDebounceEvent, contactorOfIndex?_succ]
  rw [State.event_eq_of_stations h hs]

/-! ### The cases of an event in service -/

/-- A contactor not in use follows its contacts (R2, R54). -/
theorem Work.judgeCombination_unused {k : ContactorNo} {w : Work} (h : (contactorRecord w.activeImage k).inUse = false) :
    w.judgeCombination k = w.onLive k fun _ => w.aux[k].unusedLive := if_pos h

/-- The moving contactor, and one FAILED with DISAGREE, keep their records (R54). -/
theorem Work.judgeCombination_kept {k : ContactorNo} {w : Work} (h : (contactorRecord w.activeImage k).inUse = true)
    (hk : (∃ m, w.driver = some m ∧ m.contactor = k) ∨ w.contactors[k].failure = .disagree) : w.judgeCombination k = w := by
  unfold Work.judgeCombination
  rw [if_neg (by simp [h])]
  rcases hk with ⟨m, hm, rfl⟩ | hf
  · exact if_pos (by simp [Plant.isMoving, hm])
  · rw [if_pos hf]
    exact ite_self w

/-- Any other change of a contactor in use is unexpected movement (R54, R62). -/
theorem Work.judgeCombination_moved {k : ContactorNo} {w : Work} (h : (contactorRecord w.activeImage k).inUse = true)
    (hm : ∀ m, w.driver = some m → m.contactor ≠ k) (hf : w.contactors[k].failure ≠ .disagree) :
    w.judgeCombination k = w.unexpectedMovement k := by
  have still : w.isMoving k = false := by
    unfold Plant.isMoving
    cases hd : w.driver with
    | none => rfl
    | some m => simpa using hm m hd
  unfold Work.judgeCombination
  rw [if_neg (by simp [h]), if_neg (by simp [still]), if_neg hf]

/-- In service an event that changes a value is judged, and the pending list is examined behind it (R54). -/
theorem Work.debounce_running {k : ContactorNo} {made0 made1 : Option Bool} {w u v : Work} (hr : w.phase = .running)
    (hv : w.aux[k].take made0 made1 ≠ w.aux[k]) (hw : w.Waiting)
    (hu : u = { w with aux := w.aux.set k (w.aux[k].take made0 made1) }) (hj : u.judgeCombination k = v)
    (hq : v.pendingList = w.pendingList) (ht : v.canStart = w.canStart) : w.debounce k made0 made1 = v := by
  have waiting : v.Waiting := by
    unfold Plant.Waiting at hw ⊢
    rwa [hq, ht]
  unfold Work.debounce
  dsimp only
  split
  · next h => rw [hr] at h; cases h
  · next h => rw [hr] at h; cases h
  · rw [if_neg hv, ← hu, hj, Work.examinePending_waiting v waiting]

/-- A map that the movement leaves satisfied is not broken (R63). -/
theorem Work.breakMap_kept {before : Plant} {x : Station} {w : Work}
    (h : ∀ q, w.active x = some q → satisfied before.activeImage before.contactors x q = true →
      satisfied w.activeImage w.contactors x q = true) : w.breakMap before x = w := by
  unfold Work.breakMap
  split
  · rfl
  · next q hq =>
    refine if_neg fun hb => ?_
    simp only [Bool.and_eq_true, Bool.not_eq_true'] at hb
    rw [h q hq hb.1] at hb
    exact Bool.noConfusion hb.2

/-- Unexpected movement with no map broken and no transition active: the record and the notice, and nothing more (R62,
R64). -/
theorem Work.unexpectedMovement_harmless {k : ContactorNo} {w : Work} (ht : w.transition = none)
    (h : ∀ x q, w.active x = some q → satisfied w.activeImage w.contactors x q = true →
      satisfied w.activeImage (w.contactors.set k (Live.moved w.aux[k].shows w.contactors[k])) x q = true) :
    w.unexpectedMovement k = (w.onLive k (Live.moved w.aux[k].shows)).postFault k .unexpected := by
  have kept (x : Station) : Work.breakMap w.toPlant x ((w.onLive k (Live.moved w.aux[k].shows)).postFault k .unexpected) =
      (w.onLive k (Live.moved w.aux[k].shows)).postFault k .unexpected := by
    refine Work.breakMap_kept fun q hq => ?_
    simp only [Work.postFault, Work.postAll_toPlant] at hq ⊢
    exact h x q hq
  have idle : ((w.onLive k (Live.moved w.aux[k].shows)).postFault k .unexpected).transition = none := by
    simp only [Work.postFault, Work.postAll_toPlant]
    exact ht
  simp only [Work.unexpectedMovement, kept]
  unfold Work.arrayDisturbance
  rw [idle]

/-- The live record of a contactor after its own change. -/
theorem Work.onLive_live (k : ContactorNo) (f : Live → Live) (w : Work) : (w.onLive k f).contactors[k] = f w.contactors[k] := by
  simp [Work.onLive]

/-- The notices of a fault, behind those posted before (R60, R64, R67). -/
theorem Work.postFault_eq (k : ContactorNo) (cause : FaultCause) (w : Work) :
    w.postFault k cause =
      { w with posts := w.posts ++ (w.carrierList k).map fun y => (y, .contactorFault k w.contactors[k] cause) } := by
  have hp := Work.postAll_posts (w.carrierList k) (.contactorFault k w.contactors[k] cause) w
  have hw := Work.postAll_toPlant (w.carrierList k) (.contactorFault k w.contactors[k] cause) w
  unfold Work.postFault
  generalize w.postAll _ _ = v at hp hw ⊢
  obtain ⟨p, q⟩ := v
  dsimp only at hp hw
  rw [hp, hw]

/-- Settles O40: the event by the phase of the part, and in service by what the new combination means. -/
theorem debounceJudged : Obligations.DebounceJudged := by
  intro index made0 made1 s
  refine ⟨fun h => ?_, ?_⟩
  · simp only [exec, execDebounceEvent, contactorOfIndex?_eq_none h]
  rintro k rfl value aux inUse live
  have hv : s.aux[k].take made0 made1 = value := rfl
  have shown : aux[k] = value := by simp [aux]
  have hl : live = Live.moved value.shows s.contactors[k] := by
    show (match value.shows with | some _ => _ | none => _) = _
    cases value.shows <;> rfl
  refine ⟨fun kind hp => ?held, fun kind hp => ?starting, fun hp he => ?same, fun hp hne hw => ⟨?unused, ?kept, ?moved⟩⟩
  case held =>
    refine exec_debounceEvent_eq (w := s.work) ?_ rfl
    simp only [Work.debounce, State.work_toPlant, hp]
  case starting =>
    refine exec_debounceEvent_eq (w := { s.work with aux := aux, contactors := _ }) ?_ rfl
    simp only [Work.debounce, State.work_toPlant, hp]
    rfl
  case same =>
    refine exec_debounceEvent_eq (w := s.work) ?_ rfl
    simp only [Work.debounce, State.work_toPlant, hp]
    exact if_pos he
  all_goals
    have hne' : s.work.aux[k].take made0 made1 ≠ s.work.aux[k] := hne
    obtain ⟨u, hu⟩ : ∃ u : Work, u = { s.work with aux := aux } := ⟨_, rfl⟩
    have seen : u.aux[k] = value := by rw [hu]; exact shown
  case unused =>
    intro hi
    have judged := Work.judgeCombination_unused (k := k) (w := u) (by rw [hu]; exact hi)
    rw [seen] at judged
    subst hu
    exact exec_debounceEvent_eq (Work.debounce_running hp hne' hw rfl judged rfl rfl) rfl
  case kept =>
    intro hi hk
    have judged := Work.judgeCombination_kept (k := k) (w := u) (by rw [hu]; exact hi) (by rw [hu]; exact hk)
    subst hu
    exact exec_debounceEvent_eq (Work.debounce_running hp hne' hw rfl judged rfl rfl) rfl
  case moved =>
    intro hi hm hd ht hs
    have judged := Work.judgeCombination_moved (k := k) (w := u) (by rw [hu]; exact hi) (by rw [hu]; exact hm)
      (by rw [hu]; exact hd)
    rw [Work.unexpectedMovement_harmless (by rw [hu]; exact ht) (by rw [seen, hu]; exact hl ▸ hs), seen,
      Work.postFault_eq, Work.onLive_live] at judged
    subst hu
    rw [exec_debounceEvent_eq (Work.debounce_running hp hne' hw rfl judged rfl rfl) rfl, State.finish_eq]
    rw [hl]
    rfl

end Machine
end Sys2Proof

/-! PROOFS. The resets of the whole part (R153) and the end of a reset (R154 step 1, R155): each field at its reset value, and
the image record whose write was cut short (R151, R152). -/
namespace Sys2Proof
namespace Machine

/-! ### What a reset leaves -/

/-- Both stations' units are at their reset values (R72, R103). -/
theorem State.wholeReset_stations (kind : ResetKind) (s : State) (x : Station) :
    (s.wholeReset kind).stations.get x = StationUnit.reset := by cases x <;> rfl

/-- Both ports are at their reset values (R156 to R161). -/
theorem State.wholeReset_ports (kind : ResetKind) (s : State) (x : Station) :
    (s.wholeReset kind).ports.get x = Port.reset := by cases x <;> rfl

theorem State.wholeReset_contactors (kind : ResetKind) (s : State) (k : ContactorNo) :
    (s.wholeReset kind).contactors[k] = ⟨none, .idle, .noFailure⟩ ∧ (s.wholeReset kind).aux[k] = ⟨none, none⟩ := by
  simp [State.wholeReset, State.reset]

theorem StationUnit.reset_channels (i : TowerNo) : StationUnit.reset.channels[i] = Channel.reset := by
  simp [StationUnit.reset]

/-- Each byte of an image record whose write was cut short is the old one or the new one (R151). -/
theorem read_tornBytes (draw : Nat) (old new : Memory) (h : Memory.wf old = true) (a : Nat) :
    Memory.read (tornBytes draw old new) a = Memory.read old a ∨
      Memory.read (tornBytes draw old new) a = Memory.read new a := by
  unfold tornBytes
  refine (List.foldlRecOn (motive := fun m => Memory.wf m = true ∧
    (Memory.read m a = Memory.read old a ∨ Memory.read m a = Memory.read new a)) _ _ ⟨h, .inl rfl⟩ ?_).2
  rintro m ⟨hm, hr⟩ b -
  split
  · exact ⟨hm, hr⟩
  · split
    · refine ⟨Memory.write_wf m hm b _, ?_⟩
      rw [Memory.read_write m hm]
      split
      · next he => exact .inr (by rw [he])
      · exact hr
    · exact ⟨hm, hr⟩

theorem Plant.cutImageRecord_of_no_image {p : Plant} (h : ∀ m due, p.writing ≠ some ⟨.image m, due⟩) :
    p.cutImageRecord = p.imageRecord := by
  unfold Plant.cutImageRecord
  split
  · next new due hw => exact absurd hw (h new due)
  · rfl

theorem Plant.cutImageRecord_of_image {p : Plant} {m : Memory} {due : Nat} (h : p.writing = some ⟨.image m, due⟩) :
    p.cutImageRecord = ⟨.torn, tornBytes p.freeDraws p.imageRecord.bytes m⟩ := by
  unfold Plant.cutImageRecord
  rw [h]

/-! ### The end of a reset -/

theorem strapRate_eq (strap1 strap0 : Bool) :
    strapRate strap1 strap0 =
      if strap1 then (if strap0 then .r115200 else .r38400) else if strap0 then .r19200 else .r9600 := by
  cases strap1 <;> cases strap0 <;> rfl

/-- Settles O21: the reset state's own fields, read off, and the end of the reset that is held. -/
theorem resetHeldAndEnded : Obligations.ResetHeldAndEnded := by
  constructor
  · intro c kind s hc
    have he : exec c s = .next (s.wholeReset kind) := by
      rcases hc with ⟨rfl, rfl⟩ | ⟨rfl, rfl⟩ <;> rfl
    refine ⟨s.wholeReset kind, he, rfl, rfl, rfl, rfl, rfl, rfl, rfl, rfl, rfl, rfl, rfl, rfl, rfl, rfl, rfl, rfl, rfl, rfl,
      rfl, rfl, rfl, rfl, rfl, rfl, rfl, rfl, rfl, State.wholeReset_contactors kind s, fun x => ?_, rfl, rfl, rfl,
      fun hw => Plant.cutImageRecord_of_no_image hw, fun m due hw => ?_⟩
    · simp only [Plant.active, Plant.carrier, Plant.powerReference, State.wholeReset_stations, State.wholeReset_ports]
      refine ⟨rfl, rfl, rfl, rfl, rfl, rfl, rfl, rfl, rfl, rfl, rfl, rfl, rfl, rfl, rfl, rfl,
        StationUnit.reset_channels, rfl, rfl, rfl, rfl, rfl, rfl, rfl, rfl, rfl, rfl, rfl, rfl, rfl, rfl, rfl, rfl, rfl⟩
    · have cut : (s.wholeReset kind).imageRecord = ⟨.torn, tornBytes s.freeDraws s.imageRecord.bytes m⟩ :=
        Plant.cutImageRecord_of_image hw
      rw [cut]
      dsimp only
      exact ⟨rfl, fun hwf a _ => read_tornBytes s.freeDraws s.imageRecord.bytes m hwf a⟩
  · intro strap1 strap0 s
    refine ⟨fun kind hp => ?_, fun hp => ?_, rfl, rfl, rfl, rfl⟩
    · simp only [exec, execResetEnd, hp]
      rw [strapRate_eq]
      rfl
    · simp only [exec, execResetEnd]
      split
      · next kind h => exact absurd h (hp kind)
      · rfl
      · rfl

end Machine
end Sys2Proof

/-! PROOFS. Start-up with a sound image (R154): the rules of the ramp that begins, of resolution, of the notice queues and of
the store that is idle, and the state they leave. -/
namespace Sys2Proof
namespace Machine

/-! ### A ramp that begins -/

/-- The state a ramp command of another level takes the station to (R75). -/
def Ramp.direction (ramp : Ramp) (level : Nat) : CarrierState := if ramp.target < level then .lowering else .raising

theorem Ramp.direction_cases (ramp : Ramp) (level : Nat) :
    ramp.direction level = .lowering ∨ ramp.direction level = .raising := by
  unfold Ramp.direction
  split <;> simp

/-- The carrier record on a ramp that has just begun. -/
def Carrier.onRamp (ramp : Ramp) (r : Carrier) : Carrier :=
  { r.leave with state := ramp.direction r.level, ramp := some ramp }

theorem Carrier.leave_ramp (ramp : Option Ramp) (r : Carrier) :
    ({ r with ramp := ramp } : Carrier).leave = { r.leave with ramp := ramp } := by
  cases hs : r.state <;> simp [Carrier.leave, hs]

theorem Carrier.leave_level (r : Carrier) : r.leave.level = r.level := by
  cases hs : r.state <;> simp [Carrier.leave, hs]

/-- A ramp command to another level: the record is on its ramp, and a change of state is told (R75, R76, R89). -/
theorem StationWork.rampTo_begins {ramp : Ramp} {c : Ctx} {w : StationWork} (h : ramp.target ≠ w.carrier.level) :
    w.rampTo ramp c =
      { w with
        carrier := w.carrier.onRamp ramp
        scanStay := if stayChanges w.carrier.state (ramp.direction w.carrier.level) then w.scanStay + 1 else w.scanStay
        out := w.out ++
          if w.carrier.state = ramp.direction w.carrier.level then []
          else [.carrierState (ramp.direction w.carrier.level) w.carrier.level w.activePattern (some ramp)
            w.carrier.leave.muteConfirmed (w.carrier.leave.rfPresent == some true)] } := by
  have entered (new : CarrierState) (hn : new = .lowering ∨ new = .raising) (r : Carrier) :
      r.enter c new = { r with state := new } := by rcases hn with rfl | rfl <;> rfl
  have settled (v : StationWork) (hv : v.carrier.state = .lowering ∨ v.carrier.state = .raising) : v.settleIn c = v := by
    unfold StationWork.settleIn
    rcases hv with hv | hv <;> rw [hv]
  have hd := ramp.direction_cases w.carrier.level
  unfold StationWork.rampTo
  rw [if_neg h]
  change StationWork.enterState (ramp.direction w.carrier.level) c _ = _
  unfold StationWork.enterState
  simp only [entered _ hd, Carrier.leave_ramp]
  rw [settled _ (by split <;> exact hd)]
  by_cases hs : w.carrier.state = ramp.direction w.carrier.level
  · simp only [hs, if_true, List.append_nil]
    rfl
  · simp only [hs, if_false, StationWork.post, StationWork.carrierNotice, Carrier.leave_level]
    rw [if_pos hd]
    simp only [Carrier.onRamp, Carrier.leave_level]

/-- A DARK station at level 0 is raised: nothing of its record changes but state and ramp, and no scan stay turns. -/
theorem StationWork.raiseToFull_from_dark {c : Ctx} {w : StationWork} {q : PatternNo} (ha : w.activePattern = some q)
    (hs : w.carrier.state = .dark) (hl : w.carrier.level = 0) (hp : 0 < (pattern c.image c.station q).power) :
    StationWork.raiseToFull c w =
      { w with
        carrier := { w.carrier with state := .raising, ramp := some ⟨(pattern c.image c.station q).power, .full, q⟩ }
        out := w.out ++ [.carrierState .raising 0 (some q) (some ⟨(pattern c.image c.station q).power, .full, q⟩)
          w.carrier.muteConfirmed (w.carrier.rfPresent == some true)] } := by
  have record : w.activeRecord c = (q, pattern c.image c.station q) := by simp [StationWork.activeRecord, ha]
  have up : (⟨(pattern c.image c.station q).power, .full, q⟩ : Ramp).direction 0 = .raising := by simp [Ramp.direction]
  have still : w.carrier.leave = w.carrier := by simp [Carrier.leave, hs]
  unfold StationWork.raiseToFull
  simp only [record]
  rw [StationWork.rampTo_begins (by dsimp only; omega)]
  simp [Carrier.onRamp, hl, up, still, hs, ha, stayChanges, CarrierState.measured]

/-! ### Resolution -/

/-- Resolution finds a candidate, and none only when there is none (R49). -/
theorem Plant.resolved_eq_none {p : Plant} {x : Station} {preferred : List PatternNo} :
    p.resolved x preferred = none ↔ ∀ q, p.candidate x q = false := by
  simp only [Plant.resolved, List.find?_eq_none, List.mem_append, Bool.not_eq_true]
  exact ⟨fun h q => h q (.inr (List.mem_finRange q)), fun h q _ => h q⟩

theorem Plant.candidate_of_resolved {p : Plant} {x : Station} {preferred : List PatternNo} {q : PatternNo}
    (h : p.resolved x preferred = some q) : p.candidate x q = true := List.find?_some h

/-- A preferred candidate is taken (R49). -/
theorem Plant.resolved_preferred {p : Plant} {x : Station} {q : PatternNo} {rest : List PatternNo}
    (h : p.candidate x q = true) : p.resolved x (q :: rest) = some q := List.find?_cons_of_pos h

/-- A preferred pattern that is no candidate is passed over (R49). -/
theorem Plant.resolved_passed {p : Plant} {x : Station} {q : PatternNo} {rest : List PatternNo}
    (h : p.candidate x q = false) : p.resolved x (q :: rest) = p.resolved x rest :=
  List.find?_cons_of_neg (by simp [h])

/-- With no preference the lowest candidate is taken (R49). -/
theorem Plant.resolved_lowest {p : Plant} {x : Station} {q r : PatternNo} (h : p.resolved x [] = some q)
    (hr : p.candidate x r = true) : q ≤ r := by
  obtain ⟨-, before, after, hl, hb⟩ := List.find?_eq_some_iff_append.1 h
  have sorted : (before ++ q :: after).Pairwise (· < ·) := hl ▸ List.pairwise_lt_finRange 4
  have mem : r ∈ before ++ q :: after := hl ▸ List.mem_finRange r
  rcases List.mem_append.1 mem with hm | hm
  · have := hb r hm
    simp [hr] at this
  · rcases List.mem_cons.1 hm with rfl | ha
    · exact le_refl r
    · exact le_of_lt ((List.pairwise_cons.1 (List.pairwise_append.1 sorted).2.1).1 r ha)

/-! ### The notice queues -/

/-- The notices of a queue with room for those posted to it, behind the ones that stand there (R161, R167). -/
theorem State.deliver_notices (posts : List (Station × Notice)) (s : State) (y : Station)
    (h : (s.ports.get y).notices.length + (posts.filter fun p => p.1 = y).length ≤ Config.noticeQueueSize) :
    ((State.deliver posts s).ports.get y).notices =
      (s.ports.get y).notices ++ (posts.filter fun p => p.1 = y).map fun p => p.2 := by
  induction posts generalizing s with
  | nil => simp
  | cons q posts ih =>
    change ((State.deliver posts (s.onPort q.1 (Port.post q.2))).ports.get y).notices = _
    by_cases hq : q.1 = y
    · subst hq
      simp only [decide_true, List.filter_cons_of_pos, List.length_cons] at h ⊢
      have room : (s.ports.get q.1).notices.length < Config.noticeQueueSize := by omega
      have posted : ((s.onPort q.1 (Port.post q.2)).ports.get q.1).notices = (s.ports.get q.1).notices ++ [q.2] := by
        simp [Port.post, room]
      rw [ih _ (by rw [posted, List.length_append, List.length_singleton]; omega), posted]
      simp
    · have other : (s.onPort q.1 (Port.post q.2)).ports.get y = s.ports.get y := by
        rw [State.onPort_ports, Pair.get_set_of_ne _ _ (Ne.symm hq)]
      rw [List.filter_cons_of_neg (by simpa using hq)] at h ⊢
      rw [ih _ (by rw [other]; exact h), other]

/-- A port to which nothing is posted stays as it is. -/
theorem State.deliver_ports_of_none (posts : List (Station × Notice)) (s : State) (y : Station)
    (h : ∀ p ∈ posts, p.1 ≠ y) : (State.deliver posts s).ports.get y = s.ports.get y := by
  induction posts generalizing s with
  | nil => rfl
  | cons q posts ih =>
    change (State.deliver posts (s.onPort q.1 (Port.post q.2))).ports.get y = _
    rw [ih _ fun p hp => h p (List.mem_cons_of_mem q hp), State.onPort_ports,
      Pair.get_set_of_ne _ _ (Ne.symm (h q List.mem_cons_self))]

/-! ### The store and the image -/

/-- A last-state record handed to an idle store is written at once, its record TORN (R50, R152). -/
theorem Work.handLastState_idle {w : Work} (marker : Bool) (hw : w.writing = none) (hq : w.writeQueue = []) :
    w.handLastState marker = { w with
      writing := some ⟨.lastState ⟨w.active .A, w.active .B, marker⟩, w.elapsed + Config.ms 20⟩
      lastRecord := .torn } := by
  have fields := Work.handLastState_eq marker w
  have written : (w.handLastState marker).writing =
        some ⟨.lastState ⟨w.active .A, w.active .B, marker⟩, w.elapsed + Config.ms 20⟩ ∧
      (w.handLastState marker).writeQueue = w.writeQueue ∧ (w.handLastState marker).imageRecord = w.imageRecord ∧
      (w.handLastState marker).lastRecord = .torn := by
    unfold Work.handLastState Work.startNextWrite
    simp only [hw, hq]
    exact ⟨rfl, rfl, rfl, rfl⟩
  obtain ⟨h1, h2, h3, h4⟩ := written
  rw [h1, h2, h3, h4] at fields
  exact fields

/-- A sound image is one whose checks all hold (R149, R169). -/
theorem firstFailure_eq_none {m : Memory} : firstFailure m = none ↔ ∀ c ∈ imageChecks m, c.2 = true := by
  simp [firstFailure]

/-- A sound image gives each in-use pattern a power of 50 or more (R9, R18). -/
theorem power_of_sound {m : Memory} (h : firstFailure m = none) {x : Station} {q : PatternNo}
    (hq : (pattern m x q).inUse = true) : 50 ≤ (pattern m x q).power := by
  have inPattern : (patternBase x q + 5, within 50 1000 (pattern m x q).power) ∈ patternChecks m x q := by
    simp [patternChecks, hq]
  have inSection : (patternBase x q + 5, within 50 1000 (pattern m x q).power) ∈ sectionChecks m x :=
    List.mem_append_left _ (List.mem_append_right _ (List.mem_flatMap.2 ⟨q, List.mem_finRange q, inPattern⟩))
  have checked : (patternBase x q + 5, within 50 1000 (pattern m x q).power) ∈ imageChecks m := by
    refine List.mem_cons_of_mem _ (List.mem_cons_of_mem _ ?_)
    cases x
    · exact List.mem_append_left _ (List.mem_append_right _ inSection)
    · exact List.mem_append_right _ inSection
  have := firstFailure_eq_none.1 h _ checked
  simp only [within, decide_eq_true_eq] at this
  exact this.1

end Machine
end Sys2Proof

/-! PROOFS. Start-up with a sound image, put together (R154). -/
namespace Sys2Proof
namespace Machine

/-! ### Both stations take their patterns -/

/-- A station's records once its pattern has been set (R19). -/
def StationUnit.patterned (c : Ctx) (p : Option PatternNo) (u : StationUnit) : StationUnit :=
  (StationWork.setPattern p c { toStationUnit := u, out := [] }).toStationUnit

theorem StationWork.setPattern_out (p : Option PatternNo) (c : Ctx) (w : StationWork) :
    (StationWork.setPattern p c w).out = w.out := by
  unfold StationWork.setPattern StationWork.quietReport
  dsimp only
  split <;> rfl

theorem StationUnit.patterned_activePattern (c : Ctx) (p : Option PatternNo) (u : StationUnit) :
    (u.patterned c p).activePattern = p := StationWork.setPattern_activePattern p c _

theorem StationUnit.patterned_alike (c : Ctx) (p : Option PatternNo) (u : StationUnit) :
    u.carrier.Alike (u.patterned c p).carrier := StationWork.setPattern_alike p c { toStationUnit := u, out := [] }

theorem StationUnit.patterned_verifyRequired (c : Ctx) (p : Option PatternNo) (u : StationUnit) :
    (u.patterned c p).carrier.verifyRequired = (u.carrier.verifyRequired || p.isSome) := by
  unfold StationUnit.patterned StationWork.setPattern StationWork.quietReport
  dsimp only
  split <;> rfl

/-- The setting of a pattern posts nothing and begins or ends no scan stay (R19, R98). -/
theorem StationUnit.patterned_scanStay (c : Ctx) (p : Option PatternNo) (u : StationUnit) :
    (u.patterned c p).scanStay = u.scanStay := by
  unfold StationUnit.patterned StationWork.setPattern StationWork.quietReport
  dsimp only
  split <;> rfl

theorem Work.setPattern_eq (x : Station) (p : Option PatternNo) (w : Work) :
    w.setPattern x p = { w with stations := w.stations.set x ((w.stations.get x).patterned (w.toPlant.ctx x) p) } := by
  unfold Work.setPattern Work.onStation StationUnit.patterned
  simp only [StationWork.setPattern_out, List.map_nil, List.append_nil]

theorem Work.setBoth_eq (c : Pair (Option PatternNo)) (w : Work) :
    w.setBoth c = { w with
      stations := ⟨w.stations.a.patterned (w.toPlant.ctx .A) c.a, w.stations.b.patterned (w.toPlant.ctx .B) c.b⟩ } := by
  unfold Work.setBoth
  rw [Work.setPattern_eq, Work.setPattern_eq]
  rfl

/-! ### Both stations are raised, or stay DARK -/

/-- A DARK station's records once it has been raised toward its pattern, if it has one (R49, R79). -/
def StationUnit.raised (m : Memory) (x : Station) (choice : Option PatternNo) (u : StationUnit) : StationUnit :=
  match choice with
  | none => u
  | some q =>
    { u with carrier := { u.carrier with state := .raising, ramp := some ⟨(pattern m x q).power, .full, q⟩ } }

/-- What the raise posts (R89). -/
def StationUnit.raiseNotices (m : Memory) (x : Station) (choice : Option PatternNo) (u : StationUnit) : List Notice :=
  match choice with
  | none => []
  | some q =>
    [.carrierState .raising 0 (some q) (some ⟨(pattern m x q).power, .full, q⟩) u.carrier.muteConfirmed
      (u.carrier.rfPresent == some true)]

/-- A DARK station at level 0 carries the pattern resolution gave it (R49). -/
theorem Work.carryResolved_from_dark {x : Station} {choice : Option PatternNo} {w : Work} (ha : w.active x = choice)
    (hs : (w.carrier x).state = .dark) (hl : (w.carrier x).level = 0)
    (hp : ∀ q, choice = some q → 0 < (pattern w.activeImage x q).power) :
    w.carryResolved x choice = { w with
      stations := w.stations.set x ((w.stations.get x).raised w.activeImage x choice)
      posts := w.posts ++ ((w.stations.get x).raiseNotices w.activeImage x choice).map fun n => (x, n) } := by
  unfold Work.carryResolved Work.onStation
  cases choice with
  | none =>
    have dark : StationWork.goDark (w.toPlant.ctx x) { toStationUnit := w.stations.get x, out := [] } =
        { toStationUnit := w.stations.get x, out := [] } := if_pos hs
    simp only [dark]
    rfl
  | some q =>
    have raise := StationWork.raiseToFull_from_dark (c := w.toPlant.ctx x)
      (w := { toStationUnit := w.stations.get x, out := [] }) ha hs hl (hp q rfl)
    simp only [raise]
    rfl

/-- Both stations carry their patterns, from DARK at level 0. -/
theorem Work.carryBoth_from_dark {c : Pair (Option PatternNo)} {w : Work} (ha : ∀ x, w.active x = c.get x)
    (hs : ∀ x, (w.carrier x).state = .dark) (hl : ∀ x, (w.carrier x).level = 0)
    (hp : ∀ x q, c.get x = some q → 0 < (pattern w.activeImage x q).power) :
    w.carryBoth c = { w with
      stations := ⟨w.stations.a.raised w.activeImage .A c.a, w.stations.b.raised w.activeImage .B c.b⟩
      posts := w.posts ++ ((w.stations.a.raiseNotices w.activeImage .A c.a).map fun n => (.A, n)) ++
        (w.stations.b.raiseNotices w.activeImage .B c.b).map fun n => (.B, n) } := by
  have first := Work.carryResolved_from_dark (choice := c.a) (ha .A) (hs .A) (hl .A) (hp .A)
  have second := Work.carryResolved_from_dark (choice := c.b) (w := w.carryResolved .A c.a) (x := .B)
    (by rw [first]; exact ha .B) (by rw [first]; exact hs .B) (by rw [first]; exact hl .B) (by rw [first]; exact hp .B)
  unfold Work.carryBoth
  rw [second, first]
  rfl

/-! ### The part as start-up leaves it -/

/-- Notices to several stations change nothing but the notices posted. -/
theorem Work.postAll_eq (xs : List Station) (n : Notice) (w : Work) :
    w.postAll xs n = { w with posts := w.posts ++ xs.map fun x => (x, n) } := by
  have hp := Work.postAll_posts xs n w
  have hw := Work.postAll_toPlant xs n w
  generalize w.postAll xs n = v at hp hw ⊢
  obtain ⟨p, q⟩ := v
  dsimp only at hp hw
  rw [hp, hw]

/-- No evaluation is made while the clock is invalid (R139). -/
theorem Work.evaluate_no_clock {w : Work} (minuteTick : Bool) (h : w.clock = none) : w.evaluate minuteTick = w := by
  unfold Work.evaluate
  rw [h]

/-- The two stations' records as start-up with a sound image leaves them. -/
def StationUnit.started (m : Memory) (now : Nat) (x : Station) (choice : Option PatternNo) (u : StationUnit) : StationUnit :=
  (u.patterned ⟨x, m, now⟩ choice).raised m x choice

/-- The notice of CARRIER_STATE that start-up posts to a station, if it is raised. -/
def StationUnit.startNotices (m : Memory) (now : Nat) (x : Station) (choice : Option PatternNo) (u : StationUnit) :
    List Notice :=
  (u.patterned ⟨x, m, now⟩ choice).raiseNotices m x choice

/-- The patterns resolution gives the stations at start-up (R154 step 5). -/
def Work.chosen (m : Memory) (w : Work) : Pair (Option PatternNo) := (w.activate m).startChoices w.lastRecord

/-- The part as steps 3 to 8 of start-up leave it with a sound image (R154). -/
def Work.configured (kind : ResetKind) (m : Memory) (w : Work) : Work :=
  let c := w.chosen m
  let notice : Notice := .started kind w.lastRecord.interrupted true c.a c.b
  { w.activate m with
    stations := ⟨w.stations.a.started m w.elapsed .A c.a, w.stations.b.started m w.elapsed .B c.b⟩
    writing := some ⟨.lastState ⟨c.a, c.b, false⟩, w.elapsed + Config.ms 20⟩
    lastRecord := .torn
    consentPolicy := ⟨(settings m .A).consentDefault, (settings m .B).consentDefault⟩
    schedulePolicy := ⟨(settings m .A).scheduleDefault, (settings m .B).scheduleDefault⟩
    override := ⟨.clear, .clear⟩
    retryHold := ⟨0, 0⟩
    startUpCause := some kind
    interrupted := w.lastRecord.interrupted
    posts := [(.A, notice), (.B, notice)] ++
      ((w.stations.a.startNotices m w.elapsed .A c.a).map fun n => (.A, n)) ++
      (w.stations.b.startNotices m w.elapsed .B c.b).map fun n => (.B, n) }

/-- Steps 3 to 8 with a sound image, of a part whose store is idle and whose stations are DARK at level 0. -/
theorem Work.startConfigured_eq {kind : ResetKind} {m : Memory} {w : Work} (hm : firstFailure m = none)
    (hw : w.writing = none) (hq : w.writeQueue = []) (hs : ∀ x, (w.carrier x).state = .dark)
    (hl : ∀ x, (w.carrier x).level = 0) (hp : w.posts = []) : w.startConfigured kind m = w.configured kind m := by
  let choices := w.chosen m
  let notice : Notice := .started kind w.lastRecord.interrupted true choices.a choices.b
  have chosen (x : Station) (q : PatternNo) (h : choices.get x = some q) : 0 < (pattern m x q).power := by
    have hc : (w.activate m).candidate x q = true := by
      cases x
      · exact Plant.candidate_of_resolved h
      · exact Plant.candidate_of_resolved h
    simp only [Plant.candidate, Bool.and_eq_true] at hc
    have := power_of_sound hm hc.1
    omega
  let b : Work := { w.activate m with
    stations := ⟨w.stations.a.patterned ⟨.A, m, w.elapsed⟩ choices.a, w.stations.b.patterned ⟨.B, m, w.elapsed⟩ choices.b⟩ }
  have active (x : Station) : b.active x = choices.get x := by
    cases x <;> exact StationUnit.patterned_activePattern _ _ _
  have alike (x : Station) : (w.carrier x).Alike (b.carrier x) := by
    cases x <;> exact StationUnit.patterned_alike _ _ _
  let u : Work := { b with
    writing := some ⟨.lastState ⟨choices.a, choices.b, false⟩, w.elapsed + Config.ms 20⟩
    lastRecord := .torn }
  let v : Work := { u with
    consentPolicy := ⟨(settings m .A).consentDefault, (settings m .B).consentDefault⟩
    schedulePolicy := ⟨(settings m .A).scheduleDefault, (settings m .B).scheduleDefault⟩
    override := ⟨.clear, .clear⟩
    retryHold := ⟨0, 0⟩
    startUpCause := some kind
    interrupted := w.lastRecord.interrupted
    posts := [(.A, notice), (.B, notice)] }
  have hb : (w.activate m).setBoth choices = b := Work.setBoth_eq choices (w.activate m)
  have hu : b.handLastState false = u := by
    rw [Work.handLastState_idle (w := b) false hw hq, active .A, active .B]
    rfl
  have hv : (u.takeDefaults m).clearHolds.announceStartUp kind w.lastRecord.interrupted = v := by
    have tell : Plant.startedNotice { (u.takeDefaults m).clearHolds.toPlant with
        startUpCause := some kind, interrupted := w.lastRecord.interrupted } kind = notice := by
      simp only [Plant.startedNotice, notice]
      exact congrArg₂ _ (active .A) (active .B)
    unfold Work.announceStartUp
    dsimp only
    rw [tell, Work.postAll_eq]
    change { v with posts := w.posts ++ _ } = v
    rw [hp]
    rfl
  have carried := Work.carryBoth_from_dark (w := v) active (fun x => (alike x).state.trans (hs x))
    (fun x => (alike x).level.trans (hl x)) chosen
  calc w.startConfigured kind m
      = Work.carryBoth choices ((u.takeDefaults m).clearHolds.announceStartUp kind w.lastRecord.interrupted) := by
        rw [← hu, ← hb]
        rfl
    _ = v.carryBoth choices := by rw [hv]
    _ = _ := carried

end Machine
end Sys2Proof

/-! PROOFS. START_UP with a sound image: the command's next state, read off the work of start-up (R154). -/
namespace Sys2Proof
namespace Machine

/-! ### The frames held through start-up -/

theorem State.deliver_heldFrame (posts : List (Station × Notice)) (s : State) (y : Station) :
    ((State.deliver posts s).ports.get y).heldFrame = (s.ports.get y).heldFrame := by
  induction posts generalizing s with
  | nil => rfl
  | cons q posts ih =>
    change ((State.deliver posts (s.onPort q.1 (Port.post q.2))).ports.get y).heldFrame = _
    rw [ih, State.onPort_ports]
    by_cases hy : y = q.1
    · subst hy
      rw [Pair.get_set_self]
      unfold Port.post
      split <;> rfl
    · rw [Pair.get_set_of_ne _ _ hy]

/-- With no frame held nothing is handed on at the end of start-up (R159). -/
theorem State.resumeBoth_of_none {s : State} (h : ∀ x, (s.ports.get x).heldFrame = none) : s.resumeBoth = s := by
  have resumed (x : Station) : s.resume x = s := by
    unfold State.resume
    rw [h x]
  unfold State.resumeBoth
  rw [h .A]
  simp only [Option.isSome_none, Bool.false_and, Bool.false_eq_true, if_false]
  rw [resumed .A, resumed .B]

/-- The start-up wait ends with no frame held and no scan stay turned: the work of start-up, and no more. -/
theorem exec_startUp_eq {kind : ResetKind} {due : Nat} {s : State} {w : Work} (hp : s.phase = .starting kind)
    (ht : s.startUpTimer = some due) (hh : ∀ x, (s.ports.get x).heldFrame = none)
    (hw : Work.startUp kind (s.work.reach due) = w)
    (hs : ∀ x, (w.stations.get x).scanStay = (s.stations.get x).scanStay) : exec .startUp s = .next (s.finish w) := by
  have event : (s.event fun w => w.whenDue w.startUpTimer (Work.startUp kind)) = s.finish w := by
    have work : (fun w : Work => w.whenDue w.startUpTimer (Work.startUp kind)) s.work = w := by
      simp only [Work.whenDue, State.work_toPlant, ht, hw]
    rw [State.event_eq _ s (by simp only [work]; exact hs)]
    exact congrArg (State.finish · s) work
  simp only [exec, execStartUp, hp]
  rw [event, State.resumeBoth_of_none fun x => ?_]
  rw [State.finish_eq, State.deliver_heldFrame]
  exact hh x

/-! ### What the inputs and the image give -/

theorem Work.readRecords_aux (w : Work) (k : ContactorNo) : w.readRecords.aux[k] = w.aux[k].settled := by
  simp [Work.readRecords, Work.settleInputs]

theorem Work.readRecords_live (w : Work) (k : ContactorNo) : w.readRecords.contactors[k] = w.aux[k].settled.unusedLive := by
  simp [Work.readRecords, Work.settleInputs]

/-- With no image active before, a contactor in use enters use and another stays as it is (R7). -/
theorem Work.activate_live {w : Work} {m : Memory} (h : w.image = none) (k : ContactorNo) :
    (w.activate m).contactors[k] =
      if (contactorRecord m k).inUse = true then w.contactors[k].enterUse else w.contactors[k] := by
  simp [Work.activate, liveAfter, h]

theorem Aux.enterUse_unusedLive (a : Aux) :
    a.unusedLive.enterUse = if a.shows = none then ⟨none, .failed, .disagree⟩ else ⟨a.shows, .idle, .noFailure⟩ := by
  unfold Aux.unusedLive Live.enterUse
  cases a.shows <;> rfl

/-! ### What start-up leaves of a station -/

theorem StationUnit.started_activePattern (m : Memory) (now : Nat) (x : Station) (choice : Option PatternNo)
    (u : StationUnit) : (u.started m now x choice).activePattern = choice := by
  cases choice <;> exact StationUnit.patterned_activePattern _ _ u

theorem StationUnit.started_rfPresent (m : Memory) (now : Nat) (x : Station) (choice : Option PatternNo)
    (u : StationUnit) : (u.started m now x choice).carrier.rfPresent = u.carrier.rfPresent := by
  cases choice <;> exact (StationUnit.patterned_alike _ _ u).rfPresent

theorem StationUnit.started_scanStay (m : Memory) (now : Nat) (x : Station) (choice : Option PatternNo)
    (u : StationUnit) : (u.started m now x choice).scanStay = u.scanStay := by
  cases choice <;> exact StationUnit.patterned_scanStay _ _ u

theorem StationUnit.started_none_state (m : Memory) (now : Nat) (x : Station) (u : StationUnit) :
    (u.started m now x none).carrier.state = u.carrier.state := (StationUnit.patterned_alike _ _ u).state

theorem StationUnit.started_some (m : Memory) (now : Nat) (x : Station) (q : PatternNo) (u : StationUnit) :
    (u.started m now x (some q)).carrier.state = .raising ∧
      (u.started m now x (some q)).carrier.level = u.carrier.level ∧
      (u.started m now x (some q)).carrier.ramp = some ⟨(pattern m x q).power, .full, q⟩ ∧
      (u.started m now x (some q)).carrier.verifyRequired = true :=
  ⟨rfl, (StationUnit.patterned_alike _ _ u).level, rfl,
    (StationUnit.patterned_verifyRequired _ (some q) u).trans (Bool.or_true _)⟩

theorem StationUnit.startNotices_some (m : Memory) (now : Nat) (x : Station) (q : PatternNo) (u : StationUnit) :
    u.startNotices m now x (some q) =
      [.carrierState .raising 0 (some q) (some ⟨(pattern m x q).power, .full, q⟩) u.carrier.muteConfirmed
        (u.carrier.rfPresent == some true)] := by
  unfold StationUnit.startNotices StationUnit.raiseNotices
  rw [(StationUnit.patterned_alike _ _ u).muteConfirmed, (StationUnit.patterned_alike _ _ u).rfPresent]

/-- Of notices to both stations and then to each of them, a station is sent the common one and its own. -/
theorem posts_of_station (n : Notice) (a b : List Notice) (x : Station) :
    (([(Station.A, n), (Station.B, n)] ++ (a.map fun n => (Station.A, n)) ++ b.map fun n => (Station.B, n)).filter
      fun p => p.1 = x).map (fun p => p.2) = n :: (Pair.mk a b).get x := by
  cases x <;> simp [List.filter_map, Function.comp_def]

/-! ### The part in service -/

theorem Work.chosen_get (m : Memory) (w : Work) (x : Station) :
    (w.chosen m).get x = (w.activate m).resolved x (w.lastRecord.preferred x) := by cases x <;> rfl

theorem Work.configured_get (kind : ResetKind) (m : Memory) (w : Work) (x : Station) :
    (w.configured kind m).stations.get x = (w.stations.get x).started m w.elapsed x ((w.chosen m).get x) := by
  cases x <;> rfl

theorem Work.configured_active (kind : ResetKind) (m : Memory) (w : Work) (x : Station) :
    (w.configured kind m).active x = (w.chosen m).get x := by
  rw [Plant.active, Work.configured_get, StationUnit.started_activePattern]

/-- The contactors in use whose contacts show no single position are FAILED, the others stand where they show (R7, R53). -/
theorem Work.configured_live {kind : ResetKind} {m : Memory} {w : Work} (h : w.image = none) (k : ContactorNo) :
    (w.readRecords.configured kind m).contactors[k] =
      if (contactorRecord m k).inUse = true ∧ w.aux[k].settled.shows = none then ⟨none, .failed, .disagree⟩
      else ⟨w.aux[k].settled.shows, .idle, .noFailure⟩ := by
  change (w.readRecords.activate m).contactors[k] = _
  rw [Work.activate_live (w := w.readRecords) h, Work.readRecords_live, Aux.enterUse_unusedLive]
  by_cases hu : (contactorRecord m k).inUse = true
  · simp only [hu, if_true, true_and]
  · rw [if_neg hu, if_neg fun h => hu h.1]
    rfl

/-- The notices a station's link is sent: STARTED, and then what its raise posts. -/
theorem State.configured_notices {kind : ResetKind} {m : Memory} {w : Work} {s : State} {x : Station}
    (h : (s.ports.get x).notices = []) :
    ((s.finish (w.configured kind m)).ports.get x).notices =
      .started kind w.lastRecord.interrupted true (w.chosen m).a (w.chosen m).b ::
        (w.stations.get x).startNotices m w.elapsed x ((w.chosen m).get x) := by
  have short (x : Station) (c : Option PatternNo) (u : StationUnit) : (u.startNotices m w.elapsed x c).length ≤ 1 := by
    cases c <;> simp [StationUnit.startNotices, StationUnit.raiseNotices]
  have posted := posts_of_station (.started kind w.lastRecord.interrupted true (w.chosen m).a (w.chosen m).b)
    (w.stations.a.startNotices m w.elapsed .A (w.chosen m).a) (w.stations.b.startNotices m w.elapsed .B (w.chosen m).b) x
  have own : (Pair.mk (w.stations.a.startNotices m w.elapsed .A (w.chosen m).a)
      (w.stations.b.startNotices m w.elapsed .B (w.chosen m).b)).get x =
      (w.stations.get x).startNotices m w.elapsed x ((w.chosen m).get x) := by cases x <;> rfl
  rw [own] at posted
  rw [State.finish_eq, State.deliver_notices]
  · change (s.ports.get x).notices ++ _ = _
    rw [h]
    exact posted
  · have := congrArg List.length posted
    rw [List.length_map, List.length_cons] at this
    change (s.ports.get x).notices.length + _ ≤ 16
    rw [h]
    have := short x ((w.chosen m).get x) (w.stations.get x)
    simp only [Work.configured, List.length_nil]
    omega

/-- Settles O23: the work of start-up is known as one record, and each claim is read off it. -/
theorem startUpConfigured : Obligations.StartUpConfigured := by
  intro kind due m s hp ht hout hactive hlevel hheld hnotices hsound hrecord hff now interrupted prefers
  let w : Work := (s.work.reach due).readRecords
  have station (x : Station) : w.stations.get x = { s.stations.get x with carrier := (s.carrier x).settleRf } :=
    Work.readRecords_get _ x
  have carrier (x : Station) : w.carrier x = (s.carrier x).settleRf := by
    rw [Plant.carrier, station]
  have preferred (x : Station) : (w.chosen m).get x = (w.activate m).resolved x (prefers x).toList := by
    have : w.lastRecord.preferred x = (prefers x).toList := by
      change s.lastRecord.preferred x = _
      simp only [prefers]
      cases s.lastRecord <;> cases x <;> rfl
    rw [Work.chosen_get, this]
  have told : w.lastRecord.interrupted = interrupted := by
    change s.lastRecord.interrupted = _
    simp only [interrupted]
    cases s.lastRecord <;> rfl
  have image : w.imageRecord = ⟨.valid, m⟩ := hrecord
  have run : Work.startUp kind (s.work.reach due) = w.configured kind m := by
    have sound : w.imageRecord.sound = true := by simp [image, ImageRecord.sound, hff]
    change Work.evaluate false
      (if w.imageRecord.sound = true then w.startConfigured kind w.imageRecord.bytes else _) = _
    rw [if_pos sound, image]
    dsimp only
    rw [Work.startConfigured_eq hff hout.writing hout.writeQueue (fun x => by rw [carrier]; exact hout.dark x)
      (fun x => by rw [carrier]; exact hlevel x) rfl]
    exact Work.evaluate_no_clock false hout.clock
  have he := exec_startUp_eq hp ht hheld run fun x => by
    rw [Work.configured_get, StationUnit.started_scanStay, station]
  have active := Work.configured_active kind m w
  refine ⟨_, he, ?_⟩
  rw [State.finish_toPlant]
  refine ⟨rfl, rfl, rfl, told, rfl, congrArg some (congrArg ImageRecord.bytes image), rfl, rfl, hout.transition,
    hout.clock, rfl, by rw [active .A, active .B]; rfl, fun k => ?_, fun x => ?_⟩
  · have shown : (w.configured kind m).aux[k] = s.aux[k].settled := Work.readRecords_aux _ k
    rw [shown]
    exact ⟨rfl, Work.configured_live hout.image k⟩
  · intro candidate rf
    have candidate_iff (q : PatternNo) : candidate q ↔ (w.activate m).candidate x q = true := by
      simp only [Plant.candidate, Bool.and_eq_true]
      exact Iff.rfl
    have resolved : (w.configured kind m).active x = (w.activate m).resolved x (prefers x).toList :=
      (active x).trans (preferred x)
    have carried (q : Option PatternNo) (hq : (w.configured kind m).active x = q) :
        (w.configured kind m).carrier x = ((w.stations.get x).started m w.elapsed x q).carrier := by
      rw [Plant.carrier, Work.configured_get, ← active x, hq]
    have rfNow : (w.stations.get x).carrier.rfPresent = some rf := by rw [station]; rfl
    have notices (q : Option PatternNo) (hq : (w.configured kind m).active x = q) :
        ((s.finish (w.configured kind m)).ports.get x).notices =
          .started kind interrupted true ((w.configured kind m).active .A) ((w.configured kind m).active .B) ::
            (w.stations.get x).startNotices m w.elapsed x q := by
      rw [State.configured_notices (hnotices x), told, ← hq, active x, active .A, active .B]
      rfl
    refine ⟨by cases x <;> rfl, by cases x <;> rfl, ?_, fun q hq => ⟨?_, ?_, ?_⟩, ?_, fun hq => ?_, fun q hq => ?_⟩
    · rw [resolved, Plant.resolved_eq_none]
      exact forall_congr' fun q => by rw [candidate_iff, Bool.not_eq_true]
    · exact (candidate_iff q).2 (Plant.candidate_of_resolved (resolved ▸ hq))
    · rintro ⟨p, hp, hc⟩
      rw [resolved, hp, Option.toList_some, Plant.resolved_preferred ((candidate_iff p).1 hc)] at hq
      rw [hp, hq]
    · intro hn p hc
      have none_preferred : (w.activate m).resolved x (prefers x).toList = (w.activate m).resolved x [] := by
        cases hp : prefers x with
        | none => rfl
        | some r =>
          refine Plant.resolved_passed ?_
          simpa only [candidate_iff, Bool.not_eq_true] using hn r hp
      rw [resolved, none_preferred] at hq
      exact Plant.resolved_lowest hq ((candidate_iff p).1 hc)
    · rw [carried _ rfl, StationUnit.started_rfPresent, rfNow]
    · have dark : ((w.configured kind m).carrier x).state = .dark := by
        rw [carried _ hq, StationUnit.started_none_state, station]
        exact hout.dark x
      exact ⟨dark, by rw [Carrier.rfInhibit, dark]; rfl, notices _ hq⟩
    · obtain ⟨state, level, ramp, required⟩ := StationUnit.started_some m w.elapsed x q (w.stations.get x)
      have unmuted : (w.stations.get x).carrier.muteConfirmed = false := by
        rw [station, Bool.eq_false_iff]
        intro hm
        have := ((hsound x).mute_held hm).1
        rw [hout.dark x] at this
        cases this
      have zero : (w.stations.get x).carrier.level = 0 := by rw [station]; exact hlevel x
      rw [carried _ hq, state, level, ramp, required, notices _ hq, StationUnit.startNotices_some, unmuted, rfNow, zero]
      refine ⟨rfl, ?_, rfl, rfl, rfl, by cases rf <;> rfl⟩
      rw [Carrier.rfInhibit, state]
      rfl

end Machine
end Sys2Proof

/-! PROOFS. PLAN of a request that has contactors to move (R27 to R30): the move list, the sets and the record, and the request
that starts at once. -/
namespace Sys2Proof
namespace Machine

/-! ### The move list (R4, R27 step 2) -/

/-- The move-list entry of a contactor, if the target's map constrains it elsewhere than its recorded position. -/
theorem Plant.mem_moveList {p : Plant} {x : Station} {q : PatternNo} {e : MoveEntry} :
    e ∈ p.moveList x q ↔ mapEntry p.activeImage x q e.contactor = some e.toPos ∧
      e.fromPos = p.contactors[e.contactor].position ∧ e.fromPos ≠ some e.toPos ∧ e.outcome = .waiting := by
  unfold Plant.moveList
  rw [List.mem_insertionSort, List.mem_filterMap]
  constructor
  · rintro ⟨k, -, hk⟩
    split at hk
    · cases hk
    · next side hm =>
      split at hk
      · cases hk
      · next hp =>
        cases hk
        exact ⟨hm, rfl, hp, rfl⟩
  · rintro ⟨hm, hf, hn, ho⟩
    refine ⟨e.contactor, List.mem_finRange _, ?_⟩
    simp only [hm, ← hf, if_neg hn, ← ho]

/-- One entry for each contactor (R26). -/
theorem Plant.moveList_contactors_ne (p : Plant) (x : Station) (q : PatternNo) :
    (p.moveList x q).Pairwise fun d e => d.contactor ≠ e.contactor := by
  have nodup : (p.moveList x q).Nodup := by
    unfold Plant.moveList
    refine (List.perm_insertionSort _ _).nodup_iff.2 ((List.nodup_finRange 16).filterMap fun j k e hj hk => ?_)
    have of_contactor (k : ContactorNo) (side : Side) (h : (if p.contactors[k].position = some side then none
        else some (⟨k, p.contactors[k].position, side, .waiting⟩ : MoveEntry)) = some e) : e.contactor = k := by
      split at h
      · cases h
      · cases h
        rfl
    split at hj
    · cases hj
    · split at hk
      · cases hk
      · exact (of_contactor j _ hj).symm.trans (of_contactor k _ hk)
  refine nodup.imp_of_mem fun {d e} hd he hne hk => hne ?_
  obtain ⟨hmd, hfd, -, hod⟩ := Plant.mem_moveList.1 hd
  obtain ⟨hme, hfe, -, hoe⟩ := Plant.mem_moveList.1 he
  obtain ⟨kd, fd, td, od⟩ := d
  obtain ⟨ke, fe, te, oe⟩ := e
  dsimp only at *
  subst hk
  rw [hfd, hfe, hod, hoe, Option.some.inj (hmd.symm.trans hme)]

theorem movesBefore_iff {m : Memory} {j k : ContactorNo} :
    movesBefore m j k = true ↔ (contactorRecord m j).rank < (contactorRecord m k).rank ∨
      ((contactorRecord m j).rank = (contactorRecord m k).rank ∧ j.val ≤ k.val) := by
  simp only [movesBefore, Bool.or_eq_true, Bool.and_eq_true, decide_eq_true_eq, beq_iff_eq]

/-- The list is in move order: by rank, and then by number (R4). -/
theorem Plant.moveList_ordered (p : Plant) (x : Station) (q : PatternNo) :
    (p.moveList x q).Pairwise fun d e =>
      (contactorRecord p.activeImage d.contactor).rank < (contactorRecord p.activeImage e.contactor).rank ∨
      ((contactorRecord p.activeImage d.contactor).rank = (contactorRecord p.activeImage e.contactor).rank ∧
        d.contactor < e.contactor) := by
  have total : Std.Total fun d e : MoveEntry => movesBefore p.activeImage d.contactor e.contactor = true :=
    ⟨fun d e => by rw [movesBefore_iff, movesBefore_iff]; omega⟩
  have trans : IsTrans MoveEntry fun d e => movesBefore p.activeImage d.contactor e.contactor = true :=
    ⟨fun d e f => by rw [movesBefore_iff, movesBefore_iff, movesBefore_iff]; omega⟩
  have sorted : (p.moveList x q).Pairwise fun d e => movesBefore p.activeImage d.contactor e.contactor = true :=
    List.pairwise_insertionSort _ _
  refine sorted.imp₂ (fun d e hb hn => ?_) (p.moveList_contactors_ne x q)
  rw [movesBefore_iff] at hb
  rcases hb with hlt | ⟨heq, hle⟩
  · exact .inl hlt
  · exact .inr ⟨heq, lt_of_le_of_ne hle hn⟩

/-- No contactor of the list is unfit to move when those the map constrains elsewhere are fit (R27 step 3). -/
theorem Plant.movesFailed_moveList {p : Plant} {x : Station} {q : PatternNo}
    (h : ∀ k, (∃ side, mapEntry p.activeImage x q k = some side ∧ p.contactors[k].position ≠ some side) →
      p.contactors[k].state ≠ .failed ∧ p.contactors[k].position ≠ none) : p.movesFailed (p.moveList x q) = false := by
  simp only [Plant.movesFailed, List.any_eq_false, Bool.or_eq_true, beq_iff_eq, Option.isNone_iff_eq_none, not_or]
  intro e he
  obtain ⟨hm, hf, hn, -⟩ := Plant.mem_moveList.1 he
  exact h e.contactor ⟨e.toPos, hm, hf ▸ hn⟩

theorem Plant.moveList_ne_nil {p : Plant} {x : Station} {q : PatternNo}
    (h : ∃ k side, mapEntry p.activeImage x q k = some side ∧ p.contactors[k].position ≠ some side) :
    p.moveList x q ≠ [] := by
  obtain ⟨k, side, hm, hp⟩ := h
  exact List.ne_nil_of_mem
    (Plant.mem_moveList (e := ⟨k, p.contactors[k].position, side, .waiting⟩).2 ⟨hm, rfl, hp, rfl⟩)

/-- The affected set: the stations some contactor of the list carries, less those in DARK (R29). -/
theorem Plant.affectedSet_get (p : Plant) (es : List MoveEntry) (y : Station) :
    (p.affectedSet es).get y =
      (es.any (fun e => carries p.activeImage e.contactor y) && decide ((p.carrier y).state ≠ .dark)) := by
  cases y <;> simp [Plant.affectedSet, carriedBy, List.any_map, Function.comp_def, Bool.beq_eq_decide_eq, bne]

/-! ### A request that starts at once (R22 to R27) -/

/-- The transition record PLAN makes of a request with contactors to move (R26, R27, R29). -/
def Plant.planned (p : Plant) (x : Station) (q : PatternNo) : Transition :=
  { p.newTransition ⟨p.tagToGive, x, q, .manual⟩ with
    moves := p.moveList x q
    affected := p.affectedSet (p.moveList x q)
    entries := p.stationEntries x (p.affectedSet (p.moveList x q)) }

/-- What the acceptance of a MANUAL request changes besides the pending list: the tag counter and the override (R23, R142). -/
def Work.accepted (x : Station) (w : Work) : Work :=
  { w with tagCounter := nextTag w.tagToGive, override := w.override.set x (.set (w.recordNow x)) }

section
variable {x : Station} {q : PatternNo} {w : Work}

/-- A request for an in-use pattern that is not on its way is accepted (R22). -/
theorem Work.checkRequest_accepted (idle : w.transition = none) (hi : w.image ≠ none) (hu : (pattern w.activeImage x q).inUse = true)
    (ha : ¬(w.active x = some q ∧ (w.carrier x).onItsWay = true)) :
    w.checkRequest x (q.val + 1) .manual = (w.acceptRequest x q .manual, .accepted, some w.tagToGive) := by
  have named : w.targetPattern? x (q.val + 1) = some q := by
    have number : patternOfNumber? (q.val + 1) = some q := by
      unfold patternOfNumber?
      rw [dif_pos (by omega)]
      rfl
    simp [Plant.targetPattern?, number, hu]
  have free : w.owns x = false := by simp [Plant.owns, idle]
  unfold Work.checkRequest
  rw [if_neg (by simpa using hi), named]
  simp only [free, Bool.false_eq_true, if_false]
  rw [if_neg ha]

/-- An accepted request is the only entry of a pending list that was empty (R24). -/
theorem Work.acceptRequest_eq (empty : w.pendingList = []) :
    w.acceptRequest x q .manual = { w.accepted x with pendingList := [⟨w.tagToGive, x, q, .manual⟩] } := by
  unfold Work.acceptRequest Work.enterPending
  simp only [if_true, empty, List.nil_append]
  rfl

/-- PLAN comes to the decision of consent when the target is not on its way, every contactor of the list is fit to move,
nothing conflicts and the list is not empty (R27). -/
theorem Work.plan_decides {t u : Transition} {es : List MoveEntry}
    (ha : ¬(w.active t.station = some t.target ∧ (w.carrier t.station).onItsWay = true))
    (hes : es = w.moveList t.station t.target) (hf : w.movesFailed es = false)
    (hc : w.conflicts t.station t.target = false) (hn : es ≠ [])
    (hu : u = { t with
      moves := es
      affected := w.affectedSet es
      entries := w.stationEntries t.station (w.affectedSet es) }) :
    w.plan t = Work.decideConsent u { w with transition := some u } := by
  subst hes hu
  unfold Work.plan
  rw [if_neg ha]
  refine (if_neg ?fit).trans ((if_neg ?alone).trans ((if_neg hn).trans rfl))
  case fit => exact Bool.eq_false_iff.1 hf
  case alone => exact Bool.eq_false_iff.1 hc

/-- With contactors to move, fit to move and no conflict, an accepted request comes to the decision of consent (R25, R27). -/
theorem Work.submit_planned (idle : w.transition = none) (empty : w.pendingList = []) (hi : w.image ≠ none) (hu : (pattern w.activeImage x q).inUse = true)
    (hw : w.imageWritePending = false) (ha : ¬(w.active x = some q ∧ (w.carrier x).onItsWay = true))
    (hc : w.conflicts x q = false) (hf : w.movesFailed (w.moveList x q) = false) (hn : w.moveList x q ≠ []) :
    w.submit x (q.val + 1) .manual =
      (Work.decideConsent (w.planned x q) { w.accepted x with transition := some (w.planned x q) }, .accepted,
        some w.tagToGive) := by
  have start : Plant.canStart { (w.accepted x).toPlant with pendingList := [⟨w.tagToGive, x, q, .manual⟩] } = true := by
    have : w.canStart = true := by simp [Plant.canStart, idle, hw]
    exact this
  have rest (t : Transition) : ({ w.accepted x with pendingList := [], transition := some t } : Work) =
      { w.accepted x with transition := some t } := by
    simp [Work.accepted, empty]
  unfold Work.submit
  rw [Work.checkRequest_accepted idle hi hu ha, Work.acceptRequest_eq empty]
  unfold Work.examinePending
  simp only [List.length_singleton, Work.examineFor, start, if_true, rest]
  refine Prod.ext ?_ rfl
  exact Work.plan_decides (t := w.newTransition ⟨w.tagToGive, x, q, .manual⟩) ha rfl hf hc hn rfl

end

end Machine
end Sys2Proof

/-! PROOFS. Consent decided and QUIESCE entered (R29, R30, R35, R36): what is asked, which stations are lowered, and the first
move when none is affected (R38, R56, R57). -/
namespace Sys2Proof
namespace Machine

/-! ### Consent (R29, R30) -/

/-- The transition as TRANSITION_STARTED announces it (R29). -/
def Transition.startNotice (t : Transition) : Notice :=
  .transitionStarted t.tag t.station t.target t.source t.moves.length

theorem Work.announceStart_eq (t : Transition) (w : Work) :
    w.announceStart t = { w with posts := w.posts ++ t.informed.map fun y => (y, t.startNotice) } :=
  Work.postAll_eq _ _ w

/-- An affected peer that wants to be asked is asked, and its answer awaited (R30). -/
theorem Work.decideConsent_ask {t : Transition} {w : Work} (ht : w.transition = some t)
    (ha : t.affected.get t.station.peer = true) (hp : w.consentPolicy.get t.station.peer = some .ask) :
    w.decideConsent t = { w with
      posts := w.posts ++ [(t.station, t.startNotice), (t.station.peer, t.startNotice), (t.station.peer,
        .consentQuery t.tag t.station (sharedCount w.activeImage t.moves) (estimatedHold w.activeImage t.moves))]
      transition := some { t with phase := .consentWait, consent := .asked }
      consentTimer := some (w.elapsed + Config.seconds (settings w.activeImage t.station.peer).consentWait) } := by
  have told : t.informed = [t.station, t.station.peer] := by simp [Transition.informed, ha]
  unfold Work.decideConsent
  rw [if_pos ha, hp]
  simp only [Work.announceStart_eq, told]
  unfold Work.askConsent Work.onTransition Work.post
  simp only [ht, List.map_cons, List.map_nil, List.append_assoc, List.cons_append, List.nil_append, Option.map_some]

/-- No consent is needed of a peer that is not affected or consents of itself (R29). -/
theorem Work.decideConsent_quiesce {t : Transition} {w : Work}
    (h : t.affected.get t.station.peer = false ∨ w.consentPolicy.get t.station.peer = some .auto) :
    w.decideConsent t = (w.announceStart t).enterQuiesce := by
  unfold Work.decideConsent
  split
  · next ha =>
    rw [h.resolve_left (by simp [ha])]
  · rfl

/-! ### QUIESCE entered (R35, R36) -/

/-- The return level recorded at QUIESCE entry, by state and purpose (R35). -/
theorem Carrier.returnLevel_eq (r : Carrier) :
    r.returnLevel =
      if r.state = .reduced ∨ ((r.state = .lowering ∨ r.state = .raising) ∧
          (r.ramp.map (fun ramp => ramp.purpose) = some .reduce ∨ r.ramp.map (fun ramp => ramp.purpose) = some .fault))
        then .fault else .full := by
  unfold Carrier.returnLevel
  cases hs : r.state <;> cases hr : r.ramp <;> simp

/-- The record in QUIESCE, with the return levels of the affected stations (R35). -/
def Plant.quiescing (p : Plant) (t : Transition) : Transition :=
  { t with phase := .quiesce, entries := p.withReturnLevels t }

/-- The stations of the affected set lowered to hold (R35, R78). -/
def Work.lowered (t : Transition) (w : Work) : Work :=
  t.affectedList.foldl (fun w x => w.onStation x StationWork.lowerToHold) w

theorem Work.enterQuiesce_eq {t : Transition} {w : Work} (ht : w.transition = some t) :
    w.enterQuiesce = (Work.lowered t { w with transition := some (w.quiescing t) }).quiesceCheck := by
  have entered : w.onTransition (fun u => { u with phase := .quiesce, entries := w.withReturnLevels u }) =
      { w with transition := some (w.quiescing t) } := by
    unfold Work.onTransition
    rw [ht]
    rfl
  unfold Work.enterQuiesce
  simp only [ht, entered]
  rfl

theorem StationSet.mem_members {p : StationSet} {y : Station} : y ∈ p.members ↔ p.get y = true := by
  obtain ⟨a, b⟩ := p
  cases a <;> cases b <;> cases y <;> decide

/-- Lowering changes stations' records and posts notices to the affected stations, and nothing more. -/
theorem Work.lowered_frame (t : Transition) (w : Work) :
    ∃ stations l, w.lowered t = { w with stations := stations, posts := w.posts ++ l } ∧
      ∀ p ∈ l, t.affected.get p.1 = true := by
  have fold (xs : List Station) (w : Work) :
      ∃ stations l, xs.foldl (fun w x => w.onStation x StationWork.lowerToHold) w =
        { w with stations := stations, posts := w.posts ++ l } ∧ ∀ p ∈ l, p.1 ∈ xs := by
    induction xs generalizing w with
    | nil => exact ⟨w.stations, [], by simp, by simp⟩
    | cons x xs ih =>
      obtain ⟨stations, l, hl, hm⟩ := ih (w.onStation x StationWork.lowerToHold)
      refine ⟨stations, ((StationWork.lowerToHold (w.toPlant.ctx x)
        { toStationUnit := w.stations.get x, out := [] }).out.map fun n => (x, n)) ++ l, hl.trans ?_, ?_⟩
      · simp only [← List.append_assoc]
        rfl
      · intro p hp
        rcases List.mem_append.1 hp with h | h
        · obtain ⟨n, -, rfl⟩ := List.mem_map.1 h
          exact List.mem_cons_self
        · exact List.mem_cons_of_mem x (hm p h)
  obtain ⟨stations, l, hl, hm⟩ := fold t.affectedList w
  exact ⟨stations, l, hl, fun p hp => StationSet.mem_members.1 (hm p hp)⟩

/-- Each affected station is lowered by its own command, and no other is touched. -/
theorem Work.lowered_get (t : Transition) (w : Work) (y : Station) :
    (w.lowered t).stations.get y =
      if t.affected.get y = true then
        (StationWork.lowerToHold (w.toPlant.ctx y) { toStationUnit := w.stations.get y, out := [] }).toStationUnit
      else w.stations.get y := by
  unfold Work.lowered Transition.affectedList
  obtain ⟨a, b⟩ := t.affected
  cases a <;> cases b <;> cases y <;> rfl

/-- Lowering to hold leaves the pattern (R78). -/
theorem StationWork.lowerToHold_activePattern (c : Ctx) (w : StationWork) :
    (w.lowerToHold c).activePattern = w.activePattern := by
  unfold StationWork.lowerToHold
  split
  · rfl
  · split
    · rfl
    · exact (StationWork.rampTo_lights _ c w).1

/-- A station on the air above level 0 is LOWERING to 0 with purpose HOLD, on the ramp it had if that was one (R78). -/
theorem StationWork.lowerToHold_on_air {c : Ctx} {w : StationWork} (hr : w.carrier.rfInhibit = false)
    (hl : 0 < w.carrier.level) :
    (w.lowerToHold c).carrier.state = .lowering ∧ (w.lowerToHold c).carrier.level = w.carrier.level ∧
      (w.lowerToHold c).carrier.ramp =
        if w.carrier.state = .lowering ∧ w.carrier.ramp.map (fun r => r.purpose) = some .hold then w.carrier.ramp
        else some ⟨0, .hold, w.activePattern.getD 0⟩ := by
  have lit : ¬(w.carrier.state = .held ∨ w.carrier.state = .dark) := by
    rintro (h | h) <;> simp [Carrier.rfInhibit, h, CarrierState.inhibited] at hr
  unfold StationWork.lowerToHold
  rw [if_neg lit]
  split
  · next h => exact ⟨h.1, rfl, rfl⟩
  · have down (p : PatternNo) : (⟨0, .hold, p⟩ : Ramp).direction w.carrier.level = .lowering := if_pos hl
    rw [StationWork.rampTo_begins (by dsimp only; omega)]
    exact ⟨down _, Carrier.leave_level _, rfl⟩

/-- QUIESCE goes on while some affected station is not quiet (R36). -/
theorem Work.quiesceCheck_waits {w : Work} {t : Transition} {y : Station} (ht : w.transition = some t)
    (hy : t.affected.get y = true) (hq : (w.carrier y).quiet = false) : w.quiesceCheck = w := by
  have noisy : ¬(t.phase = .quiesce ∧ w.quiesced t = true) := by
    rintro ⟨-, hall⟩
    have := List.all_eq_true.1 hall y (StationSet.mem_members.2 hy)
    rw [hq] at this
    cases this
  unfold Work.quiesceCheck
  simp only [ht, if_neg noisy]

/-! ### The first move (R38, R56, R57) -/

/-- The interlock law, by its conditions (R57). -/
theorem Plant.checkPasses_of {p : Plant} {k : ContactorNo} (hf : p.contactors[k].state ≠ .failed)
    (h : ∀ y, carries p.activeImage k y = true → (p.carrier y).rfInhibit = true ∧ (p.carrier y).rfPresent = some false) :
    p.checkPasses k = true := by
  simp only [Plant.checkPasses, Bool.and_eq_true, bne_iff_ne, List.all_eq_true, beq_iff_eq]
  exact ⟨hf, fun y hy => h y (StationSet.mem_members.1 hy)⟩

/-- A move commanded under the interlock law begins its first pulse (R55 to R58). -/
theorem Work.commandMove_begins {w : Work} {k : ContactorNo} {toPos : Side} (h : w.checkPasses k = true) :
    w.commandMove k toPos = { w with
      driver := some ⟨k, w.contactors[k].position, toPos, 1, .pulsing, false,
        w.elapsed + Config.ms (contactorRecord w.activeImage k).pulse⟩
      contactors := w.contactors.set k { w.contactors[k] with state := .pulsing } } := by
  have passes : w.checkPasses (w.newMove k toPos).contactor = true := h
  unfold Work.commandMove Work.attempt
  rw [if_pos passes]
  rfl

/-- SWITCH entered with no station affected: the last-state record with the marker, and the first move (R36, R38). -/
theorem Work.enterSwitch_begins {t : Transition} {w : Work} {e : MoveEntry} {rest : List MoveEntry}
    (ht : w.transition = some t) (ha : t.affectedList = []) (hm : t.moves = e :: rest) (he : e.outcome = .waiting)
    (hc : w.checkPasses e.contactor = true) :
    w.enterSwitch t = { w with
      transition := some { t with phase := .switch }
      driver := some ⟨e.contactor, w.contactors[e.contactor].position, e.toPos, 1, .pulsing, false,
        w.elapsed + Config.ms (contactorRecord w.activeImage e.contactor).pulse⟩
      contactors := w.contactors.set e.contactor { w.contactors[e.contactor] with state := .pulsing }
      writing := (w.handLastState true).writing
      writeQueue := (w.handLastState true).writeQueue
      imageRecord := (w.handLastState true).imageRecord
      lastRecord := (w.handLastState true).lastRecord } := by
  have entered : w.onTransition (fun t => { t with phase := .switch }) =
      { w with transition := some { t with phase := .switch } } := by
    unfold Work.onTransition
    rw [ht]
    rfl
  obtain ⟨u, hu⟩ : ∃ u : Work, u = { w with transition := some { t with phase := .switch } } := ⟨_, rfl⟩
  obtain ⟨h1, h2, h3, h4⟩ := Work.handLastState_congr true u w (by rw [hu]) (by rw [hu]) (by rw [hu]) (by rw [hu])
    (by rw [hu]) fun x => by rw [hu]; rfl
  have handed := Work.handLastState_eq true u
  rw [h1, h2, h3, h4] at handed
  have switching : (u.handLastState true).transition = some { t with phase := .switch } := by rw [handed, hu]
  have passes : (u.handLastState true).checkPasses e.contactor = true := by rw [handed, hu]; exact hc
  have first : t.moves.find? (fun e => e.outcome == .waiting) = some e := by rw [hm, List.find?_cons, he, BEq.rfl]
  unfold Work.enterSwitch
  rw [ha, List.foldl_nil]
  dsimp only
  rw [entered, ← hu]
  unfold Work.nextMove
  simp only [switching, first]
  rw [Work.commandMove_begins passes, handed, hu]
  rfl

/-- With no station affected the return levels stay as they are (R35). -/
theorem Plant.withReturnLevels_unaffected {p : Plant} {t : Transition} (ha : ∀ y, t.affected.get y = false) :
    p.withReturnLevels t = t.entries := by
  refine Pair.ext_get fun y => ?_
  have := ha y
  cases y <;> simp_all [Plant.withReturnLevels]

theorem Transition.affectedList_eq_nil {t : Transition} (ha : ∀ y, t.affected.get y = false) : t.affectedList = [] :=
  List.eq_nil_iff_forall_not_mem.2 fun y hy => by
    have := StationSet.mem_members.1 hy
    rw [ha y] at this
    cases this

/-- With no station affected QUIESCE ends where it is entered, and SWITCH begins (R36). -/
theorem Work.enterQuiesce_switches {t : Transition} {w : Work} (ht : w.transition = some t)
    (ha : ∀ y, t.affected.get y = false) :
    w.enterQuiesce =
      Work.enterSwitch { t with phase := .quiesce } { w with transition := some { t with phase := .quiesce } } := by
  have none_affected := Transition.affectedList_eq_nil ha
  have record : w.quiescing t = { t with phase := .quiesce } := by
    unfold Plant.quiescing
    rw [Plant.withReturnLevels_unaffected ha]
  rw [Work.enterQuiesce_eq ht, record]
  unfold Work.lowered
  rw [none_affected, List.foldl_nil]
  unfold Work.quiesceCheck
  refine if_pos ⟨rfl, ?_⟩
  have : ({ t with phase := .quiesce } : Transition).affectedList = [] := none_affected
  unfold Plant.quiesced
  rw [this]
  rfl

end Machine
end Sys2Proof

/-! PROOFS. A PATTERN REQUEST with contactors to move (R25 to R38): what an answered request leaves of the ports, and the next
state in CONSENT_WAIT, in QUIESCE and in SWITCH. -/
namespace Sys2Proof
namespace Machine

/-! ### The ports after an event (R161, R167) -/

theorem Work.settleScan_posts (before : Plant) (w : Work) : (w.settleScan before).posts = w.posts := by
  unfold Work.settleScan Work.recomputeScan
  split
  · dsimp only
    split <;> rfl
  · rfl

/-- The oldest notice of a queue is the one that stood first, or else the first posted: a queue with no room is not empty. -/
theorem State.deliver_head (posts : List (Station × Notice)) (s : State) (y : Station) :
    ((State.deliver posts s).ports.get y).notices.head? =
      ((s.ports.get y).notices ++ (posts.filter fun p => p.1 = y).map fun p => p.2).head? := by
  induction posts generalizing s with
  | nil => simp
  | cons q posts ih =>
    change ((State.deliver posts (s.onPort q.1 (Port.post q.2))).ports.get y).notices.head? = _
    rw [ih, State.onPort_ports]
    by_cases hq : q.1 = y
    · subst hq
      rw [Pair.get_set_self, List.filter_cons_of_pos (by simp), List.map_cons]
      unfold Port.post
      split
      · simp
      · next full =>
        have : (s.ports.get q.1).notices ≠ [] := by
          intro he
          rw [he] at full
          exact full (by decide)
        simp [List.head?_append_of_ne_nil _ this]
    · rw [Pair.get_set_of_ne _ _ (Ne.symm hq), List.filter_cons_of_neg (by simpa using hq)]

section
variable {x y : Station} {r : Request} {s : State} {w : Work} {reply : Reply} (h : s.Ready x)
  (ha : act x (s.ports.get x).dropped r s.work = (w, reply))
include h ha

/-- On a ready link a request closes its frame, its event takes the block's work, and the slot takes the reply. -/
theorem State.receiveRequest_finish :
    s.receiveRequest x r =
      ((s.onPort x Port.frameClosed).finish (w.settleScan s.toPlant)).placeReply x (reply.body r.kind) := by
  have dropped : ((s.onPort x Port.frameClosed).ports.get x).dropped = (s.ports.get x).dropped := by simp
  have work : (s.onPort x Port.frameClosed).work = s.work := rfl
  rw [State.receiveRequest_ready x r s h, State.answer]
  simp only [dropped, work, State.event, ha]
  rfl

/-- What a request's work leaves outside the scan stands after the request, in any one field. -/
theorem State.receiveRequest_field {α : Type} (g : Plant → α)
    (hg : ∀ (p : Plant) list m e, g { p with scanList := list, measurement := m, lastEntry := e } = g p) :
    g (s.receiveRequest x r).toPlant = g w.toPlant := by
  rw [State.receiveRequest_finish h ha, State.placeReply, State.onPort_toPlant, State.finish_toPlant]
  exact Work.settleScan_field g hg w _

theorem State.receiveRequest_reply : ((s.receiveRequest x r).ports.get x).reply = some (reply.body r.kind) := by
  rw [State.receiveRequest_finish h ha, State.placeReply, State.onPort_ports, Pair.get_set_self]

/-- The oldest notice of a queue after a request: the one that stood first, or else the first its work posted there. -/
theorem State.receiveRequest_head :
    ((s.receiveRequest x r).ports.get y).notices.head? =
      ((s.ports.get y).notices ++ (w.posts.filter fun p => p.1 = y).map fun p => p.2).head? := by
  have opened : ((s.onPort x Port.frameClosed).ports.get y).notices = (s.ports.get y).notices := by
    rw [State.onPort_ports]
    by_cases hy : y = x
    · rw [hy, Pair.get_set_self, Port.frameClosed_notices]
    · rw [Pair.get_set_of_ne _ _ hy]
  have delivered := State.deliver_head w.posts { s.onPort x Port.frameClosed with toPlant := (w.settleScan s.toPlant).toPlant } y
  rw [State.receiveRequest_finish h ha, State.placeReply, State.onPort_ports, State.finish_eq, Work.settleScan_posts, ← opened]
  by_cases hy : y = x
  · subst hy
    rw [Pair.get_set_self]
    exact delivered
  · rw [Pair.get_set_of_ne _ _ hy]
    exact delivered

/-- Another port to whose queue nothing is posted stays as it is. -/
theorem State.receiveRequest_other_port (hy : y ≠ x) (hp : ∀ p ∈ w.posts, p.1 ≠ y) :
    (s.receiveRequest x r).ports.get y = s.ports.get y := by
  rw [State.receiveRequest_finish h ha, State.placeReply, State.onPort_ports, Pair.get_set_of_ne _ _ hy, State.finish_eq,
    Work.settleScan_posts, State.deliver_ports_of_none _ _ _ hp]
  exact Pair.get_set_of_ne _ _ hy

end

/-! ### The stations' entries (R29, R35) -/

theorem Plant.stationEntries_get (p : Plant) (x : Station) (set : StationSet) (y : Station) :
    (p.stationEntries x set).get y = if set.get y = true ∨ y = x then some ⟨p.active y, none⟩ else none := by
  cases y <;> exact if_congr (by simp) rfl rfl

theorem Plant.withReturnLevels_get (p : Plant) (t : Transition) (y : Station) :
    (p.withReturnLevels t).get y = (t.entries.get y).map fun e =>
      if t.affected.get y = true then { e with returnLevel := some (p.carrier y).returnLevel } else e := by
  cases y <;> rfl

/-! ### QUIESCE with a station to lower (R35, R36, R78) -/

/-- With an affected station on the air above level 0, the transition waits in QUIESCE for the stations lowered. -/
theorem Work.decideConsent_lowers {t : Transition} {w : Work} {y : Station} (ht : w.transition = some t)
    (hc : t.affected.get t.station.peer = false ∨ w.consentPolicy.get t.station.peer = some .auto)
    (hy : t.affected.get y = true) (hr : (w.carrier y).rfInhibit = false) (hl : 0 < (w.carrier y).level) :
    w.decideConsent t = Work.lowered t { w with
      posts := w.posts ++ t.informed.map fun y => (y, t.startNotice)
      transition := some (w.quiescing t) } := by
  obtain ⟨v, hv⟩ : ∃ v : Work, v = { w with
      posts := w.posts ++ t.informed.map fun y => (y, t.startNotice)
      transition := some (w.quiescing t) } := ⟨_, rfl⟩
  have lowering : ((v.lowered t).carrier y).state = .lowering := by
    rw [Plant.carrier, Work.lowered_get, if_pos hy, hv]
    exact (StationWork.lowerToHold_on_air hr hl).1
  have waiting : (v.lowered t).transition = some (w.quiescing t) := by
    obtain ⟨stations, l, hf, -⟩ := Work.lowered_frame t v
    rw [hf, hv]
  have noisy : ((v.lowered t).carrier y).quiet = false := by simp [Carrier.quiet, lowering]
  calc w.decideConsent t = (v.lowered t).quiesceCheck := by
        rw [Work.decideConsent_quiesce hc, Work.announceStart_eq, hv]
        exact Work.enterQuiesce_eq ht
    _ = Work.lowered t _ := by rw [Work.quiesceCheck_waits waiting hy noisy, hv]

/-! ### SWITCH with no station to lower (R36, R38, R56, R57) -/

/-- With no station affected and the interlock law met, the transition is in SWITCH with its first move begun. -/
theorem Work.decideConsent_switches {t : Transition} {w : Work} {e : MoveEntry} {rest : List MoveEntry}
    (ht : w.transition = some t) (ha : ∀ y, t.affected.get y = false) (hm : t.moves = e :: rest)
    (he : e.outcome = .waiting) (hc : w.checkPasses e.contactor = true) :
    w.decideConsent t = { w with
      posts := w.posts ++ [(t.station, t.startNotice)]
      transition := some { t with phase := .switch }
      driver := some ⟨e.contactor, w.contactors[e.contactor].position, e.toPos, 1, .pulsing, false,
        w.elapsed + Config.ms (contactorRecord w.activeImage e.contactor).pulse⟩
      contactors := w.contactors.set e.contactor { w.contactors[e.contactor] with state := .pulsing }
      writing := (w.handLastState true).writing
      writeQueue := (w.handLastState true).writeQueue
      imageRecord := (w.handLastState true).imageRecord
      lastRecord := (w.handLastState true).lastRecord } := by
  have told : t.informed = [t.station] := by simp [Transition.informed, ha]
  obtain ⟨u, hu⟩ : ∃ u : Work, u = { w with
      posts := w.posts ++ [(t.station, t.startNotice)]
      transition := some { t with phase := .quiesce } } := ⟨_, rfl⟩
  obtain ⟨h1, h2, h3, h4⟩ := Work.handLastState_congr true u w (by rw [hu]) (by rw [hu]) (by rw [hu]) (by rw [hu])
    (by rw [hu]) fun y => by rw [hu]; rfl
  have entered : w.decideConsent t = u.enterSwitch { t with phase := .quiesce } := by
    rw [Work.decideConsent_quiesce (.inl (ha _)), Work.announceStart_eq, told, hu]
    exact Work.enterQuiesce_switches ht ha
  rw [entered, Work.enterSwitch_begins (t := { t with phase := .quiesce }) (by rw [hu])
    (Transition.affectedList_eq_nil ha) hm he (by rw [hu]; exact hc), h1, h2, h3, h4, hu]
  rfl

end Machine
end Sys2Proof

/-! PROOFS. MovesArePlanned: the next state read off the decision of consent (R25 to R38). -/
namespace Sys2Proof
namespace Machine

section
variable {x y : Station} {q : PatternNo}

theorem Plant.planned_affected_get (p : Plant) :
    (p.planned x q).affected.get y =
      ((p.moveList x q).any (fun e => carries p.activeImage e.contactor y) && decide ((p.carrier y).state ≠ .dark)) :=
  Plant.affectedSet_get p _ y

theorem Plant.planned_entries_get (p : Plant) :
    (p.planned x q).entries.get y =
      if (p.planned x q).affected.get y = true ∨ y = x then some ⟨p.active y, none⟩ else none :=
  Plant.stationEntries_get p x _ y

/-- At QUIESCE entry the affected stations' entries take their return levels (R35). -/
theorem Plant.quiescing_entries_get {p : Plant} {w : Plant} (hw : ∀ y, w.carrier y = p.carrier y) :
    (w.quiescing (p.planned x q)).entries.get y =
      if (p.planned x q).affected.get y = true ∨ y = x then
        some ⟨p.active y, if (p.planned x q).affected.get y = true then some (p.carrier y).returnLevel else none⟩
      else none := by
  change (w.withReturnLevels (p.planned x q)).get y = _
  rw [Plant.withReturnLevels_get, Plant.planned_entries_get, hw]
  by_cases ha : (p.planned x q).affected.get y = true
  · simp [ha]
  · by_cases hx : y = x
    · subst hx
      simp [ha]
    · simp [ha, hx]

/-- A station told of the start hears of it before anything else posted (R29; log entry 21). -/
theorem posts_head {n : Notice} (told : List Station) (l : List (Station × Notice)) (hy : y ∈ told) :
    ((((told.map fun z => (z, n)) ++ l).filter fun p : Station × Notice => p.1 = y).map
      fun p : Station × Notice => p.2).head? = some n := by
  induction told with
  | nil => cases hy
  | cons z told ih =>
    by_cases hz : z = y
    · simp [hz]
    · have := ih ((List.mem_cons.1 hy).resolve_left (Ne.symm hz))
      simpa [hz] using this

/-- A PATTERN REQUEST with contactors to move runs to the decision of consent (R22 to R27). -/
theorem act_patternRequest_planned {target : Byte} {s : State} (number : target.toNat = q.val + 1)
    (image : s.image ≠ none) (inUse : (pattern s.activeImage x q).inUse = true) (idle : s.transition = none)
    (empty : s.pendingList = []) (noWrite : s.imageWritePending = false)
    (notOnWay : ¬(s.active x = some q ∧ (s.carrier x).onItsWay = true)) (noConflict : s.conflicts x q = false)
    (fit : s.movesFailed (s.moveList x q) = false) (moving : s.moveList x q ≠ []) (dropped : Nat) :
    act x dropped (.patternRequest target) s.work =
      (Work.decideConsent (s.planned x q) { s.work.accepted x with transition := some (s.planned x q) },
        ⟨.accepted, [byteOf s.tagToGive]⟩) := by
  have submitted := Work.submit_planned (w := s.work) idle empty image inUse noWrite notOnWay noConflict fit moving
  simp only [act, actPatternRequest, number, submitted]
  rfl

end

/-- Settles O14: PLAN makes the one record `Plant.planned`, and the decision of consent leaves it waiting for the peer's answer,
waiting for the stations it lowers, or in SWITCH with the first move begun. -/
theorem movesArePlanned : Obligations.MovesArePlanned := by
  intro x target q s ready image number inUse idle empty noWrite notOnWay noConflict m listed fit some_listed rank level
  refine ⟨s.moveList x q, s.moveList_ordered x q, fun e => Plant.mem_moveList, ?_⟩
  intro affects entry back begun started accepted
  obtain ⟨t, ht⟩ : ∃ t, t = s.planned x q := ⟨_, rfl⟩
  obtain ⟨w, hw⟩ : ∃ w : Work, w = { s.work.accepted x with transition := some t } := ⟨_, rfl⟩
  have station : t.station = x := by rw [ht]; rfl
  have carried (y : Station) : w.carrier y = s.carrier y := by rw [hw]; rfl
  have affected (y : Station) : t.affected.get y = affects y := ht ▸ Plant.planned_affected_get s.toPlant
  have planned : t = begun .plan .notNeeded fun _ => none := by
    have sets : t.affected = ⟨affects .A, affects .B⟩ := Pair.ext_get fun y => by rw [affected]; cases y <;> rfl
    have entries : t.entries = ⟨entry .A none, entry .B none⟩ := Pair.ext_get fun y => by
      have := Plant.planned_entries_get (x := x) (y := y) (q := q) s.toPlant
      rw [← ht, affected] at this
      rw [this]
      cases y <;> rfl
    simp only [begun, ← sets, ← entries]
    rw [ht]
    rfl
  have run : act x (s.ports.get x).dropped (.patternRequest target) s.work =
      (w.decideConsent t, ⟨.accepted, [byteOf s.tagToGive]⟩) := by
    rw [hw, ht]
    exact act_patternRequest_planned number image inUse idle empty noWrite notOnWay noConflict
      (Plant.movesFailed_moveList fit) (Plant.moveList_ne_nil some_listed) _
  have active : w.transition = some t := by rw [hw]
  refine ⟨fun shared asks => ?ask, fun unasked lowers => ?quiesce, fun e rest self peer head still => ?switch⟩
  case ask =>
    have decided := Work.decideConsent_ask active (by rw [station, affected, shared]) (by rw [station, hw]; exact asks)
    rw [decided] at run
    refine congrArg Host.Outcome.next ((State.receiveRequest_eq ready run fun y => by rw [hw]; rfl).trans ?_)
    rw [hw, planned]
    rfl
  case quiesce =>
    obtain ⟨z, hz, loud, up⟩ := lowers
    have decided := Work.decideConsent_lowers active (by rw [station, affected, hw]; exact unasked)
      (by rw [affected]; exact hz) (by rw [carried]; exact loud) (by rw [carried]; exact up)
    obtain ⟨v, hv⟩ : ∃ v : Work, v = { w with
        posts := w.posts ++ t.informed.map fun y => (y, t.startNotice)
        transition := some (w.quiescing t) } := ⟨_, rfl⟩
    rw [decided, ← hv] at run
    have left {α : Type} (g : Plant → α)
        (hg : ∀ (p : Plant) list m e, g { p with scanList := list, measurement := m, lastEntry := e } = g p) :
        g (s.receiveRequest x (.patternRequest target)).toPlant = g (v.lowered t).toPlant :=
      State.receiveRequest_field ready run g hg
    have lowered (y : Station) : (s.receiveRequest x (.patternRequest target)).stations.get y =
        if affects y = true then
          (StationWork.lowerToHold (v.toPlant.ctx y) { toStationUnit := s.stations.get y, out := [] }).toStationUnit
        else s.stations.get y := by
      rw [left (·.stations.get y) fun _ _ _ _ => rfl, Work.lowered_get, affected, hv, hw]
      rfl
    obtain ⟨stations, l, frame, only⟩ := Work.lowered_frame t v
    have posts : (v.lowered t).posts = t.informed.map (fun y => (y, t.startNotice)) ++ l := by
      rw [frame, hv, hw]
      rfl
    have record : w.quiescing t = begun .quiesce .notNeeded back := by
      have entries : w.withReturnLevels t = ⟨entry .A (back .A), entry .B (back .B)⟩ := Pair.ext_get fun y => by
        have := Plant.quiescing_entries_get (x := x) (y := y) (q := q) (w := w.toPlant) carried
        simp only [← ht, affected, Carrier.returnLevel_eq] at this
        refine Eq.trans this ?_
        cases y <;> rfl
      rw [Plant.quiescing, entries, planned]
    have told (y : Station) : y ∈ t.informed ↔ y = x ∨ affects y = true := by
      rw [Transition.informed, station, affected]
      rcases Station.eq_or_eq_peer x y with rfl | rfl
      · simp
      · by_cases ha : affects x.peer = true <;> simp [ha, Station.peer_ne]
    have notice : t.startNotice = started := by
      rw [planned]
      rfl
    refine ⟨_, rfl, ?_, ?_, ?_, ?_, ?_, ?_, fun y => ?_, ?_,
      fun y hy => ?_, fun hp => ?_, fun y hy hn => ?_, fun y p hy hr hl hp => ?_⟩
    · rw [left (·.transition) fun _ _ _ _ => rfl, frame, hv, ← record]
    · rw [left (·.tagCounter) fun _ _ _ _ => rfl, frame, hv, hw]
      rfl
    · rw [left (·.override) fun _ _ _ _ => rfl, frame, hv, hw]
      rfl
    · rw [left (·.pendingList) fun _ _ _ _ => rfl, frame, hv, hw]
      exact empty
    · rw [left (·.contactors) fun _ _ _ _ => rfl, frame, hv, hw]
      rfl
    · rw [left (·.driver) fun _ _ _ _ => rfl, frame, hv, hw]
      rfl
    · rw [Plant.active, lowered]
      split
      · exact StationWork.lowerToHold_activePattern _ _
      · rfl
    · exact State.receiveRequest_reply ready run
    · rw [lowered, if_neg (by rw [hy]; simp)]
    · refine State.receiveRequest_other_port ready run (Station.peer_ne x) fun p hm he => ?_
      rw [posts] at hm
      have : p.1 = x ∨ affects p.1 = true := by
        rcases List.mem_append.1 hm with h | h
        · obtain ⟨y, hy, rfl⟩ := List.mem_map.1 h
          exact (told y).1 hy
        · exact .inr (affected p.1 ▸ only p h)
      rw [he, hp] at this
      simp [Station.peer_ne] at this
    · rw [State.receiveRequest_head ready run, hn, List.nil_append, posts, notice]
      exact posts_head _ _ ((told y).2 hy)
    · rw [Plant.carrier, lowered, if_pos hy]
      obtain ⟨state, keeps, ramp⟩ := StationWork.lowerToHold_on_air (c := v.toPlant.ctx y)
        (w := { toStationUnit := s.stations.get y, out := [] }) hr hl
      refine ⟨state, keeps, ramp.trans ?_⟩
      have : (s.stations.get y).activePattern = some p := hp
      rw [this]
      rfl
  case switch =>
    have unaffected (y : Station) : t.affected.get y = false := by
      rw [affected]
      rcases Station.eq_or_eq_peer x y with rfl | rfl
      · exact self
      · exact peer
    obtain ⟨constrained, from_, elsewhere, waiting⟩ := Plant.mem_moveList.1 (head ▸ List.mem_cons_self)
    have passes : w.checkPasses e.contactor = true := by
      rw [hw]
      exact Plant.checkPasses_of (fit e.contactor ⟨e.toPos, constrained, from_ ▸ elsewhere⟩).1 still
    have decided := Work.decideConsent_switches active unaffected (by rw [ht]; exact head) waiting passes
    obtain ⟨h1, h2, h3, h4⟩ := Work.handLastState_congr true w s.work (by rw [hw]; rfl) (by rw [hw]; rfl)
      (by rw [hw]; rfl) (by rw [hw]; rfl) (by rw [hw]; rfl) fun y => by rw [hw]; rfl
    rw [decided, h1, h2, h3, h4] at run
    refine congrArg Host.Outcome.next ((State.receiveRequest_eq ready run fun y => by rw [hw]; rfl).trans ?_)
    rw [station, hw, planned]
    rfl

end Machine
end Sys2Proof

/-! PROOFS. The validation of an image (R146, R169): the sum of its bytes, the order of its checks, and the first of them that
fails. -/
namespace Sys2Proof
namespace Machine

/-! ### The check byte (R146) -/

/-- A canonical memory's first cell adds its byte to what the rest reads as. -/
theorem Memory.read_cons {low a b : Nat} {v : Byte} {m : Memory} (hm : Memory.wfFrom low ((b, v) :: m) = true) :
    (Memory.read ((b, v) :: m) a).toNat = (if a = b then v.toNat else 0) + (Memory.read m a).toNat := by
  simp only [Memory.wfFrom, Bool.and_eq_true] at hm
  have below (h : a < b + 1) : Memory.read m a = 0 := Memory.read_below m hm.2 h
  have cell : Memory.read ((b, v) :: m) a = if a = b then v else if a < b then 0 else Memory.read m a := rfl
  rw [cell]
  by_cases he : a = b
  · simp [← he, below (by omega)]
  · by_cases hl : a < b
    · simp [he, hl, below (by omega)]
    · simp [he, hl]

/-- The bytes of a canonical memory below an address add up to its cells there. -/
theorem Memory.sum_cells {low : Nat} {m : Memory} (hm : Memory.wfFrom low m = true) (size : Nat) :
    ((m.filter fun c => decide (c.1 < size)).map fun c => c.2.toNat).sum =
      ((List.range size).map fun a => (Memory.read m a).toNat).sum := by
  change _ = ∑ a ∈ Finset.range size, (Memory.read m a).toNat
  induction m generalizing low with
  | nil => simp [Memory.read]
  | cons c m ih =>
    obtain ⟨b, v⟩ := c
    have rest := hm
    simp only [Memory.wfFrom, Bool.and_eq_true] at rest
    simp only [Memory.read_cons hm, Finset.sum_add_distrib, Finset.sum_ite_eq', Finset.mem_range, ← ih rest.2]
    by_cases hb : b < size <;> simp [hb]

theorem checkByteHolds_iff {m : Memory} (hm : Memory.wf m = true) :
    checkByteHolds m = true ↔ ((List.range 1097).map fun a => (Memory.read m a).toNat).sum % 256 = 0 := by
  rw [checkByteHolds, beq_iff_eq, Memory.sum_cells hm]
  rfl

/-! ### Checks in ascending order of offset (R169) -/

/-- A list of checks with their offsets rising from one bound to below another. -/
def Ascends (low high : Nat) (checks : List (Nat × Bool)) : Prop :=
  (checks.Pairwise fun c d => c.1 < d.1) ∧ ∀ c ∈ checks, low ≤ c.1 ∧ c.1 < high

theorem Ascends.append {low mid high : Nat} {l l' : List (Nat × Bool)} (h : Ascends low mid l) (h' : Ascends mid high l')
    (hl : low ≤ mid) (hh : mid ≤ high) : Ascends low high (l ++ l') := by
  refine ⟨List.pairwise_append.2 ⟨h.1, h'.1, fun c hc d hd => ?_⟩, fun c hc => ?_⟩
  · have := h.2 c hc
    have := h'.2 d hd
    omega
  · rcases List.mem_append.1 hc with hc | hc
    · have := h.2 c hc
      omega
    · have := h'.2 c hc
      omega

/-- Records of one size, each with its checks in order, have all their checks in order. -/
theorem Ascends.flatMap {base size n : Nat} {f : Fin n → List (Nat × Bool)}
    (h : ∀ i, Ascends (base + size * i.val) (base + size * i.val + size) (f i)) :
    Ascends base (base + size * n) ((List.finRange n).flatMap f) := by
  refine ⟨List.pairwise_flatMap.2 ⟨fun i _ => (h i).1, ?_⟩, fun c hc => ?_⟩
  · refine (List.pairwise_lt_finRange n).imp fun {i j} hij c hc d hd => ?_
    have := (h i).2 c hc
    have := (h j).2 d hd
    have := Nat.mul_le_mul_left size (Nat.succ_le_of_lt (Fin.lt_def.1 hij))
    rw [Nat.mul_succ] at this
    omega
  · obtain ⟨i, -, hi⟩ := List.mem_flatMap.1 hc
    have := (h i).2 c hi
    have := Nat.mul_le_mul_left size (Nat.succ_le_of_lt i.isLt)
    rw [Nat.mul_succ] at this
    omega

theorem Ascends.mono {low low' high high' : Nat} {l : List (Nat × Bool)} (h : Ascends low high l) (hl : low' ≤ low)
    (hh : high ≤ high') : Ascends low' high' l := by
  refine ⟨h.1, fun c hc => ?_⟩
  have := h.2 c hc
  omega

theorem Ascends.nil {low high : Nat} : Ascends low high [] := ⟨List.Pairwise.nil, nofun⟩

theorem Ascends.cons {low high b : Nat} {ok : Bool} {l : List (Nat × Bool)} (h : Ascends (b + 1) high l) (hl : low ≤ b)
    (hh : b < high) : Ascends low high ((b, ok) :: l) := by
  refine ⟨List.pairwise_cons.2 ⟨fun c hc => (h.2 c hc).1, h.1⟩, fun c hc => ?_⟩
  rcases List.mem_cons.1 hc with rfl | hc
  · exact ⟨hl, hh⟩
  · have := h.2 c hc
    omega

theorem Ascends.map_finRange {base n : Nat} (ok : Fin n → Bool) :
    Ascends base (base + n) ((List.finRange n).map fun i => (base + i.val, ok i)) := by
  have single (i : Fin n) : Ascends (base + 1 * i.val) (base + 1 * i.val + 1) [(base + i.val, ok i)] :=
    Ascends.nil.cons (by omega) (by omega)
  have := Ascends.flatMap single
  rwa [← List.map_eq_flatMap, one_mul] at this

theorem contactorChecks_ascends (m : Memory) (k : ContactorNo) :
    Ascends (8 + 8 * k.val) (8 + 8 * k.val + 8) (contactorChecks m k) := by
  unfold contactorChecks contactorBase
  dsimp only
  split
  · repeat' refine Ascends.cons ?_ (by omega) (by omega)
    exact Ascends.nil
  · exact Ascends.nil.cons (by omega) (by omega)

theorem settingsChecks_ascends (m : Memory) (x : Station) :
    Ascends (sectionBase x) (sectionBase x + 16) (settingsChecks m x) := by
  refine Ascends.append (mid := sectionBase x + 10) ?_ ?_ (by omega) (by omega)
  · repeat' refine Ascends.cons ?_ (by omega) (by omega)
    exact Ascends.nil
  · exact Ascends.map_finRange (n := 6) fun i => withinSigned (-31) 31 (channelTrim m x (i.val + 1))

theorem patternChecks_ascends (m : Memory) (x : Station) (q : PatternNo) :
    Ascends (sectionBase x + 16 + 80 * q.val) (sectionBase x + 16 + 80 * q.val + 80) (patternChecks m x q) := by
  have tower (i : TowerNo) : Ascends (patternBase x q + 34 + 8 * i.val) (patternBase x q + 34 + 8 * i.val + 8)
      (if i.val + 2 ≤ (pattern m x q).towers then towerChecks m x q i else []) := by
    split
    · repeat' refine Ascends.cons ?_ (by omega) (by omega)
      exact Ascends.nil
    · exact Ascends.nil
  have towers := Ascends.flatMap tower
  have entries := Ascends.map_finRange (base := patternBase x q + 18) (mapEntryValid m x q)
  change Ascends (patternBase x q) (patternBase x q + 80) _
  unfold patternChecks
  dsimp only
  split
  · refine Ascends.cons ?_ le_rfl (by omega)
    refine Ascends.append ?_ (towers.mono le_rfl (by omega)) (by omega) (by omega)
    refine Ascends.append ?_ entries (by omega) (by omega)
    repeat' refine Ascends.cons ?_ (by omega) (by omega)
    exact Ascends.nil
  · exact Ascends.nil.cons le_rfl (by omega)

theorem entryChecks_ascends (m : Memory) (x : Station) (e : Fin 24) :
    Ascends (sectionBase x + 336 + 6 * e.val) (sectionBase x + 336 + 6 * e.val + 6) (entryChecks m x e) := by
  unfold entryChecks
  dsimp only
  split
  · exact Ascends.nil
  · repeat' refine Ascends.cons ?_ (by omega) (by omega)
    exact Ascends.nil

theorem sectionChecks_ascends (m : Memory) (x : Station) :
    Ascends (sectionBase x) (sectionBase x + 480) (sectionChecks m x) :=
  ((settingsChecks_ascends m x).append (Ascends.flatMap (patternChecks_ascends m x)) (by omega) (by omega)).append
    (Ascends.flatMap (entryChecks_ascends m x)) (by omega) (by omega)

/-- The checks of an image behind that of its check byte (R169). -/
def fieldChecks (m : Memory) : List (Nat × Bool) :=
  (0, Memory.read m 0 == 3) ::
    ((List.finRange 16).flatMap (contactorChecks m) ++ sectionChecks m .A ++ sectionChecks m .B)

theorem imageChecks_eq (m : Memory) : imageChecks m = (1096, checkByteHolds m) :: fieldChecks m := rfl

theorem fieldChecks_ascends (m : Memory) : Ascends 0 1096 (fieldChecks m) := by
  refine Ascends.cons ?_ le_rfl (by omega)
  have contactors := Ascends.flatMap (contactorChecks_ascends m)
  have a : Ascends 136 616 (sectionChecks m .A) := sectionChecks_ascends m .A
  have b : Ascends 616 1096 (sectionChecks m .B) := sectionChecks_ascends m .B
  exact ((contactors.mono (low' := 1) (by omega) le_rfl).append a (by omega) (by omega)).append b (by omega) (by omega)

/-! ### The first check that fails -/

/-- In a list of checks in order, the first to fail is the failing one of the lowest offset. -/
theorem Ascends.find_iff {low high a : Nat} {checks : List (Nat × Bool)} (h : Ascends low high checks) :
    (checks.find? fun c => !c.2).map (fun c => c.1) = some a ↔
      (a, false) ∈ checks ∧ ∀ b < a, (b, false) ∉ checks := by
  induction checks generalizing low with
  | nil => simp
  | cons c checks ih =>
    obtain ⟨d, ok⟩ := c
    have rest := List.pairwise_cons.1 h.1
    have tail : Ascends low high checks := ⟨rest.2, fun c hc => h.2 c (List.mem_cons_of_mem _ hc)⟩
    cases ok with
    | true => simpa using ih tail
    | false =>
      simp only [List.find?_cons, Bool.not_false, Option.map_some, Option.some.injEq, List.mem_cons, Prod.mk.injEq, and_true]
      constructor
      · rintro rfl
        refine ⟨.inl rfl, fun b hb => ?_⟩
        rintro (rfl | hm)
        · omega
        · have := rest.1 _ hm
          dsimp only at this
          omega
      · rintro ⟨rfl | hm, hn⟩
        · rfl
        · exact absurd (Or.inl rfl) (hn d (rest.1 _ hm))

/-- The first failing offset of an image whose check byte holds (R169). -/
theorem firstFailure_eq_some {m : Memory} {a : Nat} (h : checkByteHolds m = true) :
    firstFailure m = some a ↔ (a, false) ∈ fieldChecks m ∧ ∀ b < a, (b, false) ∉ fieldChecks m := by
  rw [firstFailure, imageChecks_eq, List.find?_cons, h]
  exact (fieldChecks_ascends m).find_iff

theorem firstFailure_eq_none_iff {m : Memory} (h : checkByteHolds m = true) :
    firstFailure m = none ↔ ∀ a, (a, false) ∉ fieldChecks m := by
  rw [firstFailure_eq_none, imageChecks_eq]
  constructor
  · intro hall a ha
    cases hall _ (List.mem_cons_of_mem _ ha)
  · rintro hn ⟨a, ok⟩ hc
    rcases List.mem_cons.1 hc with he | hc
    · cases he
      exact h
    · cases ok with
      | true => rfl
      | false => exact absurd hc (hn a)

theorem firstFailure_of_checkByte {m : Memory} (h : checkByteHolds m = false) : firstFailure m = some 1096 := by
  rw [firstFailure, imageChecks_eq, List.find?_cons, h]
  rfl

/-- Two properties that agree wherever nothing below has the first agree on what lies below. -/
theorem none_below_congr {p q : Nat → Prop} (h : ∀ a, (∀ b < a, ¬p b) → (p a ↔ q a)) (a : Nat) :
    (∀ b < a, ¬p b) ↔ ∀ b < a, ¬q b := by
  induction a with
  | zero => simp
  | succ a ih =>
    simp only [Nat.lt_succ_iff_lt_or_eq, or_imp, forall_and, forall_eq, ← ih]
    exact and_congr_right fun hb => not_congr (h a hb)

/-- Such properties hold first at the same place. -/
theorem least_congr {p q : Nat → Prop} (h : ∀ a, (∀ b < a, ¬p b) → (p a ↔ q a)) (a : Nat) :
    (p a ∧ ∀ b < a, ¬p b) ↔ q a ∧ ∀ b < a, ¬q b := by
  rw [← none_below_congr h a]
  exact and_congr_left fun hb => h a hb

/-- Such properties hold nowhere together. -/
theorem none_congr {p q : Nat → Prop} (h : ∀ a, (∀ b < a, ¬p b) → (p a ↔ q a)) : (∀ a, ¬p a) ↔ ∀ a, ¬q a :=
  ⟨fun hp a => (none_below_congr h (a + 1)).1 (fun b _ => hp b) a (Nat.lt_succ_self a),
    fun hq a => (none_below_congr h (a + 1)).2 (fun b _ => hq b) a (Nat.lt_succ_self a)⟩

end Machine
end Sys2Proof

/-! PROOFS. The fields of an image (R169): for each record, which of its checks fails at which offset, in the bytes of the image. -/
namespace Sys2Proof
namespace Machine

/-! ### Lists of checks

A check fails at an offset when the list holds it with its verdict false. -/

section
variable {a b : Nat} {ok : Bool} {l l' : List (Nat × Bool)} {P Q : Prop}

theorem fails_one (h : a = b → (ok = false ↔ P)) : (a, false) ∈ [(b, ok)] ↔ a = b ∧ P := by
  rw [List.mem_singleton, Prod.mk.injEq, eq_comm (a := false)]
  exact and_congr_right h

theorem fails_cons (h : a = b → (ok = false ↔ P)) (hl : (a, false) ∈ l ↔ Q) :
    (a, false) ∈ (b, ok) :: l ↔ (a = b ∧ P) ∨ Q := by
  rw [← fails_one h, ← hl, List.mem_cons, List.mem_singleton]

theorem fails_append (h : (a, false) ∈ l ↔ P) (h' : (a, false) ∈ l' ↔ Q) : (a, false) ∈ l ++ l' ↔ P ∨ Q := by
  rw [List.mem_append, h, h']

theorem fails_if {c : Prop} [Decidable c] {c' : Prop} (hc : c ↔ c') (h : (a, false) ∈ l ↔ Q) :
    (a, false) ∈ (if c then l else []) ↔ c' ∧ Q := by
  split <;> simp_all

theorem fails_if_not {c : Prop} [Decidable c] (h : ¬c → ((a, false) ∈ l ↔ Q)) : (a, false) ∈ (if c then [] else l) ↔ ¬c ∧ Q := by
  split <;> simp_all

/-- Checks of consecutive bytes. -/
theorem fails_map_range {n : Nat} {ok : Nat → Bool} {P : Nat → Prop} (h : ∀ i ≤ n, ok i = false ↔ P (b + i)) :
    (a, false) ∈ (List.range (n + 1)).map (fun i => (b + i, ok i)) ↔ b ≤ a ∧ a ≤ b + n ∧ P a := by
  simp only [List.mem_map, List.mem_range, Prod.mk.injEq]
  constructor
  · rintro ⟨i, hi, rfl, hf⟩
    exact ⟨by omega, by omega, (h i (by omega)).1 hf⟩
  · rintro ⟨hl, hh, hP⟩
    have : b + (a - b) = a := by omega
    exact ⟨a - b, by omega, this, (h _ (by omega)).2 (by rwa [this])⟩

/-- The checks of numbered records. -/
theorem fails_flatMap {n : Nat} {f : Fin n → List (Nat × Bool)} {R : Nat → Prop}
    (h : ∀ i, (a, false) ∈ f i ↔ R i.val) : (a, false) ∈ (List.finRange n).flatMap f ↔ ∃ i < n, R i := by
  simp only [List.mem_flatMap, List.mem_finRange, true_and, h]
  exact ⟨fun ⟨i, hi⟩ => ⟨i.val, i.isLt, hi⟩, fun ⟨i, hn, hi⟩ => ⟨⟨i, hn⟩, hi⟩⟩

end

/-! ### The kinds of field -/

theorem within_eq_false {low high n : Nat} : within low high n = false ↔ ¬(low ≤ n ∧ n ≤ high) := by simp [within]

theorem within_zero_eq_false {high n : Nat} : within 0 high n = false ↔ high < n := by simp [within]

theorem withinSigned_eq_false {low high n : Int} : withinSigned low high n = false ↔ ¬(low ≤ n ∧ n ≤ high) := by
  simp [withinSigned]

theorem byte_eq_one {v : Byte} : v = 1 ↔ v.toNat = 1 := BitVec.toNat_inj.symm

theorem flag_eq_true {m : Memory} {a : Nat} : (Memory.read m a == 1) = true ↔ (Memory.read m a).toNat = 1 :=
  beq_iff_eq.trans byte_eq_one

theorem Memory.readSigned8_eq (m : Memory) (a : Nat) :
    Memory.readSigned8 m a =
      if (Memory.read m a).toNat < 128 then ((Memory.read m a).toNat : Int) else (Memory.read m a).toNat - 256 := by
  rw [Memory.readSigned8, BitVec.toInt_eq_toNat_cond]
  have := (Memory.read m a).isLt
  split <;> split <;> omega

theorem consentDefault_isSome {n : Nat} : (consentPolicyOf? (n % 4)).isSome = false ↔ n % 4 = 3 := by
  have : n % 4 < 4 := Nat.mod_lt _ (by omega)
  generalize n % 4 = r at *
  interval_cases r <;> decide

/-! ### The records -/

section
variable (m : Memory)

/-- The fields of a contactor record (R1). -/
theorem contactorChecks_fail (k : ContactorNo) :
    let n (a : Nat) : Nat := (Memory.read m a).toNat
    let b := 8 + 8 * k.val
    ∀ a, (a, false) ∈ contactorChecks m k ↔
      (a = b ∧ 1 < n b) ∨
      (n b = 1 ∧
        ((a = b + 1 ∧ ¬(1 ≤ n a ∧ n a ≤ 3)) ∨ (a = b + 2 ∧ ¬(1 ≤ n a ∧ n a ≤ 16)) ∨ (a = b + 3 ∧ ¬(2 ≤ n a ∧ n a ≤ 50)) ∨
          (a = b + 4 ∧ ¬(2 ≤ n a ∧ n a ≤ 200)) ∨ (a = b + 5 ∧ 2 < n a))) := by
  intro n b a
  refine fails_cons ?_ <| fails_if Iff.rfl <| fails_cons ?_ <| fails_cons ?_ <| fails_cons ?_ <| fails_cons ?_ <| fails_one ?_
  all_goals rintro rfl
  exacts [within_zero_eq_false, within_eq_false, within_eq_false, within_eq_false, within_eq_false, within_zero_eq_false]

/-- The fields of a settings record (R12, R164). -/
theorem settingsChecks_fail (x : Station) :
    let n (a : Nat) : Nat := (Memory.read m a).toNat
    let w (a : Nat) : Nat := 256 * n a + n (a + 1)
    let sb (a : Nat) : Int := if n a < 128 then n a else n a - 256
    let b := sectionBase x
    ∀ a, (a, false) ∈ settingsChecks m x ↔
      (a = b ∧ ¬(16 ≤ w a ∧ w a ≤ 2048)) ∨ (a = b + 2 ∧ ¬(2 ≤ n a ∧ n a ≤ 50)) ∨ (a = b + 3 ∧ ¬(10 ≤ w a ∧ w a ≤ 600)) ∨
      (a = b + 5 ∧ ¬(2 ≤ n a ∧ n a ≤ 60)) ∨ (a = b + 6 ∧ 600 < w a) ∨ (a = b + 8 ∧ ¬(1 ≤ n a ∧ n a ≤ 10)) ∨
      (a = b + 9 ∧ n a % 4 = 3) ∨ (b + 10 ≤ a ∧ a ≤ b + 15 ∧ ¬(-31 ≤ sb a ∧ sb a ≤ 31)) := by
  intro n w sb b a
  have trim (i : Nat) (_ : i ≤ 5) : withinSigned (-31) 31 (channelTrim m x (i + 1)) = false ↔
      ¬(-31 ≤ sb (b + 10 + i) ∧ sb (b + 10 + i) ≤ 31) := by
    have place : sectionBase x + 9 + (i + 1) = b + 10 + i := by omega
    rw [withinSigned_eq_false, channelTrim, Memory.readSigned8_eq, place]
  simp only [settingsChecks, List.cons_append, List.nil_append]
  refine fails_cons ?_ <| fails_cons ?_ <| fails_cons ?_ <| fails_cons ?_ <| fails_cons ?_ <| fails_cons ?_ <|
    fails_cons ?_ <| fails_map_range (P := fun a => ¬(-31 ≤ sb a ∧ sb a ≤ 31)) trim
  all_goals rintro rfl
  exacts [within_eq_false, within_eq_false, within_eq_false, within_eq_false, within_zero_eq_false, within_eq_false,
    consentDefault_isSome]

/-- The fields of a monitored tower (R10). -/
theorem towerChecks_fail (x : Station) (q : PatternNo) (i : TowerNo) :
    let n (a : Nat) : Nat := (Memory.read m a).toNat
    let w (a : Nat) : Nat := 256 * n a + n (a + 1)
    let sw (a : Nat) : Int := if w a < 32768 then w a else w a - 65536
    let t := patternBase x q + 34 + 8 * i.val
    ∀ a, (a, false) ∈ towerChecks m x q i ↔
      (a = t ∧ 9999 < w a) ∨ (a = t + 2 ∧ ¬(1 ≤ w a ∧ w a ≤ 500)) ∨ (a = t + 4 ∧ ¬(-1799 ≤ sw a ∧ sw a ≤ 1800)) ∨
      (a = t + 6 ∧ ¬(1 ≤ w a ∧ w a ≤ 300)) := by
  intro n w sw t a
  refine fails_cons ?_ <| fails_cons ?_ <| fails_cons ?_ <| fails_one ?_
  all_goals rintro rfl
  exacts [within_zero_eq_false, within_eq_false, withinSigned_eq_false, within_eq_false]

/-- A contactor carries a station by its bit of the carrier set, when it is in use (R2, R3). -/
theorem carries_iff (x : Station) (k : ContactorNo) :
    carries m k x = true ↔ (Memory.read m (8 + 8 * k.val)).toNat = 1 ∧
      (Memory.read m (8 + 8 * k.val + 1)).toNat / (if x = .A then 1 else 2) % 2 = 1 := by
  cases x
  · rw [if_pos rfl, Nat.div_one]
    exact Bool.and_eq_true_iff.trans (and_congr flag_eq_true beq_iff_eq)
  · exact Bool.and_eq_true_iff.trans (and_congr flag_eq_true beq_iff_eq)

/-- A map entry that fails is no code of R168, or constrains a contactor that does not carry the station (R15). -/
theorem mapEntryValid_eq_false (x : Station) (q : PatternNo) (k : ContactorNo) :
    mapEntryValid m x q k = false ↔ (Memory.read m (patternBase x q + 18 + k.val)).toNat ≠ 0 ∧
      ¬((Memory.read m (patternBase x q + 18 + k.val)).toNat ≤ 2 ∧ carries m k x = true) := by
  unfold mapEntryValid
  dsimp only
  generalize (Memory.read m (patternBase x q + 18 + k.val)).toNat = code
  cases carries m k x
  · simp
  · simp only [Bool.and_true, and_true, Bool.or_eq_false_iff, beq_eq_false_iff_ne]
    omega

/-- A label that fails holds a byte outside 20h to 7Eh (R8). -/
theorem label_eq_false (x : Station) (q : PatternNo) :
    ((pattern m x q).label.all fun c => within 0x20 0x7E c.toNat) = false ↔
      ∃ i, 1 ≤ i ∧ i ≤ 4 ∧ ¬(0x20 ≤ (Memory.read m (patternBase x q + i)).toNat ∧
        (Memory.read m (patternBase x q + i)).toNat ≤ 0x7E) := by
  simp only [pattern, Memory.readBlock, List.all_map, List.all_eq_false, List.mem_range, Function.comp_apply,
    Bool.not_eq_true, within_eq_false]
  constructor
  · rintro ⟨i, hi, hf⟩
    exact ⟨i + 1, by omega, by omega, by rwa [Nat.add_assoc, Nat.add_comm 1 i] at hf⟩
  · rintro ⟨i, h1, h4, hf⟩
    have : patternBase x q + 1 + (i - 1) = patternBase x q + i := by omega
    exact ⟨i - 1, by omega, by rwa [← this] at hf⟩

/-- The map of a pattern record (R14, R15). -/
theorem mapChecks_fail (x : Station) (q : PatternNo) (a : Nat) :
    let n (a : Nat) : Nat := (Memory.read m a).toNat
    (a, false) ∈ ((List.finRange 16).map fun k => (patternBase x q + 18 + k.val, mapEntryValid m x q k)) ↔
      ∃ k < 16, a = patternBase x q + 18 + k ∧ n a ≠ 0 ∧
        ¬(n a ≤ 2 ∧ n (8 + 8 * k) = 1 ∧ n (8 + 8 * k + 1) / (if x = .A then 1 else 2) % 2 = 1) := by
  intro n
  rw [List.map_eq_flatMap]
  refine fails_flatMap fun k => fails_one ?_
  rintro rfl
  rw [mapEntryValid_eq_false, carries_iff]

/-- The monitored towers of a pattern record (R10). -/
theorem monitoredChecks_fail (x : Station) (q : PatternNo) (a : Nat) {T : Nat → Prop}
    (h : ∀ i : TowerNo, (a, false) ∈ towerChecks m x q i ↔ T (patternBase x q + 34 + 8 * i.val)) :
    (a, false) ∈ ((List.finRange 5).flatMap fun i =>
        if i.val + 2 ≤ (pattern m x q).towers then towerChecks m x q i else []) ↔
      ∃ tower, 2 ≤ tower ∧ tower ≤ 6 ∧ tower ≤ (Memory.read m (patternBase x q + 9)).toNat ∧
        T (patternBase x q + 34 + 8 * (tower - 2)) := by
  rw [fails_flatMap (R := fun i => i + 2 ≤ (pattern m x q).towers ∧ T (patternBase x q + 34 + 8 * i)) fun i =>
    fails_if Iff.rfl (h i)]
  constructor
  · rintro ⟨i, hi, ht, hT⟩
    exact ⟨i + 2, by omega, by omega, ht, hT⟩
  · rintro ⟨tower, h2, h6, ht, hT⟩
    exact ⟨tower - 2, by omega, by rwa [Nat.sub_add_cancel h2], hT⟩

/-- The fields of a pattern record but for its map and its monitored towers (R8, R9, R11, R18). -/
theorem patternChecks_fail (x : Station) (q : PatternNo) (a : Nat) {M T : Prop}
    (map : (a, false) ∈ ((List.finRange 16).map fun k => (patternBase x q + 18 + k.val, mapEntryValid m x q k)) ↔ M)
    (towers : (a, false) ∈ ((List.finRange 5).flatMap fun i =>
      if i.val + 2 ≤ (pattern m x q).towers then towerChecks m x q i else []) ↔ T) :
    let n (a : Nat) : Nat := (Memory.read m a).toNat
    let w (a : Nat) : Nat := 256 * n a + n (a + 1)
    let b := patternBase x q
    (a, false) ∈ patternChecks m x q ↔
      (a = b ∧ 1 < n b) ∨
      (n b = 1 ∧
        ((a = b + 1 ∧ ∃ i, 1 ≤ i ∧ i ≤ 4 ∧ ¬(0x20 ≤ n (b + i) ∧ n (b + i) ≤ 0x7E)) ∨ (a = b + 5 ∧ ¬(50 ≤ w a ∧ w a ≤ 1000)) ∨
          (a = b + 7 ∧ w (b + 5) < w a) ∨ (a = b + 9 ∧ ¬(2 ≤ n a ∧ n a ≤ 6)) ∨ (a = b + 10 ∧ 99 < n a) ∨
          (a = b + 11 ∧ ¬(1 ≤ n a ∧ n a ≤ 8)) ∨ (a = b + 12 ∧ ¬(2 ≤ n a ∧ n a ≤ 64)) ∨ (a = b + 13 ∧ ¬(5 ≤ n a ∧ n a ≤ 120)) ∨
          (a = b + 14 ∧ ¬(1 ≤ w a ∧ w a ≤ 1000)) ∨ (a = b + 16 ∧ ¬(1 ≤ w a ∧ w a ≤ 1000)) ∨ M ∨ T)) := by
  intro n w b
  unfold patternChecks
  simp only [List.cons_append, List.nil_append]
  refine fails_cons ?_ <| fails_if flag_eq_true <| fails_cons ?_ <| fails_cons ?_ <| fails_cons ?_ <| fails_cons ?_ <|
    fails_cons ?_ <| fails_cons ?_ <| fails_cons ?_ <| fails_cons ?_ <| fails_cons ?_ <| fails_cons ?_ <|
    fails_append map towers
  all_goals intro ha
  exacts [within_zero_eq_false, label_eq_false m x q, ha ▸ within_eq_false, ha ▸ by rw [decide_eq_false_iff_not, not_le]; rfl,
    ha ▸ within_eq_false, ha ▸ within_zero_eq_false, ha ▸ within_eq_false, ha ▸ within_eq_false, ha ▸ within_eq_false,
    ha ▸ within_eq_false, ha ▸ within_eq_false]

/-! ### Schedule entries (R136, R137) -/

theorem ScheduleEntry.containsDay_iff (e : ScheduleEntry) (day : Nat) :
    e.containsDay day = true ↔
      if e.firstDay ≤ e.lastDay then e.firstDay ≤ day ∧ day ≤ e.lastDay else e.firstDay ≤ day ∨ day ≤ e.lastDay := by
  unfold ScheduleEntry.containsDay
  split <;> simp

/-- Two ranges that begin on a day of the year share a day exactly when some day of the year lies in both (R136). -/
theorem ScheduleEntry.sharesDay_iff {e f : ScheduleEntry} (he : 1 ≤ e.firstDay ∧ e.firstDay ≤ 366)
    (hf : 1 ≤ f.firstDay ∧ f.firstDay ≤ 366) :
    e.sharesDay f = true ↔ ∃ day, 1 ≤ day ∧ day ≤ 366 ∧ e.containsDay day = true ∧ f.containsDay day = true := by
  have own (g : ScheduleEntry) : g.containsDay g.firstDay = true := by
    rw [ScheduleEntry.containsDay_iff]
    split <;> omega
  unfold ScheduleEntry.sharesDay
  rw [Bool.or_eq_true]
  constructor
  · rintro (h | h)
    · exact ⟨f.firstDay, hf.1, hf.2, h, own f⟩
    · exact ⟨e.firstDay, he.1, he.2, own e, h⟩
  · rintro ⟨day, -, -, h, h'⟩
    rw [ScheduleEntry.containsDay_iff] at h h' ⊢
    rw [ScheduleEntry.containsDay_iff]
    split_ifs at h h' ⊢ <;> omega

/-- A target that fails is a code above 4, or names a pattern of the station that is not in use (R136). -/
theorem entryTargetValid_iff (x : Station) {e : ScheduleEntry} (h : e.target ≠ 0) :
    entryTargetValid m x e = true ↔
      e.target ≤ 4 ∧ (Memory.read m (sectionBase x + 16 + 80 * (e.target - 1))).toNat = 1 := by
  unfold entryTargetValid patternOfNumber?
  by_cases ht : 1 ≤ e.target ∧ e.target ≤ 4
  · rw [dif_pos ht]
    simp only [ht.2, true_and]
    exact flag_eq_true
  · rw [dif_neg ht]
    simp [h]
    omega

end

end Machine
end Sys2Proof

/-! PROOFS. ImageValidated: the schedule entries' clashes, and the image's least failing offset (R136, R169). -/
namespace Sys2Proof
namespace Machine

section
variable (m : Memory)

/-- An entry in use whose checks below an offset hold has its first day in the year (R136). -/
theorem firstDay_of_entryChecks {x : Station} {e : Fin 24} (ht : (scheduleEntry m x e).target ≠ 0)
    (h : (sectionBase x + 336 + 6 * e.val, false) ∉ entryChecks m x e) :
    1 ≤ (scheduleEntry m x e).firstDay ∧ (scheduleEntry m x e).firstDay ≤ 366 := by
  unfold entryChecks at h
  dsimp only at h
  rw [if_neg ht] at h
  have first : (within 1 366 (scheduleEntry m x e).firstDay && entryTargetValid m x (scheduleEntry m x e)) = true := by
    by_contra hf
    rw [Bool.not_eq_true] at hf
    exact h (hf ▸ List.mem_cons_self)
  exact of_decide_eq_true (Bool.and_eq_true_iff.1 first).1

/-- An entry clashes with an earlier one in use of its minute when some day of the year lies in both ranges (R136). -/
theorem clashesEarlier_iff {x : Station} {e : Fin 24}
    (days : ∀ d ≤ e, (scheduleEntry m x d).target ≠ 0 →
      1 ≤ (scheduleEntry m x d).firstDay ∧ (scheduleEntry m x d).firstDay ≤ 366) (ht : (scheduleEntry m x e).target ≠ 0) :
    clashesEarlier m x e = true ↔
      ∃ d < e, (scheduleEntry m x d).target ≠ 0 ∧ (scheduleEntry m x d).minute = (scheduleEntry m x e).minute ∧
        ∃ day, 1 ≤ day ∧ day ≤ 366 ∧ (scheduleEntry m x d).containsDay day = true ∧
          (scheduleEntry m x e).containsDay day = true := by
  simp only [clashesEarlier, List.any_eq_true, List.mem_finRange, true_and, Bool.and_eq_true, decide_eq_true_eq,
    bne_iff_ne, beq_iff_eq, and_assoc]
  refine exists_congr fun d => and_congr_right fun hd => and_congr_right fun htd => ?_
  rw [ScheduleEntry.sharesDay_iff (days d (le_of_lt hd) htd) (days e le_rfl ht), and_comm]

/-- The fields of a schedule entry, when no check of it or of an earlier entry fails below (R136). -/
theorem entryChecks_fail (x : Station) (e : Fin 24) :
    let n (a : Nat) : Nat := (Memory.read m a).toNat
    let w (a : Nat) : Nat := 256 * n a + n (a + 1)
    let target (e : Nat) : Nat := w e / 512 % 8
    let holds (e day : Nat) : Prop :=
      if w e % 512 ≤ w (e + 2) % 512 then w e % 512 ≤ day ∧ day ≤ w (e + 2) % 512 else w e % 512 ≤ day ∨ day ≤ w (e + 2) % 512
    let entry (j : Nat) : Nat := sectionBase x + 336 + 6 * j
    let b := entry e.val
    ∀ a, (∀ d ≤ e, ∀ c < a, (c, false) ∉ entryChecks m x d) →
      ((a, false) ∈ entryChecks m x e ↔ target b ≠ 0 ∧
        ((a = b ∧ ¬(1 ≤ w b % 512 ∧ w b % 512 ≤ 366 ∧ target b ≤ 4 ∧
            n (sectionBase x + 16 + 80 * (target b - 1)) = 1)) ∨
          (a = b + 2 ∧ ¬(1 ≤ w a % 512 ∧ w a % 512 ≤ 366)) ∨
          (a = b + 4 ∧ (1439 < w a ∨ ∃ j < e.val, target (entry j) ≠ 0 ∧ w (entry j + 4) = w a ∧
            ∃ day, 1 ≤ day ∧ day ≤ 366 ∧ holds (entry j) day ∧ holds b day)))) := by
  intro n w target holds entry b a sound
  have day (d : Fin 24) (day : Nat) : (scheduleEntry m x d).containsDay day = true ↔ holds (entry d.val) day :=
    ScheduleEntry.containsDay_iff _ day
  unfold entryChecks
  refine fails_if_not fun ht => ?_
  have days (d : Fin 24) (hd : d ≤ e) (htd : (scheduleEntry m x d).target ≠ 0) (hb : b + 4 = a) :
      1 ≤ (scheduleEntry m x d).firstDay ∧ (scheduleEntry m x d).firstDay ≤ 366 :=
    firstDay_of_entryChecks m htd (sound d hd _ (by have := Fin.le_def.1 hd; dsimp only [b, entry] at hb; omega))
  refine fails_cons ?_ <| fails_cons ?_ <| fails_one ?_
  all_goals rintro rfl
  · rw [Bool.and_eq_false_iff, within_eq_false, ← Bool.not_eq_true, entryTargetValid_iff m x ht, ← not_and_or, and_assoc]
    rfl
  · exact within_eq_false
  · rw [Bool.and_eq_false_iff, within_zero_eq_false, Bool.not_eq_false', clashesEarlier_iff m (fun d hd h => days d hd h rfl) ht]
    refine or_congr Iff.rfl ⟨?_, ?_⟩
    · rintro ⟨d, hd, htd, hm, t, h1, h2, hdt, het⟩
      exact ⟨d.val, hd, htd, hm, t, h1, h2, (day d t).1 hdt, (day e t).1 het⟩
    · rintro ⟨j, hj, htd, hm, t, h1, h2, hdt, het⟩
      exact ⟨⟨j, by omega⟩, hj, htd, hm, t, h1, h2, (day ⟨j, by omega⟩ t).2 hdt, (day e t).2 het⟩

end

/-- Settles O8: each record's checks fail at the offsets said, the checks stand in ascending order, and so the first to fail is
the least offset said to fail. -/
theorem imageValidated : Obligations.ImageValidated := by
  intro m canonical n w sb sw isCarried badContactor badSettings badTower badPattern target holds badEntry badSection bad sum
  have checkByte : checkByteHolds m = true ↔ sum = 0 := checkByteHolds_iff canonical
  have pattern (x : Station) (q : PatternNo) (a : Nat) : (a, false) ∈ patternChecks m x q ↔
      badPattern (if x = .A then 1 else 2) (sectionBase x + 16 + 80 * q.val) a :=
    patternChecks_fail m x q a (mapChecks_fail m x q a)
      (monitoredChecks_fail m x q a (T := fun t => badTower t a) fun i => towerChecks_fail m x q i a)
  have station (x : Station) (a : Nat) (below : ∀ b < a, (b, false) ∉ sectionChecks m x) :
      (a, false) ∈ sectionChecks m x ↔ badSection (if x = .A then 1 else 2) (sectionBase x) a := by
    have entry (e : Fin 24) := entryChecks_fail m x e a fun d _ c hc h => below c hc
      (List.mem_append_right _ (List.mem_flatMap.2 ⟨d, List.mem_finRange d, h⟩))
    rw [sectionChecks, List.append_assoc]
    exact fails_append (settingsChecks_fail m x a) <| fails_append (fails_flatMap fun q => pattern x q a) <|
      fails_flatMap entry
  have agree (a : Nat) (below : ∀ b < a, ¬(b, false) ∈ fieldChecks m) : (a, false) ∈ fieldChecks m ↔ bad a := by
    have inSection (x : Station) {b : Nat} (h : (b, false) ∈ sectionChecks m x) : (b, false) ∈ fieldChecks m := by
      refine List.mem_cons_of_mem _ ?_
      cases x
      · exact List.mem_append_left _ (List.mem_append_right _ h)
      · exact List.mem_append_right _ h
    have inStation (x : Station) := station x a fun b hb h => below b hb (inSection x h)
    rw [fieldChecks, List.append_assoc]
    refine fails_cons ?_ <| fails_append (fails_flatMap fun k => contactorChecks_fail m k a) <|
      fails_append (inStation .A) (inStation .B)
    rintro rfl
    rw [beq_eq_false_iff_ne, ← BitVec.toNat_inj.ne]
    rfl
  refine ⟨fun hs => firstFailure_of_checkByte (Bool.eq_false_iff.2 fun h => hs (checkByte.1 h)), fun hs => ?_⟩
  exact ⟨(firstFailure_eq_none_iff (checkByte.2 hs)).trans (none_congr agree),
    fun a => (firstFailure_eq_some (checkByte.2 hs)).trans (least_congr agree a)⟩

end Machine
end Sys2Proof

/-! PROOFS. Nothing is left undone (R25, R36, R45, R46): what each operation of the Transition Engine keeps of the ends of
QUIESCE, RESTORE and CONFIRM, with the requester in the restore set. -/
namespace Sys2Proof
namespace Machine

/-! ### The properties an event passes through -/

/-- The active transition's requester is of its restore set (R29). -/
def Plant.Restored (p : Plant) : Prop := ∀ t, p.transition = some t → t.restores t.station = true

/-- QUIESCE goes on only while some affected station is not quiet (R36). -/
def Plant.QuiesceOpen (p : Plant) : Prop := ∀ t, p.transition = some t → t.phase = .quiesce → p.quiesced t = false

/-- RESTORE and CONFIRM go on only while the requester has not come to their ends (R45, R46). -/
def Plant.RestoreOpen (p : Plant) : Prop :=
  ∀ t, p.transition = some t → (t.phase = .restore → (p.carrier t.station).state.measured = false) ∧
    (t.phase = .confirm → (p.carrier t.station).state ≠ .normal)

theorem Plant.settled_iff (p : Plant) : p.Settled ↔ p.Restored ∧ p.QuiesceOpen ∧ p.RestoreOpen := by
  constructor
  · intro h
    refine ⟨fun t ht => (h t ht).1, fun t ht => (h t ht).2.1, fun t ht => (h t ht).2.2⟩
  · rintro ⟨h1, h2, h3⟩ t ht
    exact ⟨h1 t ht, h2 t ht, h3 t ht⟩

theorem Plant.Settled.restored {p : Plant} (h : p.Settled) : p.Restored := (p.settled_iff.1 h).1
theorem Plant.Settled.quiesceOpen {p : Plant} (h : p.Settled) : p.QuiesceOpen := (p.settled_iff.1 h).2.1
theorem Plant.Settled.restoreOpen {p : Plant} (h : p.Settled) : p.RestoreOpen := (p.settled_iff.1 h).2.2

theorem Plant.Restored.congr {p p' : Plant} (h : p.Restored) (ht : p'.transition = p.transition) : p'.Restored := by
  unfold Plant.Restored
  rw [ht]
  exact h

/-- With no transition active nothing is left undone in it. -/
theorem Plant.settled_of_idle {p : Plant} (h : p.transition = none) : p.Settled := fun t ht => by rw [h] at ht; cases ht

/-- Every other phase but QUIESCE, RESTORE and CONFIRM is settled by the requester's station entry alone. -/
theorem Plant.Restored.settled {p : Plant} (h : p.Restored)
    (hp : ∀ t, p.transition = some t → t.phase ≠ .quiesce ∧ t.phase ≠ .restore ∧ t.phase ≠ .confirm) : p.Settled :=
  fun t ht => ⟨h t ht, fun hq => absurd hq (hp t ht).1, fun hr => absurd hr (hp t ht).2.1, fun hc => absurd hc (hp t ht).2.2⟩

/-- Quietness follows the carrier states and mute confirmed. -/
theorem Plant.quiesced_congr {p p' : Plant} (t : Transition)
    (h : ∀ x, (p'.carrier x).state = (p.carrier x).state ∧ (p'.carrier x).muteConfirmed = (p.carrier x).muteConfirmed) :
    p'.quiesced t = p.quiesced t := by
  unfold Plant.quiesced Carrier.quiet
  simp only [(h _).1, (h _).2]

/-- A change that leaves the transition, the carrier states and mute confirmed leaves nothing undone. -/
theorem Plant.Settled.congr {p p' : Plant} (h : p.Settled) (ht : p'.transition = p.transition)
    (hs : ∀ x, (p'.carrier x).state = (p.carrier x).state ∧ (p'.carrier x).muteConfirmed = (p.carrier x).muteConfirmed) :
    p'.Settled := by
  intro t hn
  rw [Plant.quiesced_congr t hs, (hs t.station).1]
  exact h t (ht ▸ hn)

theorem Plant.Settled.congr_stations {p p' : Plant} (h : p.Settled) (ht : p'.transition = p.transition)
    (hs : p'.stations = p.stations) : p'.Settled :=
  h.congr ht fun x => by simp only [Plant.carrier, hs, and_self]

theorem Work.onTransition_restored {f : Transition → Transition} {w : Work}
    (hf : ∀ t, t.restores t.station = true → (f t).restores (f t).station = true) (h : w.Restored) :
    (w.onTransition f).Restored := by
  intro t ht
  obtain ⟨t', ht', rfl⟩ := Option.map_eq_some_iff.1 ht
  exact hf t' (h t' ht')

/-- A change of the record to a phase with no end of its own. -/
theorem Work.onTransition_settled {f : Transition → Transition} {w : Work}
    (hf : ∀ t, t.restores t.station = true → (f t).restores (f t).station = true)
    (hp : ∀ t, (f t).phase ≠ .quiesce ∧ (f t).phase ≠ .restore ∧ (f t).phase ≠ .confirm) (h : w.Restored) :
    (w.onTransition f).Settled := by
  refine (Work.onTransition_restored hf h).settled fun t ht => ?_
  obtain ⟨t', -, rfl⟩ := Option.map_eq_some_iff.1 ht
  exact hp t'

/-- A change of the record that leaves its phase, its requester and its affected set. -/
theorem Work.onTransition_settled_of_same {f : Transition → Transition} {w : Work}
    (hf : ∀ t, (f t).phase = t.phase ∧ (f t).station = t.station ∧ (f t).affected = t.affected ∧ (f t).entries = t.entries)
    (h : w.Settled) : (w.onTransition f).Settled := by
  intro t ht
  obtain ⟨t', ht', rfl⟩ := Option.map_eq_some_iff.1 ht
  obtain ⟨h1, h2, h3, h4⟩ := hf t'
  have := h t' ht'
  simp only [Transition.restores, Plant.quiesced, Transition.affectedList, h1, h2, h3, h4] at this ⊢
  exact this

/-! ### Ends of transitions and resolution -/

theorem Work.endTransition_settled (result : Result) (w : Work) : (w.endTransition result).Settled :=
  Plant.settled_of_idle (Work.endTransition_idle result w).1

theorem Work.resolveAndEnd_settled (result : Result) (w : Work) : (w.resolveAndEnd result).Settled := by
  unfold Work.resolveAndEnd
  split
  · next h => exact Plant.settled_of_idle h
  · exact Work.endTransition_settled _ _

theorem Work.foldl_transition {f : Work → Station → Work} (hf : ∀ w x, (f w x).transition = w.transition)
    (xs : List Station) (w : Work) : (xs.foldl f w).transition = w.transition := by
  induction xs generalizing w with
  | nil => rfl
  | cons x xs ih => exact (ih _).trans (hf w x)

theorem Work.raiseBack_transition (x : Station) (w : Work) : (w.raiseBack x).transition = w.transition := by
  unfold Work.raiseBack
  repeat' split
  all_goals rfl

theorem Work.resolve_transition (t : Transition) (x : Station) (w : Work) : (w.resolve t x).transition = w.transition :=
  Work.carryResolved_transition x _ _

theorem Work.endReversalFor_transition (t : Transition) (x : Station) (w : Work) :
    (w.endReversalFor t x).transition = w.transition := by
  unfold Work.endReversalFor
  repeat' split
  · rfl
  · exact Work.raiseBack_transition x w
  · exact Work.resolve_transition t x w

/-! ### Moves of contactors -/

theorem Work.moveRefused_settled (w : Work) : w.moveRefused.Settled := Work.resolveAndEnd_settled _ _

theorem Work.attempt_settled (move : Move) {w : Work} (h : w.Settled) : (w.attempt move).Settled := by
  unfold Work.attempt
  split
  · exact h.congr_stations rfl rfl
  · exact Work.moveRefused_settled w

theorem Work.commandMove_settled (k : ContactorNo) (toPos : Side) {w : Work} (h : w.Settled) :
    (w.commandMove k toPos).Settled := Work.attempt_settled _ h

/-- The check of RESTORE and CONFIRM leaves neither at its end (R45, R46). -/
theorem Work.restoreCheck_settled {w : Work} (hr : w.Restored) (hq : w.QuiesceOpen) : w.restoreCheck.Settled := by
  unfold Work.restoreCheck
  split
  · next h => exact Plant.settled_of_idle h
  · next t ht =>
    split
    · next hs =>
      intro u hu
      simp only [Work.onTransition_transition, ht, Option.map_some, Option.some.injEq] at hu
      subst hu
      refine ⟨hr t ht, by simp, by simp, fun _ => ?_⟩
      show (w.carrier t.station).state ≠ .normal
      rw [hs]
      simp
    · exact Work.endTransition_settled _ _
    · exact Work.endTransition_settled _ _
    · exact Work.endTransition_settled _ _
    · next h1 h2 h3 h4 =>
      refine w.settled_iff.2 ⟨hr, hq, fun u hu => ?_⟩
      obtain rfl : t = u := Option.some.inj (ht.symm.trans hu)
      refine ⟨fun hp => ?_, fun hp hn => h4 hp hn⟩
      cases hs : (w.carrier t.station).state <;> first | rfl | (exfalso; simp_all)

theorem Work.switchSuccess_settled (t : Transition) {w : Work} (h : w.Restored) : (w.switchSuccess t).Settled := by
  unfold Work.switchSuccess
  dsimp only
  have restoring : Plant.Restored (Work.onTransition (fun t => { t with phase := .restore })
      (w.setPattern t.station (some t.target))).toPlant :=
    Work.onTransition_restored (fun _ ht => ht) (h.congr rfl)
  have kept := Work.foldl_transition
    (f := fun w x => if x = t.station then w.onStation x StationWork.raiseToFull else w.raiseBack x)
    (fun w x => by split; exacts [rfl, Work.raiseBack_transition x w]) t.restoreSet
    (Work.onTransition (fun t => { t with phase := .restore }) (w.setPattern t.station (some t.target)))
  refine Work.restoreCheck_settled (restoring.congr kept) fun u hu hq => ?_
  rw [kept] at hu
  obtain ⟨u', -, rfl⟩ := Option.map_eq_some_iff.1 hu
  cases hq

theorem Work.nextMove_settled {w : Work} (h : w.Settled) : w.nextMove.Settled := by
  unfold Work.nextMove
  split
  · exact h
  · split
    · exact Work.commandMove_settled _ _ h
    · exact Work.switchSuccess_settled _ h.restored

theorem Work.reversalComplete_settled (t : Transition) {w : Work} (h : w.Restored) : (w.reversalComplete t).Settled := by
  unfold Work.reversalComplete
  dsimp only
  split
  · exact Work.endTransition_settled _ _
  · split
    · exact Work.endTransition_settled _ _
    · have kept := Work.foldl_transition (fun w x => Work.endReversalFor_transition t x w) t.restoreSet
        (Work.onTransition (fun u => { u with phase := .restore, result := some t.reversalResult }) w)
      have restoring : Plant.Restored
          (Work.onTransition (fun u => { u with phase := .restore, result := some t.reversalResult }) w).toPlant :=
        Work.onTransition_restored (fun _ ht => ht) h
      refine Work.restoreCheck_settled (restoring.congr kept) fun u hu hq => ?_
      rw [kept] at hu
      obtain ⟨u', -, rfl⟩ := Option.map_eq_some_iff.1 hu
      cases hq

theorem Work.nextReversal_settled {w : Work} (h : w.Settled) : w.nextReversal.Settled := by
  unfold Work.nextReversal
  split
  · exact h
  · split
    · exact Work.commandMove_settled _ _ h
    · exact Work.reversalComplete_settled _ h.restored

theorem Work.beginReverse_settled (cause : ReversalCause) {w : Work} (h : w.Restored) :
    (w.beginReverse cause).Settled :=
  Work.nextReversal_settled (Work.onTransition_settled (fun _ ht => ht) (fun _ => by simp) h)

theorem Work.afterSwitchMove_settled (t : Transition) (o : MoveOutcome) {w : Work} (h : w.Settled) :
    (w.afterSwitchMove t o).Settled := by
  unfold Work.afterSwitchMove
  split
  · exact Work.beginReverse_settled _ h.restored
  · exact Work.beginReverse_settled _ h.restored
  · exact Work.beginReverse_settled _ h.restored
  · split
    · exact Work.beginReverse_settled _ h.restored
    · exact Work.nextMove_settled h
  · exact Work.moveRefused_settled w

theorem Work.afterReversal_settled (o : MoveOutcome) {w : Work} (h : w.Settled) : (w.afterReversal o).Settled := by
  unfold Work.afterReversal
  split
  · exact Work.nextReversal_settled h
  · exact Work.resolveAndEnd_settled _ w
  · exact Work.resolveAndEnd_settled _ w
  · exact Work.moveRefused_settled w
  · exact Work.moveRefused_settled w

theorem Work.moveOutcome_settled (k : ContactorNo) (o : MoveOutcome) {w : Work} (h : w.Settled) :
    (w.moveOutcome k o).Settled := by
  have written : (Work.writeMoveOutcome k o { w with driver := none }).Settled :=
    Work.onTransition_settled_of_same (w := { w with driver := none }) (fun _ => ⟨rfl, rfl, rfl, rfl⟩)
      (h.congr_stations rfl rfl)
  unfold Work.moveOutcome
  dsimp only
  split
  · exact written
  · split
    · exact Work.resolveAndEnd_settled _ _
    · exact Work.afterSwitchMove_settled _ _ written
    · exact Work.afterReversal_settled _ written
    · exact written

/-! ### QUIESCE, PLAN and the pending list -/

theorem Work.enterSwitch_settled (t : Transition) {w : Work} (h : w.Restored) : (w.enterSwitch t).Settled := by
  unfold Work.enterSwitch
  dsimp only
  refine Work.nextMove_settled (Plant.Settled.congr_stations ?_ (Work.handLastState_stations _ _).2
    (Work.handLastState_stations _ _).1)
  exact Work.onTransition_settled (fun _ ht => ht) (fun _ => by simp)
    (h.congr (Work.foldl_transition (f := fun w x => w.onStation x StationWork.stopMuteTimer) (fun w x => rfl) _ _))

/-- The check of QUIESCE leaves it going on only while some station is not quiet (R36). -/
theorem Work.quiesceCheck_restored {w : Work} (h : w.Restored) :
    w.quiesceCheck.Restored ∧ w.quiesceCheck.QuiesceOpen := by
  unfold Work.quiesceCheck
  split
  · next ht => exact ⟨h, fun t hn => by rw [ht] at hn; cases hn⟩
  · next t ht =>
    split
    · have := Work.enterSwitch_settled t h
      exact ⟨this.restored, this.quiesceOpen⟩
    · next hq =>
      refine ⟨h, fun u hu hp => ?_⟩
      obtain rfl : t = u := Option.some.inj (ht.symm.trans hu)
      simpa [hp] using hq

theorem Work.quiesceCheck_settled {w : Work} (h : w.Restored) (hr : w.RestoreOpen) : w.quiesceCheck.Settled := by
  refine Plant.settled_iff _ |>.2 ⟨(Work.quiesceCheck_restored h).1, (Work.quiesceCheck_restored h).2, ?_⟩
  unfold Work.quiesceCheck
  split
  · exact hr
  · split
    · exact (Work.enterSwitch_settled _ h).restoreOpen
    · exact hr

theorem Work.enterQuiesce_settled {w : Work} (h : w.Restored) : w.enterQuiesce.Settled := by
  unfold Work.enterQuiesce
  split
  · next ht => exact Plant.settled_of_idle ht
  · next t ht =>
    dsimp only
    have kept := Work.foldl_transition (f := fun w x => w.onStation x StationWork.lowerToHold) (fun w x => rfl)
      t.affectedList (Work.onTransition (fun t => { t with phase := .quiesce, entries := w.withReturnLevels t }) w)
    have recorded (u : Transition) (hu : (List.foldl (fun w x => w.onStation x StationWork.lowerToHold)
        (Work.onTransition (fun t => { t with phase := .quiesce, entries := w.withReturnLevels t }) w)
        t.affectedList).transition = some u) : u = { t with phase := .quiesce, entries := w.withReturnLevels t } := by
      simp only [kept, Work.onTransition_transition, ht, Option.map_some, Option.some.injEq] at hu
      exact hu.symm
    refine Work.quiesceCheck_settled (fun u hu => ?_) fun u hu => ?_
    · rw [recorded u hu]
      simp only [Transition.restores, Plant.withReturnLevels_isSome]
      exact h t ht
    · rw [recorded u hu]
      constructor <;> (intro hp; cases hp)

theorem Work.askConsent_settled (t : Transition) {w : Work} (h : w.Restored) : (w.askConsent t).Settled :=
  Work.onTransition_settled (fun _ ht => ht) (fun _ => by simp) (h.congr rfl)

theorem Work.announceStart_restored (t : Transition) {w : Work} (h : w.Restored) : (w.announceStart t).Restored := by
  unfold Work.announceStart
  rw [Work.postAll_toPlant]
  exact h

theorem Work.beginLevelChange_settled (t : Transition) {w : Work} (h : w.Restored) :
    (w.beginLevelChange t).Settled := by
  unfold Work.beginLevelChange
  have announced := Work.announceStart_restored t
    (Work.onTransition_restored (f := fun t => { t with phase := .restore }) (fun _ ht => ht) h)
  refine Work.restoreCheck_settled (announced.congr rfl) fun u hu hq => ?_
  have kept : (Work.announceStart t (Work.onTransition (fun t => { t with phase := .restore }) w)).transition = some u := hu
  unfold Work.announceStart at kept
  rw [Work.postAll_toPlant] at kept
  obtain ⟨u', -, rfl⟩ := Option.map_eq_some_iff.1 kept
  cases hq

theorem Work.decideConsent_settled (t : Transition) {w : Work} (h : w.Restored) : (w.decideConsent t).Settled := by
  unfold Work.decideConsent
  split
  · split
    · exact Work.endTransition_settled _ w
    · exact Work.askConsent_settled t (Work.announceStart_restored t h)
    · exact Work.enterQuiesce_settled (Work.announceStart_restored t h)
  · exact Work.enterQuiesce_settled (Work.announceStart_restored t h)

theorem Work.planMoves_settled (t : Transition) (w : Work) : (w.planMoves t).Settled := by
  have entered (affected : StationSet) (u : Transition) (hu : u.entries = w.stationEntries t.station affected)
      (hs : u.station = t.station) : Plant.Restored { w.toPlant with transition := some u } := by
    intro v hv
    cases hv
    rw [Transition.restores, hu, hs]
    exact Plant.stationEntries_requester _ _ _
  unfold Work.planMoves
  split
  · exact Work.endTransition_settled _ w
  · split
    · exact Work.endTransition_settled _ w
    · split
      · exact Work.beginLevelChange_settled _ (entered ⟨false, false⟩ _ rfl rfl)
      · exact Work.decideConsent_settled _ (entered (w.affectedSet t.moves) _ rfl rfl)

theorem Work.plan_settled (t : Transition) (w : Work) : (w.plan t).Settled := by
  unfold Work.plan
  split
  · exact Work.endTransition_settled _ w
  · exact Work.planMoves_settled _ _

theorem Work.examineFor_settled (n : Nat) {w : Work} (h : w.Settled) : (w.examineFor n).Settled := by
  induction n generalizing w with
  | zero => exact h
  | succ n ih =>
    unfold Work.examineFor
    split
    · exact h
    · split
      · exact ih (Work.plan_settled _ _)
      · exact h

theorem Work.examinePending_settled {w : Work} (h : w.Settled) : w.examinePending.Settled := Work.examineFor_settled _ h

/-! ### Requests, withdraws and disturbances -/

theorem Work.dropPending_settled (x : Station) (result : Result) {w : Work} (h : w.Settled) :
    (w.dropPending x result).Settled := by
  unfold Work.dropPending Work.endPending Work.reportEnd
  repeat' split
  all_goals exact h.congr_stations rfl rfl

theorem Work.enterPending_settled (e : PendingEntry) {w : Work} (h : w.Settled) : (w.enterPending e).Settled := by
  unfold Work.enterPending Work.endPending Work.reportEnd
  repeat' split
  all_goals exact h.congr_stations rfl rfl

theorem Work.checkRequest_settled (x : Station) (target : Nat) (source : Source) {w : Work} (h : w.Settled) :
    (w.checkRequest x target source).1.Settled := by
  have accepted (q : PatternNo) : (w.acceptRequest x q source).Settled := by
    have entered (e : PendingEntry) (tag : Nat) : (Work.enterPending e { w with tagCounter := tag }).Settled :=
      Work.enterPending_settled e (h.congr_stations rfl rfl)
    unfold Work.acceptRequest
    dsimp only
    split
    · exact (entered _ _).congr_stations rfl rfl
    · exact entered _ _
  unfold Work.checkRequest
  split
  · exact h
  · split
    · exact h
    · split
      · exact h
      · split
        · exact Work.dropPending_settled x _ h
        · exact accepted _

theorem Work.takeGrant_settled {w : Work} (h : w.Restored) : w.takeGrant.Settled :=
  Work.enterQuiesce_settled (Work.onTransition_restored (w := { w with consentTimer := none, deferTimer := none })
    (fun _ ht => ht) (h.congr rfl))

theorem Work.takeDefer_settled (x : Station) (t : Transition) {w : Work} (h : w.Settled) :
    (w.takeDefer x t).Settled := by
  unfold Work.takeDefer
  split
  · exact h
  · dsimp only
    split
    · exact Work.endTransition_settled _ w
    · exact Work.onTransition_settled_of_same (fun _ => ⟨rfl, rfl, rfl, rfl⟩) (h.congr_stations rfl rfl)

theorem Work.withdrawInSwitch_settled (t : Transition) {w : Work} (h : w.Settled) : (w.withdrawInSwitch t).1.Settled := by
  have taken (moves : Transition → List MoveEntry) :
      (Work.onTransition (fun t => { t with withdrawTaken := true, moves := moves t }) w.stopDriver).Settled :=
    Work.onTransition_settled_of_same (fun _ => ⟨rfl, rfl, rfl, rfl⟩) (h.congr_stations rfl rfl)
  unfold Work.withdrawInSwitch
  split
  · exact h
  · split
    · exact h
    · dsimp only
      split
      · exact taken _
      · exact Work.beginReverse_settled _ (taken _).restored

theorem Work.withdrawActive_settled (t : Transition) {w : Work} (h : w.Settled) : (w.withdrawActive t).1.Settled := by
  unfold Work.withdrawActive
  split
  · exact Work.endTransition_settled _ _
  · exact Work.endTransition_settled _ _
  · exact Work.withdrawInSwitch_settled t h
  all_goals exact h

theorem Work.disturbSwitch_settled (result : Result) {w : Work} (h : w.Settled) : (w.disturbSwitch result).Settled := by
  unfold Work.disturbSwitch
  dsimp only
  split
  · exact Work.onTransition_settled_of_same (fun _ => ⟨rfl, rfl, rfl, rfl⟩) (h.congr_stations rfl rfl)
  · exact Work.resolveAndEnd_settled _ _

theorem Work.rfDisturbance_settled (x : Station) {w : Work} (h : w.Settled) : (w.rfDisturbance x).Settled := by
  unfold Work.rfDisturbance
  split
  · exact h
  · split
    · exact Work.disturbSwitch_settled _ h
    · exact h

end Machine
end Sys2Proof

/-! PROOFS. What the Transition Engine leaves of the requests that wait and of the image writes: every one of its operations
but a request's own keeps the pending list, the tag counter, the overrides and whether an image write is pending. -/
namespace Sys2Proof
namespace Machine

/-- The pending list, the tag counter, the overrides and the pending of an image write are as they were. -/
structure Plant.KeepsRequests (p q : Plant) : Prop where
  pendingList : q.pendingList = p.pendingList
  tagCounter : q.tagCounter = p.tagCounter
  override : q.override = p.override
  imageWritePending : q.imageWritePending = p.imageWritePending

theorem Plant.KeepsRequests.refl (p : Plant) : p.KeepsRequests p := ⟨rfl, rfl, rfl, rfl⟩

theorem Plant.KeepsRequests.trans {p q r : Plant} (h : p.KeepsRequests q) (k : q.KeepsRequests r) : p.KeepsRequests r :=
  ⟨k.1.trans h.1, k.2.trans h.2, k.3.trans h.3, k.4.trans h.4⟩

theorem Plant.KeepsRequests.after {p q r : Plant} (k : q.KeepsRequests r) (h : p.KeepsRequests q) : p.KeepsRequests r :=
  h.trans k

/-! ### The store (R152) -/

theorem queueLastState_any (content : LastState) (queue : List WriteJob) :
    (queueLastState content queue).any WriteJob.isImage = queue.any WriteJob.isImage := by
  unfold queueLastState
  split
  · rw [List.any_map]
    refine congrArg queue.any (funext fun j => ?_)
    cases j <;> rfl
  · simp [WriteJob.isImage]

theorem Work.startNextWrite_imageWritePending (w : Work) : w.startNextWrite.imageWritePending = w.imageWritePending := by
  unfold Work.startNextWrite
  split
  · next job rest hw hq =>
    cases job <;> simp [Work.startWrite, Plant.imageWritePending, hw, hq]
  · rfl

theorem Work.handLastState_keepsRequests (marker : Bool) (w : Work) :
    w.KeepsRequests (w.handLastState marker).toPlant := by
  have written : (w.handLastState marker).imageWritePending = w.imageWritePending := by
    unfold Work.handLastState
    rw [Work.startNextWrite_imageWritePending]
    simp only [Plant.imageWritePending, queueLastState_any]
  refine ⟨?_, ?_, ?_, written⟩
  all_goals rw [Work.handLastState_eq]

/-! ### Primitives -/

theorem Work.postAll_keepsRequests (xs : List Station) (n : Notice) (w : Work) :
    w.KeepsRequests (w.postAll xs n).toPlant := by
  rw [Work.postAll_toPlant]
  exact .refl _

theorem Work.reportEnd_keepsRequests (x : Station) (source : Source) (result : Result) (w : Work) :
    w.KeepsRequests (w.reportEnd x source result).toPlant := by
  unfold Work.reportEnd
  split
  · exact ⟨rfl, rfl, rfl, rfl⟩
  · exact .refl _

theorem Plant.KeepsRequests.foldl {f : Work → Station → Work} (hf : ∀ (w : Work) (x : Station), w.KeepsRequests (f w x).toPlant)
    (xs : List Station) (w : Work) : w.KeepsRequests (xs.foldl f w).toPlant := by
  induction xs generalizing w with
  | nil => exact .refl _
  | cons x xs ih => exact (hf w x).trans (ih _)

/-! ### Ends of transitions and resolution -/

theorem Work.endTransition_keepsRequests (result : Result) (w : Work) :
    w.KeepsRequests (w.endTransition result).toPlant := by
  unfold Work.endTransition
  split
  · exact .refl _
  · exact ((Work.postAll_keepsRequests _ _ w).trans (Work.handLastState_keepsRequests _ _)).trans
      ((Work.reportEnd_keepsRequests _ _ _ _).trans ⟨rfl, rfl, rfl, rfl⟩)

theorem Work.raiseBack_keepsRequests (x : Station) (w : Work) : w.KeepsRequests (w.raiseBack x).toPlant := by
  unfold Work.raiseBack
  repeat' split
  all_goals exact ⟨rfl, rfl, rfl, rfl⟩

theorem Work.raiseBackAll_keepsRequests (xs : List Station) (w : Work) : w.KeepsRequests (w.raiseBackAll xs).toPlant :=
  .foldl (fun w x => w.raiseBack_keepsRequests x) xs w

theorem Work.carryResolved_keepsRequests (x : Station) (choice : Option PatternNo) (w : Work) :
    w.KeepsRequests (w.carryResolved x choice).toPlant := by
  unfold Work.carryResolved
  split <;> exact ⟨rfl, rfl, rfl, rfl⟩

theorem Work.resolve_keepsRequests (t : Transition) (x : Station) (w : Work) :
    w.KeepsRequests (w.resolve t x).toPlant :=
  Plant.KeepsRequests.trans (q := (w.setPattern x _).toPlant) ⟨rfl, rfl, rfl, rfl⟩ (Work.carryResolved_keepsRequests x _ _)

theorem Work.resolveAndEnd_keepsRequests (result : Result) (w : Work) :
    w.KeepsRequests (w.resolveAndEnd result).toPlant := by
  unfold Work.resolveAndEnd
  split
  · exact .refl _
  · next t _ =>
    exact ((Plant.KeepsRequests.foldl (fun w x => w.resolve_keepsRequests t x) _ w).trans
      (Work.handLastState_keepsRequests _ _)).trans (Work.endTransition_keepsRequests _ _)

/-! ### Moves of contactors -/

theorem Work.moveRefused_keepsRequests (w : Work) : w.KeepsRequests w.moveRefused.toPlant :=
  (Work.resolveAndEnd_keepsRequests _ _).after (q := (Work.onTransition _ { w with driver := none }).toPlant)
    ⟨rfl, rfl, rfl, rfl⟩

theorem Work.attempt_keepsRequests (move : Move) (w : Work) : w.KeepsRequests (w.attempt move).toPlant := by
  unfold Work.attempt
  split
  · exact ⟨rfl, rfl, rfl, rfl⟩
  · exact Work.moveRefused_keepsRequests w

theorem Work.commandMove_keepsRequests (k : ContactorNo) (toPos : Side) (w : Work) :
    w.KeepsRequests (w.commandMove k toPos).toPlant := Work.attempt_keepsRequests _ w

theorem Work.restoreCheck_keepsRequests (w : Work) : w.KeepsRequests w.restoreCheck.toPlant := by
  unfold Work.restoreCheck
  split
  · exact .refl _
  · split
    · exact ⟨rfl, rfl, rfl, rfl⟩
    · exact Work.endTransition_keepsRequests _ w
    · exact Work.endTransition_keepsRequests _ w
    · exact Work.endTransition_keepsRequests _ w
    · exact .refl _

theorem Work.switchSuccess_keepsRequests (t : Transition) (w : Work) : w.KeepsRequests (w.switchSuccess t).toPlant := by
  unfold Work.switchSuccess
  dsimp only
  refine Plant.KeepsRequests.trans ?_ (Work.restoreCheck_keepsRequests _)
  refine Plant.KeepsRequests.after (Plant.KeepsRequests.foldl (fun w x => ?_) _ _) ⟨rfl, rfl, rfl, rfl⟩
  split
  · exact ⟨rfl, rfl, rfl, rfl⟩
  · exact w.raiseBack_keepsRequests x

theorem Work.nextMove_keepsRequests (w : Work) : w.KeepsRequests w.nextMove.toPlant := by
  unfold Work.nextMove
  split
  · exact .refl _
  · split
    · exact Work.commandMove_keepsRequests _ _ w
    · exact Work.switchSuccess_keepsRequests _ w

theorem Work.endReversalFor_keepsRequests (t : Transition) (x : Station) (w : Work) :
    w.KeepsRequests (w.endReversalFor t x).toPlant := by
  unfold Work.endReversalFor
  split
  · exact .refl _
  · split
    · exact w.raiseBack_keepsRequests x
    · exact w.resolve_keepsRequests t x

theorem Work.reversalComplete_keepsRequests (t : Transition) (w : Work) :
    w.KeepsRequests (w.reversalComplete t).toPlant := by
  have fold (w : Work) : w.KeepsRequests (t.restoreSet.foldl (fun w x => w.endReversalFor t x) w).toPlant :=
    .foldl (fun w x => w.endReversalFor_keepsRequests t x) _ w
  have restoring : w.KeepsRequests (t.restoreSet.foldl (fun w x => w.endReversalFor t x)
      (Work.onTransition (fun u => { u with phase := .restore, result := some t.reversalResult }) w)).toPlant :=
    (fold _).after ⟨rfl, rfl, rfl, rfl⟩
  unfold Work.reversalComplete
  dsimp only
  split
  · exact ((fold w).trans (Work.handLastState_keepsRequests _ _)).trans (Work.endTransition_keepsRequests _ _)
  · split
    · exact restoring.trans (Work.endTransition_keepsRequests _ _)
    · exact restoring.trans (Work.restoreCheck_keepsRequests _)

theorem Work.nextReversal_keepsRequests (w : Work) : w.KeepsRequests w.nextReversal.toPlant := by
  unfold Work.nextReversal
  split
  · exact .refl _
  · split
    · exact Work.commandMove_keepsRequests _ _ w
    · exact Work.reversalComplete_keepsRequests _ w

theorem Work.beginReverse_keepsRequests (cause : ReversalCause) (w : Work) :
    w.KeepsRequests (w.beginReverse cause).toPlant :=
  (Work.nextReversal_keepsRequests _).after ⟨rfl, rfl, rfl, rfl⟩

theorem Work.afterSwitchMove_keepsRequests (t : Transition) (o : MoveOutcome) (w : Work) :
    w.KeepsRequests (w.afterSwitchMove t o).toPlant := by
  unfold Work.afterSwitchMove
  split
  · exact Work.beginReverse_keepsRequests _ w
  · exact Work.beginReverse_keepsRequests _ w
  · exact Work.beginReverse_keepsRequests _ w
  · split
    · exact Work.beginReverse_keepsRequests _ w
    · exact Work.nextMove_keepsRequests w
  · exact Work.moveRefused_keepsRequests w

theorem Work.afterReversal_keepsRequests (o : MoveOutcome) (w : Work) : w.KeepsRequests (w.afterReversal o).toPlant := by
  unfold Work.afterReversal
  split
  · exact Work.nextReversal_keepsRequests w
  · exact Work.resolveAndEnd_keepsRequests _ w
  · exact Work.resolveAndEnd_keepsRequests _ w
  · exact Work.moveRefused_keepsRequests w
  · exact Work.moveRefused_keepsRequests w

theorem Work.moveOutcome_keepsRequests (k : ContactorNo) (o : MoveOutcome) (w : Work) :
    w.KeepsRequests (w.moveOutcome k o).toPlant := by
  have written : w.KeepsRequests (Work.writeMoveOutcome k o { w with driver := none }).toPlant := ⟨rfl, rfl, rfl, rfl⟩
  unfold Work.moveOutcome
  dsimp only
  split
  · exact written
  · split
    · exact written.trans (Work.resolveAndEnd_keepsRequests _ _)
    · exact written.trans (Work.afterSwitchMove_keepsRequests _ _ _)
    · exact written.trans (Work.afterReversal_keepsRequests _ _)
    · exact written

/-! ### QUIESCE and PLAN -/

theorem Work.enterSwitch_keepsRequests (t : Transition) (w : Work) : w.KeepsRequests (w.enterSwitch t).toPlant := by
  unfold Work.enterSwitch
  dsimp only
  have stopped := Plant.KeepsRequests.foldl (f := fun w x => w.onStation x StationWork.stopMuteTimer)
    (fun _ _ => ⟨rfl, rfl, rfl, rfl⟩) t.affectedList w
  exact ((Work.nextMove_keepsRequests _).after (Work.handLastState_keepsRequests _ _)).after
    (stopped.trans ⟨rfl, rfl, rfl, rfl⟩)

theorem Work.quiesceCheck_keepsRequests (w : Work) : w.KeepsRequests w.quiesceCheck.toPlant := by
  unfold Work.quiesceCheck
  split
  · exact .refl _
  · split
    · exact Work.enterSwitch_keepsRequests _ w
    · exact .refl _

theorem Work.lowered_keepsRequests (t : Transition) (w : Work) : w.KeepsRequests (w.lowered t).toPlant :=
  .foldl (f := fun w x => w.onStation x StationWork.lowerToHold) (fun _ _ => ⟨rfl, rfl, rfl, rfl⟩) t.affectedList w

theorem Work.enterQuiesce_keepsRequests (w : Work) : w.KeepsRequests w.enterQuiesce.toPlant := by
  cases ht : w.transition with
  | none =>
    unfold Work.enterQuiesce
    rw [ht]
    exact .refl _
  | some t =>
    have entered : w.KeepsRequests { w.toPlant with transition := some (w.quiescing t) } := ⟨rfl, rfl, rfl, rfl⟩
    rw [Work.enterQuiesce_eq ht]
    exact (entered.trans (Work.lowered_keepsRequests t { w with transition := some (w.quiescing t) })).trans
      (Work.quiesceCheck_keepsRequests _)

theorem Work.announceStart_keepsRequests (t : Transition) (w : Work) :
    w.KeepsRequests (w.announceStart t).toPlant := Work.postAll_keepsRequests _ _ w

theorem Work.beginLevelChange_keepsRequests (t : Transition) (w : Work) :
    w.KeepsRequests (w.beginLevelChange t).toPlant := by
  unfold Work.beginLevelChange
  have announced := Work.announceStart_keepsRequests t (Work.onTransition (fun t => { t with phase := .restore }) w)
  have restoring : w.KeepsRequests (Work.onTransition (fun t => { t with phase := .restore }) w).toPlant :=
    ⟨rfl, rfl, rfl, rfl⟩
  generalize Work.announceStart t (Work.onTransition (fun t => { t with phase := .restore }) w) = v at announced ⊢
  dsimp only
  refine (Work.restoreCheck_keepsRequests _).after ?_
  exact (restoring.trans announced).trans ⟨rfl, rfl, rfl, rfl⟩

theorem Work.decideConsent_keepsRequests (t : Transition) (w : Work) :
    w.KeepsRequests (w.decideConsent t).toPlant := by
  have announced := Work.announceStart_keepsRequests t w
  unfold Work.decideConsent
  split
  · split
    · exact Work.endTransition_keepsRequests _ w
    · exact announced.trans ⟨rfl, rfl, rfl, rfl⟩
    · exact announced.trans (Work.enterQuiesce_keepsRequests _)
  · exact announced.trans (Work.enterQuiesce_keepsRequests _)

theorem Work.planMoves_keepsRequests (t : Transition) (w : Work) : w.KeepsRequests (w.planMoves t).toPlant := by
  unfold Work.planMoves
  split
  · exact Work.endTransition_keepsRequests _ w
  · split
    · exact Work.endTransition_keepsRequests _ w
    · split
      · exact (Work.beginLevelChange_keepsRequests _ _).after ⟨rfl, rfl, rfl, rfl⟩
      · exact (Work.decideConsent_keepsRequests _ _).after ⟨rfl, rfl, rfl, rfl⟩

theorem Work.plan_keepsRequests (t : Transition) (w : Work) : w.KeepsRequests (w.plan t).toPlant := by
  unfold Work.plan
  split
  · exact Work.endTransition_keepsRequests _ w
  · exact (Work.planMoves_keepsRequests _ _).after ⟨rfl, rfl, rfl, rfl⟩

/-! ### Consent, withdraws and disturbances -/

theorem Work.takeGrant_keepsRequests (w : Work) : w.KeepsRequests w.takeGrant.toPlant :=
  (Work.enterQuiesce_keepsRequests _).after ⟨rfl, rfl, rfl, rfl⟩

theorem Work.withdrawQuery_keepsRequests (t : Transition) (w : Work) : w.KeepsRequests (w.withdrawQuery t).toPlant := by
  unfold Work.withdrawQuery
  split <;> exact ⟨rfl, rfl, rfl, rfl⟩

theorem Work.disturbSwitch_keepsRequests (result : Result) (w : Work) :
    w.KeepsRequests (w.disturbSwitch result).toPlant := by
  unfold Work.disturbSwitch
  dsimp only
  split
  · exact ⟨rfl, rfl, rfl, rfl⟩
  · exact (Work.resolveAndEnd_keepsRequests _ _).after ⟨rfl, rfl, rfl, rfl⟩

theorem Work.rfDisturbance_keepsRequests (x : Station) (w : Work) : w.KeepsRequests (w.rfDisturbance x).toPlant := by
  unfold Work.rfDisturbance
  split
  · exact .refl _
  · split
    · exact Work.disturbSwitch_keepsRequests _ w
    · exact .refl _

theorem Work.arrayDisturbance_keepsRequests (w : Work) : w.KeepsRequests w.arrayDisturbance.toPlant := by
  unfold Work.arrayDisturbance
  split
  · exact .refl _
  · split
    · exact (Work.withdrawQuery_keepsRequests _ w).trans (Work.endTransition_keepsRequests _ _)
    · exact (Work.raiseBackAll_keepsRequests _ w).trans (Work.endTransition_keepsRequests _ _)
    · exact Work.disturbSwitch_keepsRequests _ w
    · exact Work.disturbSwitch_keepsRequests _ w
    · split
      · exact Work.endTransition_keepsRequests _ w
      · exact .refl _
    · split
      · exact Work.endTransition_keepsRequests _ w
      · exact .refl _
    · exact .refl _

/-! ### The drive -/

theorem Work.postFault_keepsRequests (k : ContactorNo) (cause : FaultCause) (w : Work) :
    w.KeepsRequests (w.postFault k cause).toPlant := Work.postAll_keepsRequests _ _ w

theorem Work.endSettle_keepsRequests (w : Work) : w.KeepsRequests w.endSettle.toPlant := by
  unfold Work.endSettle
  split
  · exact .refl _
  · next move _ =>
    have read (f : Live → Live) : w.KeepsRequests ((w.reach move.due).onLive move.contactor f).toPlant :=
      ⟨rfl, rfl, rfl, rfl⟩
    split
    · dsimp only
      split
      · exact (read _).trans (Work.attempt_keepsRequests _ _)
      · refine Plant.KeepsRequests.trans ?_ (Work.moveOutcome_keepsRequests _ _ _)
        split
        · exact (read _).trans (Work.postFault_keepsRequests _ _ _)
        · exact read _
    · exact .refl _

theorem Work.breakMap_keepsRequests (before : Plant) (x : Station) (w : Work) :
    w.KeepsRequests (w.breakMap before x).toPlant := by
  unfold Work.breakMap
  repeat' split
  all_goals exact ⟨rfl, rfl, rfl, rfl⟩

theorem Work.unexpectedMovement_keepsRequests (k : ContactorNo) (w : Work) :
    w.KeepsRequests (w.unexpectedMovement k).toPlant := by
  have posted (f : Live → Live) (cause : FaultCause) : w.KeepsRequests ((w.onLive k f).postFault k cause).toPlant :=
    (Work.postFault_keepsRequests k cause _).after ⟨rfl, rfl, rfl, rfl⟩
  exact (((posted _ _).trans (Work.breakMap_keepsRequests _ .A _)).trans (Work.breakMap_keepsRequests _ .B _)).trans
    (Work.arrayDisturbance_keepsRequests _)

end Machine
end Sys2Proof

/-! PROOFS. NothingIsLeftUndone: each event of a part in service leaves no startable head and no overstayed phase, and a part
that is held, or in the start-up wait, stays out of service (R25, R36, R45, R46, R153, R154). -/
namespace Sys2Proof
namespace Machine

/-! ### A part in service -/

/-- The part is in service, with nothing left undone. -/
structure Plant.Tended (p : Plant) : Prop where
  running : p.phase = .running
  waiting : p.Waiting
  settled : p.Settled

theorem Plant.Waiting.congr {p p' : Plant} (h : p.Waiting) (ht : p'.transition = p.transition)
    (hl : p'.pendingList = p.pendingList) (hi : p'.imageWritePending = p.imageWritePending) : p'.Waiting := by
  unfold Plant.Waiting Plant.canStart at *
  rwa [ht, hl, hi]

/-- A change that leaves the phase, the transition, the list, the writes and what quietness reads keeps the part tended. -/
theorem Plant.Tended.congr {p p' : Plant} (h : p.Tended) (hp : p'.phase = p.phase) (ht : p'.transition = p.transition)
    (hl : p'.pendingList = p.pendingList) (hi : p'.imageWritePending = p.imageWritePending)
    (hs : ∀ x, (p'.carrier x).state = (p.carrier x).state ∧ (p'.carrier x).muteConfirmed = (p.carrier x).muteConfirmed) :
    p'.Tended :=
  ⟨hp.trans h.running, h.waiting.congr ht hl hi, h.settled.congr ht hs⟩

theorem Plant.Tended.congr_stations {p p' : Plant} (h : p.Tended) (hp : p'.phase = p.phase)
    (ht : p'.transition = p.transition) (hl : p'.pendingList = p.pendingList)
    (hi : p'.imageWritePending = p.imageWritePending) (hs : p'.stations = p.stations) : p'.Tended :=
  h.congr hp ht hl hi fun x => by simp only [Plant.carrier, hs, and_self]

/-- The examination leaves no head that can start (R25). -/
theorem Work.examineFor_waits (n : Nat) (w : Work) (h : w.pendingList.length ≤ n) : (w.examineFor n).Waiting := by
  induction n generalizing w with
  | zero => exact .inl (List.length_eq_zero_iff.1 (Nat.le_zero.1 h))
  | succ n ih =>
    unfold Work.examineFor
    split
    · next he => exact .inl he
    · next e rest he =>
      split
      · refine ih _ ?_
        rw [(Work.plan_keepsRequests _ _).pendingList]
        rw [he, List.length_cons] at h
        exact Nat.le_of_succ_le_succ h
      · next hc => exact .inr (by simpa using hc)

/-- The end of an event in service: the pending list is examined, and nothing is left undone. -/
theorem Work.examinePending_tended {w : Work} (hr : w.phase = .running) (h : w.Settled) : w.examinePending.Tended :=
  ⟨(Work.examinePending_moves w).phase.trans hr, Work.examineFor_waits _ w le_rfl, Work.examinePending_settled h⟩

/-- An operation of a station's units that leaves its state and mute confirmed. -/
theorem Work.onStation_tended (x : Station) (f : Ctx → StationWork → StationWork) {w : Work} (h : w.Tended)
    (hf : (f (w.toPlant.ctx x) { toStationUnit := w.stations.get x, out := [] }).carrier.state = (w.carrier x).state ∧
      (f (w.toPlant.ctx x) { toStationUnit := w.stations.get x, out := [] }).carrier.muteConfirmed =
        (w.carrier x).muteConfirmed) : (w.onStation x f).Tended := by
  refine h.congr rfl rfl rfl rfl fun y => ?_
  rw [Work.onStation_carrier]
  split
  · next hy => rw [hy]; exact hf
  · exact ⟨rfl, rfl⟩

theorem State.event_tended (f : Work → Work) (s : State) (h : (f s.work).Tended) : (s.event f).Tended := by
  rw [State.event_toPlant]
  unfold Work.settleScan
  split
  · unfold Work.recomputeScan
    dsimp only
    split <;> exact h.congr_stations rfl rfl rfl rfl rfl
  · exact h

theorem Work.whenDue_tended (t : Timer) (f : Work → Work) {w : Work} (h : w.Tended)
    (hf : ∀ due, (w.reach due).Tended → (f (w.reach due)).Tended) : (w.whenDue t f).Tended := by
  unfold Work.whenDue
  split
  · exact h
  · next due => exact hf due (h.congr_stations rfl rfl rfl rfl rfl)

/-! ### The drive -/

theorem Work.endPulse_tended {w : Work} (h : w.Tended) : w.endPulse.Tended := by
  unfold Work.endPulse
  repeat' split
  · exact h
  · exact h.congr_stations rfl rfl rfl rfl rfl
  · exact h

theorem Work.endSettle_settled {w : Work} (h : w.Settled) : w.endSettle.Settled := by
  unfold Work.endSettle
  split
  · exact h
  · next move _ =>
    have read (f : Live → Live) : ((w.reach move.due).onLive move.contactor f).Settled := h.congr_stations rfl rfl
    split
    · dsimp only
      split
      · exact Work.attempt_settled _ (read _)
      · refine Work.moveOutcome_settled _ _ ?_
        split
        · unfold Work.postFault
          rw [Work.postAll_toPlant]
          exact read _
        · exact read _
    · exact h

theorem Work.endSettle_phase (w : Work) : w.endSettle.phase = w.phase := by
  unfold Work.endSettle
  split
  · rfl
  · next move _ =>
    split
    · dsimp only
      split
      · exact (Work.attempt_moves _ _).phase
      · refine (Work.moveOutcome_moves _ _ _).phase.trans ?_
        split
        · exact (Work.postFault_moves _ _ _).phase
        · rfl
    · rfl

/-- A broken map darkens its station, and every other record stays (R63). -/
theorem Work.breakMap_carrier (before : Plant) (x y : Station) (w : Work) :
    (w.breakMap before x).carrier y = w.carrier y ∨ ((w.breakMap before x).carrier y).state = .dark := by
  unfold Work.breakMap
  split
  · exact .inl rfl
  · split
    · rw [Work.onStation_carrier]
      split
      · exact .inr (StationWork.goDark_spec _ _).2
      · next hy =>
        left
        rw [Work.setPattern, Work.onStation_carrier, if_neg hy]
    · exact .inl rfl

theorem Work.breakMap_transition (before : Plant) (x : Station) (w : Work) :
    (w.breakMap before x).transition = w.transition := by
  unfold Work.breakMap
  repeat' split
  all_goals rfl

theorem Work.breakMap_restoreOpen (before : Plant) (x : Station) {w : Work} (h : w.RestoreOpen) :
    (w.breakMap before x).RestoreOpen := by
  intro t ht
  rcases Work.breakMap_carrier before x t.station w with hc | hc
  · rw [hc]
    exact h t ((Work.breakMap_transition before x w) ▸ ht)
  · rw [hc]
    exact ⟨fun _ => rfl, fun _ => by simp⟩

/-- A disturbance of the array ends the transition, decides it, or leaves it in RESTORE or CONFIRM with its requester on the
way (R37, R44, R46). -/
theorem Work.arrayDisturbance_settled {w : Work} (h : w.Restored) (hr : w.RestoreOpen) : w.arrayDisturbance.Settled := by
  have switching (t : Transition) (ht : w.transition = some t) (hp : t.phase = .switch ∨ t.phase = .reverse ∨ t.phase = .plan) :
      w.Settled := h.settled fun u hu => by
    obtain rfl : t = u := Option.some.inj (ht.symm.trans hu)
    rcases hp with hp | hp | hp <;> simp [hp]
  have restoring (t : Transition) (ht : w.transition = some t) (hp : t.phase = .restore ∨ t.phase = .confirm) : w.Settled :=
    w.settled_iff.2 ⟨h, fun u hu hq => absurd hq (by
      obtain rfl : t = u := Option.some.inj (ht.symm.trans hu)
      rcases hp with hp | hp <;> simp [hp]), hr⟩
  unfold Work.arrayDisturbance
  split
  · next ht => exact Plant.settled_of_idle ht
  · next t ht =>
    split
    · exact Work.endTransition_settled _ _
    · exact Work.endTransition_settled _ _
    · next hp => exact Work.disturbSwitch_settled _ (switching t ht (.inl hp))
    · next hp => exact Work.disturbSwitch_settled _ (switching t ht (.inr (.inl hp)))
    · next hp =>
      split
      · exact Work.endTransition_settled _ _
      · exact restoring t ht (.inl hp)
    · next hp =>
      split
      · exact Work.endTransition_settled _ _
      · exact restoring t ht (.inr hp)
    · next hp => exact switching t ht (.inr (.inr hp))

theorem Work.unexpectedMovement_settled (k : ContactorNo) {w : Work} (h : w.Settled) :
    (w.unexpectedMovement k).Settled := by
  obtain ⟨v, hv⟩ : ∃ v : Work, v = (w.onLive k (Live.moved w.aux[k].shows)).postFault k .unexpected := ⟨_, rfl⟩
  have posted : v.Settled := by
    rw [hv]
    unfold Work.postFault
    rw [Work.postAll_toPlant]
    exact h.congr_stations rfl rfl
  have restored : ((v.breakMap w.toPlant .A).breakMap w.toPlant .B).Restored := posted.restored.congr
    ((Work.breakMap_transition _ _ _).trans (Work.breakMap_transition _ _ _))
  have open_ := Work.breakMap_restoreOpen w.toPlant .B (Work.breakMap_restoreOpen w.toPlant .A posted.restoreOpen)
  unfold Work.unexpectedMovement
  dsimp only
  rw [← hv]
  exact Work.arrayDisturbance_settled restored open_

theorem Work.judgeCombination_settled (k : ContactorNo) {w : Work} (h : w.Settled) : (w.judgeCombination k).Settled := by
  unfold Work.judgeCombination
  split
  · exact h.congr_stations rfl rfl
  · split
    · exact h
    · split
      · exact h
      · exact Work.unexpectedMovement_settled k h

theorem Work.debounce_tended (k : ContactorNo) (made0 made1 : Option Bool) {w : Work} (h : w.Tended) :
    (w.debounce k made0 made1).Tended := by
  unfold Work.debounce
  dsimp only
  split
  · exact h
  · exact h.congr_stations rfl rfl rfl rfl rfl
  · split
    · exact h
    · have taken : Plant.Settled { w.toPlant with aux := w.aux.set k (w.aux[k].take made0 made1) } :=
        h.settled.congr_stations rfl rfl
      exact Work.examinePending_tended ((Work.judgeCombination_moves k _).phase.trans h.running)
        (Work.judgeCombination_settled k (w := { w with aux := w.aux.set k (w.aux[k].take made0 made1) }) taken)

/-! ### The carriers' events -/

/-- A station that was on the air in a measured state is neither held nor, by this event, in NORMAL: QUIESCE stays open, and
the requester of RESTORE or CONFIRM is not at its end. -/
theorem Work.onStation_settled_of_measured (x : Station) (f : Ctx → StationWork → StationWork) {w : Work} (h : w.Settled)
    (hm : (w.carrier x).state.measured = true)
    (hf : ((w.onStation x f).carrier x).state ≠ .held) (hn : ((w.onStation x f).carrier x).state ≠ .normal) :
    (w.onStation x f).Settled := by
  have others (y : Station) (hy : y ≠ x) : (w.onStation x f).carrier y = w.carrier y := by
    rw [Work.onStation_carrier, if_neg hy]
  intro t ht
  obtain ⟨restored, quiesce, restore, confirm⟩ := h t ht
  refine ⟨restored, fun hp => ?_, fun hp => ?_, fun hp => ?_⟩
  · have noisy := quiesce hp
    simp only [Plant.quiesced, List.all_eq_false] at noisy ⊢
    obtain ⟨y, hy, hq⟩ := noisy
    refine ⟨y, hy, ?_⟩
    by_cases hx : y = x
    · subst hx
      simp [Carrier.quiet, hf]
    · rw [others y hx]
      exact hq
  · by_cases hx : t.station = x
    · rw [hx, hm] at restore
      exact absurd (restore hp) (by simp)
    · rw [others _ hx]
      exact restore hp
  · by_cases hx : t.station = x
    · rw [hx]
      exact hn
    · rw [others _ hx]
      exact confirm hp

theorem StationWork.enterState_state (new : CarrierState) (c : Ctx) (w : StationWork) :
    (w.enterState new c).carrier.state = new := (StationWork.enterState_keeps new c w).2

/-- A lower to reduce leaves the station LOWERING, RAISING or REDUCED (R81). -/
theorem StationWork.lowerToReduce_state (c : Ctx) (w : StationWork) :
    (w.lowerToReduce c).carrier.state = .lowering ∨ (w.lowerToReduce c).carrier.state = .raising ∨
      (w.lowerToReduce c).carrier.state = .reduced := by
  have ramped (ramp : Ramp) (h : ramp.purpose = .reduce) : (w.rampTo ramp c).carrier.state = .lowering ∨
      (w.rampTo ramp c).carrier.state = .raising ∨ (w.rampTo ramp c).carrier.state = .reduced := by
    unfold StationWork.rampTo StationWork.completeRamp
    split
    · rw [StationWork.enterState_state, h]
      exact .inr (.inr rfl)
    · rw [StationWork.enterState_state]
      split <;> simp
  exact ramped _ rfl

theorem Work.verifyExpiry_tended (x : Station) {w : Work} (h : w.Tended) (hv : (w.carrier x).state = .verifying) :
    (w.verifyExpiry x).Tended := by
  have reduced := StationWork.lowerToReduce_state (w.toPlant.ctx x)
  have failed : (w.onStation x StationWork.verifyFailed).Settled := by
    refine Work.onStation_settled_of_measured x _ h.settled (by rw [hv]; rfl) ?_ ?_
    all_goals
      rw [Work.onStation_carrier, if_pos rfl]
      unfold StationWork.verifyFailed
      dsimp only
      rcases reduced _ with h | h | h <;> rw [h] <;> simp
  unfold Work.verifyExpiry
  dsimp only
  split
  · exact ⟨h.running, h.waiting.congr rfl rfl rfl, failed⟩
  · split
    · exact Work.examinePending_tended ((Work.endTransition_moves _ _).phase.trans h.running) (Work.endTransition_settled _ _)
    · exact ⟨h.running, h.waiting.congr rfl rfl rfl, failed⟩

theorem Work.outOfTolerance_tended (x : Station) {w : Work} (h : w.Tended) (hn : (w.carrier x).state = .normal) :
    (w.onStation x StationWork.outOfTolerance).Tended := by
  have reduced := StationWork.lowerToReduce_state (w.toPlant.ctx x)
  refine ⟨h.running, h.waiting.congr rfl rfl rfl,
    Work.onStation_settled_of_measured x _ h.settled (by rw [hn]; rfl) ?_ ?_⟩
  all_goals
    rw [Work.onStation_carrier, if_pos rfl]
    unfold StationWork.outOfTolerance
    dsimp only
    rcases reduced _ with h | h | h <;> rw [h] <;> simp

theorem Work.tickRamp_tended (x : Station) {w : Work} (h : w.Tended) : (w.tickRamp x).Tended := by
  unfold Work.tickRamp
  split
  · exact h
  · next due _ =>
    unfold Work.rampTick
    dsimp only
    obtain ⟨v, hv⟩ : ∃ v : Work, v = (w.reach due).onStation x fun c u =>
      StationWork.rampTick c { u with carrier := { u.carrier with rampTimer := some (due + Config.rampTick) } } := ⟨_, rfl⟩
    have restored : v.Restored := by rw [hv]; exact h.settled.restored
    have running : v.phase = .running := by rw [hv]; exact h.running
    rw [← hv]
    obtain ⟨hr, hq⟩ := Work.quiesceCheck_restored restored
    exact Work.examinePending_tended
      (((Work.quiesceCheck_moves v).trans (Work.restoreCheck_moves _)).phase.trans running) (Work.restoreCheck_settled hr hq)

theorem Work.muteExpiry_tended (x : Station) {w : Work} (h : w.Tended) : (w.muteExpiry x).Tended := by
  have stopped : (w.onStation x StationWork.stopMuteTimer).Tended := Work.onStation_tended x _ h ⟨rfl, rfl⟩
  unfold Work.muteExpiry
  dsimp only
  split
  · exact stopped
  · split
    · exact Work.examinePending_tended
        (((Work.raiseBackAll_moves _ _).trans (Work.endTransition_moves _ _)).phase.trans stopped.running)
        (Work.endTransition_settled _ _)
    · exact stopped

/-- RF present going active on a station leaves it not quiet, if it was (R86). -/
theorem Work.takeRfPresent_active_settled (x : Station) {w : Work} (h : w.Settled) :
    (w.onStation x fun _ u => { u with carrier := u.carrier.takeRfPresent true }).Settled := by
  intro t ht
  obtain ⟨restored, quiesce, restore⟩ := h t ht
  have states (y : Station) : ((w.onStation x fun _ u => { u with carrier := u.carrier.takeRfPresent true }).carrier y).state =
      (w.carrier y).state := by
    rw [Work.onStation_carrier]
    split
    · next hy => rw [hy]; rfl
    · rfl
  rw [states]
  refine ⟨restored, fun hp => ?_, restore⟩
  have noisy := quiesce hp
  simp only [Plant.quiesced, List.all_eq_false] at noisy ⊢
  obtain ⟨y, hy, hq⟩ := noisy
  refine ⟨y, hy, ?_⟩
  rw [Work.onStation_carrier]
  split
  · by_cases hh : (w.stations.get x).carrier.state = .held <;> simp [Carrier.quiet, Carrier.takeRfPresent, hh]
  · exact hq

theorem Work.noticeRf_settled (x : Station) {w : Work} (h : w.Settled) : (w.noticeRf x).Settled := by
  unfold Work.noticeRf
  split
  · refine h.congr rfl fun y => ?_
    rw [Work.onStation_carrier]
    split
    · next hy => rw [hy]; exact ⟨rfl, rfl⟩
    · exact ⟨rfl, rfl⟩
  · exact h

theorem Work.noticeRf_phase (x : Station) (w : Work) : (w.noticeRf x).phase = w.phase := by
  unfold Work.noticeRf
  split <;> rfl

theorem Work.rfPresent_tended (x : Station) (active : Bool) {w : Work} (h : w.Tended) :
    (w.rfPresent x active).Tended := by
  unfold Work.rfPresent
  split
  · exact h
  · next hp => rw [h.running] at hp; cases hp
  · split
    · exact h
    · unfold Work.rfEvent
      dsimp only
      split
      · next ha =>
        subst ha
        have taken := Work.takeRfPresent_active_settled x h.settled
        exact Work.examinePending_tended ((Work.rfDisturbance_moves x _).phase.trans ((Work.noticeRf_phase x _).trans h.running))
          (Work.rfDisturbance_settled x (Work.noticeRf_settled x taken))
      · have taken : (w.onStation x fun _ u => { u with carrier := u.carrier.takeRfPresent active }).RestoreOpen := by
          intro t ht
          rw [Work.onStation_carrier]
          split
          · next hy =>
            have := h.settled.restoreOpen t ht
            rwa [hy] at this
          · exact h.settled.restoreOpen t ht
        exact Work.examinePending_tended ((Work.quiesceCheck_moves _).phase.trans h.running)
          (Work.quiesceCheck_settled (h.settled.restored.congr rfl) taken)

/-- A kept measurement leaves a station measured (R99, R123). -/
theorem StationWork.keptMeasurement_measured (m : Measurement) (r t q d : Nat) (c : Ctx) (w : StationWork)
    (h : w.carrier.state.measured = true) : (StationWork.keptMeasurement m r t q d c w).carrier.state.measured = true := by
  have report (v : StationWork) (hv : v.carrier.state = w.carrier.state) :
      (v.statusReport c).carrier.state.measured = true := by
    rw [(StationWork.statusReport_keeps c v).2, hv]
    exact h
  have evaluation (v : StationWork) (hv : v.carrier.state = w.carrier.state) :
      (v.evaluationReport c).carrier.state.measured = true := by
    have taken := (StationWork.takeStatus_keeps c (v.toStationUnit.decideStatus c) v).2
    unfold StationWork.evaluationReport
    dsimp only
    split
    · next hs =>
      split
      · unfold StationWork.verified
        rw [StationWork.post_carrier, StationWork.enterState_state]
        rfl
      · dsimp only
        rw [hs]
        rfl
    · rw [taken, hv]
      exact h
  unfold StationWork.keptMeasurement
  dsimp only
  split
  · exact report _ rfl
  · exact report _ rfl
  · exact evaluation _ (by rw [StationWork.judgeTowers_carrier]; rfl)

theorem Work.keptMeasurement_tended (m : Measurement) (r t q d : Nat) {u : Work} (h : u.Tended) :
    (if u.keeps m then
      (u.onStation m.entry.station (StationWork.keptMeasurement m r t q d)).restoreCheck.examinePending else u).Tended := by
  split
  · next hk =>
    simp only [Plant.keeps, Bool.and_eq_true] at hk
    refine Work.examinePending_tended ((Work.restoreCheck_moves _).phase.trans h.running)
      (Work.restoreCheck_settled (h.settled.restored.congr rfl) fun v hv hp => ?_)
    have noisy := h.settled.quiesceOpen v hv hp
    simp only [Plant.quiesced, List.all_eq_false] at noisy ⊢
    obtain ⟨y, hy, hq⟩ := noisy
    refine ⟨y, hy, ?_⟩
    rw [Work.onStation_carrier]
    split
    · have measured := StationWork.keptMeasurement_measured m r t q d (u.toPlant.ctx m.entry.station)
        { toStationUnit := u.stations.get m.entry.station, out := [] } hk.1
      intro hquiet
      simp only [Carrier.quiet, Bool.and_eq_true, beq_iff_eq] at hquiet
      rw [hquiet.1] at measured
      cases measured
    · exact hq
  · exact h

theorem Work.measured_tended (r t : Nat) (q d : List Nat) {w : Work} (h : w.Tended) : (w.measured r t q d).Tended := by
  have scanned {v : Work} (hv : v.Tended) : v.recomputeScan.Tended := by
    unfold Work.recomputeScan
    dsimp only
    split <;> exact hv.congr_stations rfl rfl rfl rfl rfl
  unfold Work.measured
  split
  · exact h
  · next m _ =>
    have finished : Plant.Tended { (w.reach m.due).toPlant with measurement := none } := h.congr_stations rfl rfl rfl rfl rfl
    exact scanned (Work.keptMeasurement_tended m _ _ _ _ (u := { w.reach m.due with measurement := none }) finished)

/-! ### The schedule and the store -/

theorem Work.submit_tended (x : Station) (target : Nat) (source : Source) {w : Work} (h : w.Tended) :
    (w.submit x target source).1.Tended :=
  Work.examinePending_tended ((Work.checkRequest_moves x target source w).phase.trans h.running)
    (Work.checkRequest_settled x target source h.settled)

theorem Work.evaluate_tended (minuteTick : Bool) {w : Work} (h : w.Tended) : (w.evaluate minuteTick).Tended := by
  have fired (x : Station) (target : Nat) (o : Occurrence) {w : Work} (h : w.Tended) : (w.fire x target o).Tended := by
    unfold Work.fire
    dsimp only
    split
    · exact (Work.submit_tended x target _ h).congr_stations rfl rfl rfl rfl rfl
    · exact Work.submit_tended x target _ h
  have evaluated (m : Memory) (r : Reading) (x : Station) {w : Work} (h : w.Tended) :
      (Work.evaluateStation m r x w).Tended := by
    have tested (present : Recorded) : (w.testOverride x present).Tended := h.congr_stations rfl rfl rfl rfl rfl
    unfold Work.evaluateStation
    dsimp only
    split
    · exact tested _
    · split
      · exact fired _ _ _ (tested _)
      · exact tested _
  have deal (m : Memory) (r : Reading) (x : Station) {w : Work} (h : w.Tended) :
      (Work.evaluateStation m r x (if minuteTick then w.decreaseHold x else w)).Tended := by
    refine evaluated m r x ?_
    split
    · exact h.congr_stations rfl rfl rfl rfl rfl
    · exact h
  unfold Work.evaluate
  split
  · exact deal _ _ .B (deal _ _ .A h)
  · exact h

theorem Work.tickClock_tended (admits : Reading → Bool) {w : Work} (h : w.Tended) : (w.tickClock admits).Tended := by
  unfold Work.tickClock
  split
  · next r due _ _ =>
    split
    · unfold Work.clockTick
      split
      · exact h.congr_stations rfl rfl rfl rfl rfl
      · next n _ =>
        have on : Plant.Tended
            { (w.reach due).toPlant with clock := some n, clockTimer := some (due + Config.seconds 1) } :=
          h.congr_stations rfl rfl rfl rfl rfl
        dsimp only
        split
        · exact Work.evaluate_tended true (w :=
            { w.reach due with clock := some n, clockTimer := some (due + Config.seconds 1) }) on
        · exact on
    · exact h
  · exact h

/-- A write that starts changes the store's own fields. -/
theorem Work.startNextWrite_frame (w : Work) : w.startNextWrite.phase = w.phase ∧ w.startNextWrite.stations = w.stations ∧
    w.startNextWrite.transition = w.transition ∧ w.startNextWrite.pendingList = w.pendingList := by
  unfold Work.startNextWrite
  split
  · next job rest _ _ => cases job <;> exact ⟨rfl, rfl, rfl, rfl⟩
  · exact ⟨rfl, rfl, rfl, rfl⟩

theorem Work.completeWrite_frame (w : Work) : w.completeWrite.phase = w.phase ∧ w.completeWrite.stations = w.stations ∧
    w.completeWrite.transition = w.transition ∧ w.completeWrite.pendingList = w.pendingList := by
  unfold Work.completeWrite
  split
  · exact ⟨rfl, rfl, rfl, rfl⟩
  · next g _ =>
    obtain ⟨job, due⟩ := g
    cases job <;> exact Work.startNextWrite_frame _

/-- A last-state write that completes leaves the image writes as they were. -/
theorem Work.completeWrite_imageWritePending {w : Work} (h : w.writes false = true) :
    w.completeWrite.imageWritePending = w.imageWritePending := by
  cases hw : w.writing with
  | none => simp [Plant.writes, hw] at h
  | some g =>
    obtain ⟨job, due⟩ := g
    cases job with
    | image bytes => simp [Plant.writes, hw, WriteJob.isImage] at h
    | lastState content =>
      unfold Work.completeWrite
      simp only [hw]
      rw [Work.startNextWrite_imageWritePending]
      simp [Plant.imageWritePending, hw, WriteJob.isImage]

theorem Work.loadExpired_tended {w : Work} (h : w.Tended) : w.loadExpired.Tended := by
  unfold Work.loadExpired
  split <;> exact h.congr_stations rfl rfl rfl rfl rfl

theorem Work.storePortReset_tended (x : Station) {w : Work} (h : w.Tended) : (w.storePortReset x).Tended := by
  unfold Work.storePortReset
  dsimp only
  split <;> exact h.congr_stations rfl rfl rfl rfl rfl

theorem Work.commit_tended (x : Station) {w : Work} (h : w.Tended) (he : w.pendingList = []) : (w.commit x).Tended := by
  obtain ⟨v, hv⟩ : ∃ v : Work, v = ((w.activate w.loadBuffer).firstDefaults w.image w.loadBuffer) := ⟨_, rfl⟩
  have fields : v.phase = w.phase ∧ v.stations = w.stations ∧ v.transition = w.transition ∧ v.pendingList = w.pendingList := by
    rw [hv]
    unfold Work.firstDefaults
    split <;> exact ⟨rfl, rfl, rfl, rfl⟩
  obtain ⟨h1, h2, h3, h4⟩ := fields
  obtain ⟨k1, k2, k3, k4⟩ := Work.startNextWrite_frame
    { v.clearHolds.closeReadbacks.freeSlot with
      writeQueue := v.clearHolds.closeReadbacks.freeSlot.writeQueue ++ [.image v.clearHolds.closeReadbacks.loadBuffer] }
  unfold Work.commit
  dsimp only
  rw [← hv]
  refine Work.evaluate_tended false ?_
  rw [Work.postAll_toPlant]
  exact ⟨k1.trans (h1.trans h.running), .inl (k4.trans (h4.trans he)),
    h.settled.congr_stations (k3.trans h3) (k2.trans h2)⟩

/-! ### Requests -/

theorem Work.consentReply_tended (x : Station) (tag answer : Nat) {w : Work} (h : w.Tended) :
    (w.consentReply x tag answer).1.Tended := by
  unfold Work.consentReply
  split
  · exact h
  · split
    · exact h
    · split
      · exact h
      · split
        · exact Work.examinePending_tended ((Work.takeGrant_moves w).phase.trans h.running)
            (Work.takeGrant_settled h.settled.restored)
        · exact Work.examinePending_tended ((Work.takeDefer_moves x _ w).phase.trans h.running)
            (Work.takeDefer_settled x _ h.settled)

/-- An entry that leaves the list starts nothing (R24, R47). -/
theorem Work.dropPending_tended (x : Station) (result : Result) {w : Work} (h : w.Tended) :
    (w.dropPending x result).Tended := by
  have waiting : (w.dropPending x result).Waiting := by
    unfold Work.dropPending
    split
    · exact h.waiting
    · unfold Work.endPending Work.reportEnd
      refine h.waiting.imp (fun he => ?_) fun hc => ?_
      · split <;> simp [he]
      · split <;> exact hc
  exact ⟨(Work.dropPending_moves x result w).phase.trans h.running, waiting, Work.dropPending_settled x result h.settled⟩

theorem Work.withdraw_tended (x : Station) {w : Work} (h : w.Tended) : (w.withdraw x).1.Tended := by
  unfold Work.withdraw
  split
  · exact Work.dropPending_tended x _ h
  · split
    · split
      · exact Work.examinePending_tended ((Work.withdrawActive_moves _ w).phase.trans h.running)
          (Work.withdrawActive_settled _ h.settled)
      · exact h
    · exact h

theorem Work.release_tended (x : Station) (index : Nat) {w : Work} (h : w.Tended) : (w.release x index).1.Tended := by
  have carried (k : ContactorNo) : (w.carryRelease k).1.Tended := by
    unfold Work.carryRelease
    split
    · exact h
    · split
      · unfold Work.postFault
        dsimp only
        rw [Work.postAll_toPlant]
        exact h.congr_stations rfl rfl rfl rfl rfl
      · exact h
  unfold Work.release
  split
  · exact h
  · next k _ =>
    split_ifs
    · exact h
    · exact h
    · exact h
    · exact h
    · exact carried k

theorem act_tended (x : Station) (dropped : Nat) (r : Request) {w : Work} (h : w.Tended) :
    (act x dropped r w).1.Tended := by
  cases r with
  | patternRequest target => exact Work.submit_tended x _ _ h
  | withdraw => exact Work.withdraw_tended x h
  | consentReply tag answer => exact Work.consentReply_tended x _ _ h
  | contactorRelease index => exact Work.release_tended x _ h
  | statusQuery => exact h
  | monitorQuery => exact h
  | contactorQuery => exact h
  | readbackBlock index => exact h
  | consentPolicy policy =>
    rw [act_consentPolicy]
    repeat' split
    all_goals exact h.congr_stations rfl rfl rfl rfl rfl
  | schedulePolicy policy =>
    rw [act_schedulePolicy]
    repeat' split
    all_goals exact h.congr_stations rfl rfl rfl rfl rfl
  | clockSet year day hour minute second =>
    simp only [act, actClockSet, Work.setClock]
    split
    · refine Work.evaluate_tended false ?_
      rw [Work.postAll_toPlant]
      exact h.congr_stations rfl rfl rfl rfl rfl
    · exact h
  | clockQuery =>
    simp only [act, actClockQuery]
    split <;> exact h
  | loadOpen size =>
    simp only [act, actLoadOpen, Work.loadOpen]
    repeat' split
    all_goals exact h.congr_stations rfl rfl rfl rfl rfl
  | loadBlock index data =>
    simp only [act, actLoadBlock, Work.loadBlock]
    repeat' split
    all_goals exact h.congr_stations rfl rfl rfl rfl rfl
  | loadCommit =>
    simp only [act, actLoadCommit, Work.loadCommit]
    split
    · split
      · exact h
      · split
        · exact h
        · next hb =>
          split
          · exact h
          · split
            · exact h
            · refine Work.commit_tended x h ?_
              simp only [Bool.or_eq_true, not_or, Bool.not_eq_true, Bool.not_eq_false', List.isEmpty_iff] at hb
              exact hb.1.2
    · exact h
  | loadCancel =>
    simp only [act, actLoadCancel, Work.loadCancel]
    split <;> exact h.congr_stations rfl rfl rfl rfl rfl
  | readbackOpen size =>
    simp only [act, actReadbackOpen, Work.readbackOpen]
    split <;> exact h.congr_stations rfl rfl rfl rfl rfl

theorem tended_linkKept : LinkKept fun s => s.Tended :=
  linkKept_of_plant (P := Plant.Tended) fun x body s h _ => by
    unfold State.handOn
    split
    · exact State.event_tended _ s (act_tended x _ _ h)
    · exact h

end Machine
end Sys2Proof

/-! PROOFS. NothingIsLeftUndone, put together: a part out of service stays so until start-up, start-up leaves a part in service
with nothing undone, and so does every command to one in service (R153, R154). -/
namespace Sys2Proof
namespace Machine

/-! ### A part out of service -/

/-- The part is held, or in the start-up wait, and out of service (R153, R154). -/
structure Plant.Waits (p : Plant) : Prop where
  phase : p.phase ≠ .running
  out : p.OutOfService

/-- A change that leaves the phase and what being out of service speaks of. -/
theorem Plant.Waits.congr {p p' : Plant} (h : p.Waits) (hp : p'.phase = p.phase) (hi : p'.image = p.image)
    (hs : ∀ x, (p.carrier x).state = .dark → (p'.carrier x).state = .dark) (hd : p'.driver = p.driver)
    (ht : p'.transition = p.transition) (hl : p'.pendingList = p.pendingList) (hm : p'.measurement = p.measurement)
    (hc : p'.clock = p.clock) (hw : p'.writing = p.writing) (hq : p'.writeQueue = p.writeQueue) : p'.Waits :=
  ⟨by rw [hp]; exact h.phase,
    hi.trans h.out.image, fun x => hs x (h.out.dark x), hd.trans h.out.driver, ht.trans h.out.transition,
    hl.trans h.out.pendingList, hm.trans h.out.measurement, hc.trans h.out.clock, hw.trans h.out.writing,
    hq.trans h.out.writeQueue⟩

/-- An operation of a station's units that leaves a DARK station DARK. -/
theorem Work.onStation_waits (x : Station) (f : Ctx → StationWork → StationWork) {w : Work} (h : w.Waits)
    (hf : ∀ c u, u.carrier.state = .dark → (f c u).carrier.state = .dark) : (w.onStation x f).Waits := by
  refine h.congr rfl rfl (fun y hy => ?_) rfl rfl rfl rfl rfl rfl rfl
  rw [Work.onStation_carrier]
  split
  · next hx => exact hf _ _ (by rw [hx] at hy; exact hy)
  · exact hy

/-- With no station measured the scan list is empty, and no measurement begins (R95, R96). -/
theorem State.event_waits (f : Work → Work) (s : State) (h : (f s.work).Waits) : (s.event f).Waits := by
  have unmeasured (x : Station) : (f s.work).scanEntries x = [] := by
    unfold Plant.scanEntries
    rw [h.out.dark x]
    rfl
  have empty : (f s.work).calledList = [] := by
    unfold Plant.calledList
    rw [unmeasured, unmeasured]
    rfl
  rw [State.event_toPlant]
  unfold Work.settleScan
  split
  · unfold Work.recomputeScan
    dsimp only
    rw [empty]
    have nothing : nextEntry (f s.work).lastEntry [] = none := by unfold nextEntry; split <;> rfl
    rw [nothing]
    exact h.congr rfl rfl (fun _ hx => hx) rfl rfl rfl rfl rfl rfl rfl
  · exact h

theorem Work.whenDue_waits (t : Timer) (f : Work → Work) {w : Work} (h : w.Waits)
    (hf : ∀ due, (w.reach due).Waits → (f (w.reach due)).Waits) : (w.whenDue t f).Waits := by
  unfold Work.whenDue
  split
  · exact h
  · next due => exact hf due (h.congr rfl rfl (fun _ hx => hx) rfl rfl rfl rfl rfl rfl rfl)

/-- Out of service the Transition Engine has nothing to do. -/
theorem Work.examinePending_of_empty {w : Work} (h : w.pendingList = []) : w.examinePending = w :=
  w.examinePending_waiting (.inl h)

theorem Work.quiesceCheck_of_idle {w : Work} (h : w.transition = none) : w.quiesceCheck = w := by
  unfold Work.quiesceCheck
  rw [h]

theorem Work.restoreCheck_of_idle {w : Work} (h : w.transition = none) : w.restoreCheck = w := by
  unfold Work.restoreCheck
  rw [h]

theorem waits_linkKept : LinkKept fun s => s.Waits :=
  linkKept_of_plant (P := Plant.Waits) fun _ _ _ h hr => absurd hr h.phase

theorem Work.tickRamp_waits (x : Station) {w : Work} (h : w.Waits) : (w.tickRamp x).Waits := by
  unfold Work.tickRamp
  split
  · exact h
  · next due _ =>
    have ticked : Plant.Waits ((w.reach due).onStation x fun c u =>
        StationWork.rampTick c { u with carrier := { u.carrier with rampTimer := some (due + Config.rampTick) } }).toPlant := by
      refine Work.onStation_waits x _ (h.congr rfl rfl (fun _ hx => hx) rfl rfl rfl rfl rfl rfl rfl) fun c u hu => ?_
      unfold StationWork.rampTick
      dsimp only
      split
      · exact hu
      · rw [if_neg (by rw [hu]; simp)]
        exact hu
    unfold Work.rampTick
    dsimp only
    rw [Work.quiesceCheck_of_idle ticked.out.transition, Work.restoreCheck_of_idle ticked.out.transition,
      Work.examinePending_of_empty ticked.out.pendingList]
    exact ticked

/-- Every command but START_UP leaves a part that is out of service so. -/
theorem exec_waits (c : Instr) (s t : State) (he : exec c s = .next t) (h : s.Waits) (hc : c ≠ .startUp) : t.Waits := by
  have event (f : Work → Work) (hf : (f s.work).Waits) : (s.event f).Waits := State.event_waits f s hf
  have L := waits_linkKept
  have inert : s.work.Waits := h
  have dark (x : Station) : (s.work.carrier x).state = .dark := h.out.dark x
  have idle : s.work.transition = none := h.out.transition
  have still : s.work.driver = none := h.out.driver
  cases c <;> simp only [exec] at he
  case startUp => exact absurd rfl hc
  case powerOn => cases he; exact ⟨by simp [State.wholeReset], ⟨rfl, fun x => by cases x <;> rfl, rfl, rfl, rfl, rfl, rfl, rfl, rfl⟩⟩
  case resetLine => cases he; exact ⟨by simp [State.wholeReset], ⟨rfl, fun x => by cases x <;> rfl, rfl, rfl, rfl, rfl, rfl, rfl, rfl⟩⟩
  case resetEnd =>
    unfold execResetEnd at he
    cases he
    split
    · next kind _ =>
      refine ⟨fun hr => absurd hr (by unfold State.endReset; simp), h.out.image, fun x => ?_, h.out.driver, h.out.transition, h.out.pendingList,
        h.out.measurement, h.out.clock, h.out.writing, h.out.writeQueue⟩
      cases x
      · exact h.out.dark .A
      · exact h.out.dark .B
    · exact h
    · exact h
  case consentWaitTimerExpiry =>
    cases he
    refine event _ ?_
    rw [if_neg (by unfold Plant.awaitsConsent; rw [idle]; simp)]
    exact inert
  case deferTimerExpiry =>
    cases he
    refine event _ ?_
    rw [if_neg (by unfold Plant.awaitsConsent; rw [idle]; simp)]
    exact inert
  case muteTimerExpiry x =>
    cases he
    refine event _ (Work.whenDue_waits _ _ inert fun due hw => ?_)
    have stopped := Work.onStation_waits x StationWork.stopMuteTimer hw fun _ _ hu => hu
    unfold Work.muteExpiry
    dsimp only
    rw [stopped.out.transition]
    exact stopped
  case rampTick x => cases he; exact event _ (Work.tickRamp_waits x inert)
  case pulseTimeEnd =>
    cases he
    refine event _ ?_
    unfold Work.endPulse
    rw [still]
    exact inert
  case settleTimeEnd =>
    cases he
    refine event _ ?_
    unfold Work.endSettle
    rw [still]
    dsimp only
    rw [Work.examinePending_of_empty inert.out.pendingList]
    exact inert
  case debounceEvent =>
    unfold execDebounceEvent at he
    split at he
    · cases he
    · cases he
      refine event _ ?_
      unfold Work.debounce
      dsimp only
      split
      · exact inert
      · exact inert.congr rfl rfl (fun _ hx => hx) rfl rfl rfl rfl rfl rfl rfl
      · next hr => exact absurd hr h.phase
  case rfPresentEvent x active =>
    cases he
    refine event _ ?_
    unfold Work.rfPresent
    split
    · exact inert
    · exact Work.onStation_waits x _ inert fun _ _ hu => hu
    · next hr => exact absurd hr h.phase
  case measurementCompletion =>
    cases he
    refine event _ ?_
    unfold Work.measured
    have : s.work.measurement = none := h.out.measurement
    rw [this]
    exact inert
  case verifyTimerExpiry x =>
    cases he
    refine event _ ?_
    rw [if_neg (by rw [dark]; simp)]
    exact inert
  case outOfToleranceHoldExpiry x =>
    cases he
    refine event _ ?_
    rw [if_neg (by rw [dark]; simp)]
    exact inert
  case staleTimerExpiry x tower =>
    unfold execStaleTimerExpiry at he
    split at he
    · cases he
    · next i _ =>
      cases he
      refine event _ (Work.whenDue_waits _ _ inert fun due hw => Work.onStation_waits x _ hw fun c u hu => ?_)
      unfold StationWork.staleExpiry
      split
      · exact hu
      · rw [(StationWork.statusReport_keeps c _).2]
        exact hu
  case siteClockTick =>
    cases he
    refine event _ ?_
    unfold Work.tickClock
    have : s.work.clock = none := h.out.clock
    rw [this]
    exact inert
  case minuteTick =>
    cases he
    refine event _ ?_
    unfold Work.tickClock
    have : s.work.clock = none := h.out.clock
    rw [this]
    exact inert
  case loadIdleTimerExpiry =>
    cases he
    refine event _ (Work.whenDue_waits _ _ inert fun due hw => ?_)
    unfold Work.loadExpired
    split <;> exact hw.congr rfl rfl (fun _ hx => hx) rfl rfl rfl rfl rfl rfl rfl
  case imageWriteCompletion =>
    cases he
    refine event _ ?_
    rw [if_neg (by simp [Plant.writes, h.out.writing])]
    exact inert
  case lastStateWriteCompletion =>
    cases he
    refine event _ ?_
    rw [if_neg (by simp [Plant.writes, h.out.writing])]
    exact inert
  case characterReceived x b stopLow => cases he; exact L.receiveChar x b stopLow s h
  case gapTimerExpiry x =>
    unfold execGapTimerExpiry at he
    cases he
    split
    · exact h
    · exact h.congr rfl rfl (fun _ hx => hx) rfl rfl rfl rfl rfl rfl rfl
  case breakEvent x =>
    unfold execBreak at he
    cases he
    split
    · refine event _ ?_
      unfold Work.storePortReset
      dsimp only
      split <;> exact inert.congr rfl rfl (fun _ hx => hx) rfl rfl rfl rfl rfl rfl rfl
    · exact h
  case characterTransmitted x =>
    unfold execCharacterTransmitted at he
    cases he
    split
    · exact h
    · exact L.resume x _ (h.congr rfl rfl (fun _ hx => hx) rfl rfl rfl rfl rfl rfl rfl)
  case frameTransmissionStart x =>
    unfold execFrameTransmissionStart at he
    cases he
    split <;> exact h
  case lineReturnHigh x => cases he; exact h
  case powerReferencePeriodStart x =>
    cases he
    refine event _ ?_
    unfold Work.tickPeriod
    split
    · exact inert
    · next due _ =>
      exact Work.onStation_waits x _ (w := s.work.reach due)
        (inert.congr rfl rfl (fun _ hx => hx) rfl rfl rfl rfl rfl rfl rfl) fun _ _ hu => hu
  all_goals (cases he; exact L.receiveFrame _ _ s h)

/-! ### Start-up -/

/-- The patterns and the raises of start-up leave the phase, the transition and the requests alone. -/
theorem Work.startConfigured_idle (kind : ResetKind) (m : Memory) {w : Work} (hr : w.phase = .running)
    (ht : w.transition = none) (hl : w.pendingList = []) :
    (w.startConfigured kind m).phase = .running ∧ (w.startConfigured kind m).transition = none ∧
      (w.startConfigured kind m).pendingList = [] := by
  unfold Work.startConfigured
  dsimp only
  generalize (w.activate m).startChoices w.lastRecord = choices
  obtain ⟨u, hu⟩ : ∃ u, u = ((w.activate m).setBoth choices).handLastState false := ⟨_, rfl⟩
  obtain ⟨v, hv⟩ : ∃ v, v = (u.takeDefaults m).clearHolds.announceStartUp kind w.lastRecord.interrupted := ⟨_, rfl⟩
  have handed : u.phase = .running ∧ u.transition = none ∧ u.pendingList = [] := by
    rw [hu, Work.handLastState_eq]
    exact ⟨hr, ht, hl⟩
  have announced : v.phase = .running ∧ v.transition = none ∧ v.pendingList = [] := by
    rw [hv]
    unfold Work.announceStartUp
    rw [Work.postAll_toPlant]
    exact handed
  rw [← hu, ← hv]
  obtain ⟨phase, transition, list⟩ := announced
  refine ⟨(Work.carryBoth_moves choices v).phase.trans phase, ?_, ?_⟩
  · unfold Work.carryBoth
    rw [Work.carryResolved_transition, Work.carryResolved_transition]
    exact transition
  · exact ((Work.carryResolved_keepsRequests .A choices.a v).trans
      (Work.carryResolved_keepsRequests .B choices.b _)).pendingList.trans list

/-- Start-up brings the part into service with nothing pending and no transition active (R154). -/
theorem Work.startUp_tended (kind : ResetKind) {w : Work} (h : w.Waits) : (Work.startUp kind w).Tended := by
  have idle (v : Work) (hv : v.phase = .running ∧ v.transition = none ∧ v.pendingList = []) : v.Tended :=
    ⟨hv.1, .inl hv.2.2, Plant.settled_of_idle hv.2.1⟩
  have read : w.readRecords.phase = .running ∧ w.readRecords.transition = none ∧ w.readRecords.pendingList = [] :=
    ⟨rfl, h.out.transition, h.out.pendingList⟩
  unfold Work.startUp
  generalize w.readRecords = v at read ⊢
  refine Work.evaluate_tended false ?_
  split
  · exact idle _ (Work.startConfigured_idle kind _ read.1 read.2.1 read.2.2)
  · refine idle _ ?_
    unfold Work.startUnconfigured Work.announceStartUp
    rw [Work.postAll_toPlant]
    exact read

/-- The frames held through start-up, handed on, keep what a link keeps. -/
theorem State.resumeBoth_kept {P : State → Prop} (L : LinkKept P) {s : State} (h : P s)
    (hd : P { s with freeDraws := s.freeDraws + 1 }) : P s.resumeBoth := by
  unfold State.resumeBoth
  dsimp only
  split
  · split
    · exact L.resume .A _ (L.resume .B _ hd)
    · exact L.resume .B _ (L.resume .A _ hd)
  · exact L.resume .B _ (L.resume .A _ h)

theorem execStartUp_kept (s t : State) (he : execStartUp s = .next t) (h : s.Waits) : t.Waits ∨ t.Tended := by
  unfold execStartUp at he
  cases he
  split
  · next kind _ =>
    have resume (u : State) (hu : u.Waits ∨ u.Tended) : u.resumeBoth.Waits ∨ u.resumeBoth.Tended := by
      rcases hu with hu | hu
      · exact .inl (State.resumeBoth_kept waits_linkKept hu (hu.congr rfl rfl (fun _ hx => hx) rfl rfl rfl rfl rfl rfl rfl))
      · exact .inr (State.resumeBoth_kept tended_linkKept hu (hu.congr_stations rfl rfl rfl rfl rfl))
    refine resume _ ?_
    cases hd : s.work.startUpTimer with
    | none => exact .inl (State.event_waits _ s (by rw [hd]; exact h))
    | some due =>
      refine .inr (State.event_tended _ s ?_)
      rw [hd]
      exact Work.startUp_tended kind (h.congr rfl rfl (fun _ hx => hx) rfl rfl rfl rfl rfl rfl rfl)
  · exact .inl h
  · exact .inl h

/-! ### A part in service -/

theorem StationWork.superviseHold_quietness (c : Ctx) (before : Status) (w : StationWork) :
    (w.superviseHold c before).carrier.state = w.carrier.state ∧
      (w.superviseHold c before).carrier.muteConfirmed = w.carrier.muteConfirmed := by
  unfold StationWork.superviseHold
  repeat' split
  all_goals exact ⟨rfl, rfl⟩

theorem StationWork.statusReport_quietness (c : Ctx) (w : StationWork) :
    (w.statusReport c).carrier.state = w.carrier.state ∧
      (w.statusReport c).carrier.muteConfirmed = w.carrier.muteConfirmed := by
  unfold StationWork.statusReport StationWork.takeStatus
  dsimp only
  split
  · exact ⟨rfl, rfl⟩
  · have notified := StationWork.notifyStatus_alike
    have held := StationWork.superviseHold_quietness c w.carrier.lastStatus
    exact ⟨(notified _).state.trans (held _).1, (notified _).muteConfirmed.trans (held _).2⟩

/-- A status report turns neither the carrier's state nor its muteness. -/
theorem StationWork.staleExpiry_quietness (i : TowerNo) (c : Ctx) (w : StationWork) :
    (w.staleExpiry i c).carrier.state = w.carrier.state ∧
      (w.staleExpiry i c).carrier.muteConfirmed = w.carrier.muteConfirmed := by
  unfold StationWork.staleExpiry
  split
  · exact ⟨rfl, rfl⟩
  · exact StationWork.statusReport_quietness c _

theorem Work.noConsent_tended {w : Work} (h : w.Tended) : w.noConsent.Tended :=
  Work.examinePending_tended ((Work.endTransition_moves _ w).phase.trans h.running) (Work.endTransition_settled _ w)

/-- Every command keeps a part in service tended, or resets it. -/
theorem exec_tended (c : Instr) (s t : State) (he : exec c s = .next t) (h : s.Tended) : t.Waits ∨ t.Tended := by
  have event (f : Work → Work) (hf : (f s.work).Tended) : (s.event f).Waits ∨ (s.event f).Tended :=
    .inr (State.event_tended f s hf)
  have L := tended_linkKept
  have tended : s.work.Tended := h
  have running : s.phase = .running := h.running
  cases c <;> simp only [exec] at he
  case powerOn => cases he; exact .inl ⟨by simp [State.wholeReset], ⟨rfl, fun x => by cases x <;> rfl, rfl, rfl, rfl, rfl, rfl, rfl, rfl⟩⟩
  case resetLine => cases he; exact .inl ⟨by simp [State.wholeReset], ⟨rfl, fun x => by cases x <;> rfl, rfl, rfl, rfl, rfl, rfl, rfl, rfl⟩⟩
  case resetEnd =>
    unfold execResetEnd at he
    cases he
    rw [running]
    exact .inr h
  case startUp =>
    unfold execStartUp at he
    cases he
    rw [running]
    exact .inr h
  case consentWaitTimerExpiry =>
    cases he
    refine event _ ?_
    split
    · exact Work.whenDue_tended _ _ tended fun _ hw => Work.noConsent_tended hw
    · exact tended
  case deferTimerExpiry =>
    cases he
    refine event _ ?_
    split
    · exact Work.whenDue_tended _ _ tended fun _ hw => Work.noConsent_tended hw
    · exact tended
  case muteTimerExpiry x =>
    cases he
    exact event _ (Work.whenDue_tended _ _ tended fun _ hw => Work.muteExpiry_tended x hw)
  case rampTick x => cases he; exact event _ (Work.tickRamp_tended x tended)
  case pulseTimeEnd => cases he; exact event _ (Work.endPulse_tended tended)
  case settleTimeEnd =>
    cases he
    exact event _ (Work.examinePending_tended ((Work.endSettle_phase _).trans running) (Work.endSettle_settled tended.settled))
  case debounceEvent =>
    unfold execDebounceEvent at he
    split at he
    · cases he
    · cases he
      exact event _ (Work.debounce_tended _ _ _ tended)
  case rfPresentEvent x active => cases he; exact event _ (Work.rfPresent_tended x active tended)
  case measurementCompletion => cases he; exact event _ (Work.measured_tended _ _ _ _ tended)
  case verifyTimerExpiry x =>
    cases he
    refine event _ ?_
    split
    · next hv => exact Work.whenDue_tended _ _ tended fun _ hw => Work.verifyExpiry_tended x hw hv
    · exact tended
  case outOfToleranceHoldExpiry x =>
    cases he
    refine event _ ?_
    split
    · next hn => exact Work.whenDue_tended _ _ tended fun _ hw => Work.outOfTolerance_tended x hw hn
    · exact tended
  case staleTimerExpiry x tower =>
    unfold execStaleTimerExpiry at he
    split at he
    · cases he
    · next i _ =>
      cases he
      refine event _ (Work.whenDue_tended _ _ tended fun due hw => Work.onStation_tended x _ hw ?_)
      exact StationWork.staleExpiry_quietness i _ _
  case siteClockTick => cases he; exact event _ (Work.tickClock_tended _ tended)
  case minuteTick => cases he; exact event _ (Work.tickClock_tended _ tended)
  case loadIdleTimerExpiry =>
    cases he
    exact event _ (Work.whenDue_tended _ _ tended fun _ hw => Work.loadExpired_tended hw)
  case imageWriteCompletion =>
    cases he
    refine event _ ?_
    split
    · obtain ⟨phase, stations, transition, _⟩ := s.work.completeWrite_frame
      exact Work.examinePending_tended (phase.trans running) (tended.settled.congr_stations transition stations)
    · exact tended
  case lastStateWriteCompletion =>
    cases he
    refine event _ ?_
    split
    · next hw =>
      obtain ⟨phase, stations, transition, list⟩ := s.work.completeWrite_frame
      exact tended.congr_stations phase transition list (Work.completeWrite_imageWritePending hw) stations
    · exact tended
  case characterReceived x b stopLow => cases he; exact .inr (L.receiveChar x b stopLow s h)
  case gapTimerExpiry x =>
    unfold execGapTimerExpiry at he
    cases he
    split
    · exact .inr h
    · exact .inr (h.congr_stations rfl rfl rfl rfl rfl)
  case breakEvent x =>
    unfold execBreak at he
    cases he
    split
    · exact event _ (Work.storePortReset_tended x tended)
    · exact .inr h
  case characterTransmitted x =>
    unfold execCharacterTransmitted at he
    cases he
    split
    · exact .inr h
    · exact .inr (L.resume x _ (h.congr_stations rfl rfl rfl rfl rfl))
  case frameTransmissionStart x =>
    unfold execFrameTransmissionStart at he
    cases he
    split <;> exact .inr h
  case lineReturnHigh x => cases he; exact .inr h
  case powerReferencePeriodStart x =>
    cases he
    refine event _ ?_
    unfold Work.tickPeriod
    split
    · exact tended
    · next due _ =>
      exact Work.onStation_tended x _ (w := s.work.reach due) (tended.congr_stations rfl rfl rfl rfl rfl) ⟨rfl, rfl⟩
  all_goals (cases he; exact .inr (L.receiveFrame _ _ s h))

/-- Settles O58: a part out of service stays so until start-up, which leaves it tended, and a tended part stays so until a
reset. -/
theorem nothingIsLeftUndone : Obligations.NothingIsLeftUndone := by
  intro s t held waiting settled he
  have open_ {p : Plant} (h : p.Waits ∨ p.Tended) : p.HeldUntilStarted ∧ p.Waiting ∧ p.Settled := by
    rcases h with h | h
    · exact ⟨fun _ => h.out, .inl h.out.pendingList, Plant.settled_of_idle h.out.transition⟩
    · exact ⟨fun hp => absurd h.running hp, h.waiting, h.settled⟩
  unfold step at he
  split at he
  · cases he
    have out (h : s.OutOfService) : (idle s).OutOfService :=
      ⟨h.image, h.dark, h.driver, h.transition, h.pendingList, h.measurement, h.clock, h.writing, h.writeQueue⟩
    exact ⟨fun hp => out (held hp), waiting.congr rfl rfl rfl, settled.congr_stations rfl rfl⟩
  · next c rest _ =>
    refine open_ ?_
    by_cases running : s.phase = .running
    · exact exec_tended c { s with pending := rest } t he ⟨running, waiting, settled⟩
    · have waits : s.Waits := ⟨running, held running⟩
      by_cases start : c = .startUp
      · subst start
        exact execStartUp_kept { s with pending := rest } t he waits
      · exact .inl (exec_waits c { s with pending := rest } t he waits start)

end Machine
end Sys2Proof

/-! PROOFS. Requests of the Transition Engine that change at most the pending list, the consent timers and the move in progress:
pattern requests refused or left waiting (R22 to R24), withdraws (R47, R48) and consent replies (R31 to R33). -/
namespace Sys2Proof
namespace Machine

/-! ### The checks of a pattern request (R22) -/

theorem patternOfNumber?_eq_some {n : Nat} {q : PatternNo} : patternOfNumber? n = some q ↔ n = q.val + 1 := by
  unfold patternOfNumber?
  split
  · rw [Option.some.injEq, Fin.ext_iff]
    dsimp only
    omega
  · simp
    omega

theorem Plant.targetPattern?_eq_some {p : Plant} {x : Station} {n : Nat} {q : PatternNo} :
    p.targetPattern? x n = some q ↔ n = q.val + 1 ∧ (pattern p.activeImage x q).inUse = true := by
  unfold Plant.targetPattern?
  split
  · next r hr =>
    rw [patternOfNumber?_eq_some] at hr
    constructor
    · intro h
      split at h
      · next hu => exact (Option.some.inj h) ▸ ⟨hr, hu⟩
      · cases h
    · rintro ⟨hq, hu⟩
      have : r = q := Fin.ext (by omega)
      rw [this, if_pos hu]
  · next hn =>
    simp only [reduceCtorEq, false_iff]
    rintro ⟨hq, _⟩
    rw [patternOfNumber?_eq_some.2 hq] at hn
    cases hn

/-- The target names no pattern in use (R22 check 2). -/
theorem Plant.targetPattern?_eq_none {p : Plant} {x : Station} {n : Nat}
    (h : ∀ q : PatternNo, n = q.val + 1 → (pattern p.activeImage x q).inUse = false) : p.targetPattern? x n = none := by
  cases hq : p.targetPattern? x n with
  | none => rfl
  | some q =>
    obtain ⟨number, inUse⟩ := Plant.targetPattern?_eq_some.1 hq
    rw [h q number] at inUse
    cases inUse

theorem Carrier.onItsWay_iff (r : Carrier) : r.onItsWay = true ↔
    (r.state = .normal ∨ r.state = .verifying ∨ r.state = .raising ∨
      (r.state = .lowering ∧ ∃ ramp, r.ramp = some ramp ∧ ramp.purpose = .reduce)) := by
  unfold Carrier.onItsWay Carrier.loweringToFault
  cases r.ramp <;> simp [or_assoc]

theorem Plant.pendingOf_station {p : Plant} {x : Station} {e : PendingEntry} (h : p.pendingOf x = some e) : e.station = x := by
  simpa using List.find?_some h

theorem Work.dropPending_of_none {x : Station} {result : Result} {w : Work} (h : w.pendingOf x = none) :
    w.dropPending x result = w := by
  unfold Work.dropPending
  rw [h]

theorem Work.dropPending_of_some {x : Station} {result : Result} {w : Work} {e : PendingEntry} (h : w.pendingOf x = some e) :
    w.dropPending x result = Work.endPending e result { w with pendingList := w.pendingList.filter fun d => d.station != x } := by
  unfold Work.dropPending
  rw [h]

/-- An entry that leaves the list leaves no startable head behind. -/
theorem Work.dropPending_waiting (x : Station) (result : Result) {w : Work} (h : w.Waiting) :
    (w.dropPending x result).Waiting := by
  unfold Work.dropPending
  split
  · exact h
  · unfold Work.endPending Work.reportEnd
    rcases h with h | h
    · refine .inl ?_
      split <;> exact (congrArg (List.filter fun d : PendingEntry => d.station != x) h).trans rfl
    · refine .inr ?_
      split <;> exact h

section
variable {x : Station} {target : Byte} {s : State} (ready : s.Ready x)
include ready

/-- A pattern request on a ready link whose checks leave the list waiting: the work's records and notices, and the reply. -/
theorem exec_patternRequest {w : Work} {code : ReplyCode} {tag : Option Nat}
    (hc : s.work.checkRequest x target.toNat .manual = (w, code, tag)) (hw : w.Waiting)
    (hs : ∀ y, (w.stations.get y).scanStay = (s.stations.get y).scanStay) :
    exec (.patternRequest x target) s =
      .next ((State.deliver w.posts { s with toPlant := w.toPlant }).answered x 0x01 code (tag.map byteOf).toList) := by
  refine congrArg Host.Outcome.next (State.receiveRequest_eq (r := .patternRequest target) ready
    (reply := ⟨code, (tag.map byteOf).toList⟩) ?_ hs)
  simp only [act, actPatternRequest, Work.submit, hc, Work.examinePending_waiting w hw]

/-- One that the checks refuse with nothing changed. -/
theorem exec_patternRequest_refused {code : ReplyCode}
    (hc : s.work.checkRequest x target.toNat .manual = (s.work, code, none)) (hw : s.Waiting) :
    exec (.patternRequest x target) s = .next (s.answered x 0x01 code []) :=
  exec_patternRequest ready hc hw fun _ => rfl

end

/-- An entry of the list that ends SUPERSEDED brings its notice alone (R24, R144). -/
theorem Work.endPending_superseded (e : PendingEntry) (w : Work) :
    Work.endPending e .superseded w =
      w.post e.station (.transitionEnded e.tag e.station e.target e.source .superseded (w.active .A) (w.active .B)) := by
  unfold Work.endPending Work.reportEnd
  rw [if_neg (by simp [Result.spares])]

/-- Settles O10: the checks in their order. -/
theorem patternRequestRefused : Obligations.PatternRequestRefused := by
  intro x target s ready waiting
  refine ⟨fun image => exec_patternRequest_refused ready ?_ waiting,
    fun image unused => exec_patternRequest_refused ready ?_ waiting, fun q image number inUse => ?_⟩
  · unfold Work.checkRequest
    rw [if_pos (by simpa using image)]
  · unfold Work.checkRequest
    rw [if_neg (by simpa using image), Plant.targetPattern?_eq_none (p := s.work.toPlant) unused]
  have named : s.work.targetPattern? x target.toNat = some q := Plant.targetPattern?_eq_some.2 ⟨number, inUse⟩
  have configured : ¬s.work.image.isNone = true := by simpa using image
  refine ⟨fun owns => exec_patternRequest_refused ready ?_ waiting, fun owns active way => ?_⟩
  · unfold Work.checkRequest
    rw [if_neg configured, named]
    exact if_pos owns
  have onItsWay : s.work.active x = some q ∧ (s.work.carrier x).onItsWay = true :=
    ⟨active, (Carrier.onItsWay_iff _).2 way⟩
  have dropped : s.work.checkRequest x target.toNat .manual = (s.work.dropPending x .superseded, .alreadyActive, none) := by
    unfold Work.checkRequest
    rw [if_neg configured, named]
    exact (if_neg (by simpa using owns)).trans (if_pos onItsWay)
  constructor
  · intro none_pending
    rw [Work.dropPending_of_none (w := s.work) none_pending] at dropped
    exact exec_patternRequest_refused ready dropped waiting
  · intro e pending
    have left : s.work.dropPending x .superseded =
        Work.post x (.transitionEnded e.tag x e.target e.source .superseded (s.active .A) (s.active .B))
          { s.work with pendingList := s.pendingList.filter fun d => d.station != x } := by
      rw [Work.dropPending_of_some (w := s.work) pending, Work.endPending_superseded, Plant.pendingOf_station pending]
      rfl
    have kept := Work.dropPending_waiting x .superseded (w := s.work) waiting
    rw [left] at dropped kept
    exact exec_patternRequest ready dropped kept fun _ => rfl

/-! ### A pattern request left waiting (R22 to R24) -/

/-- A request that the four checks let pass is accepted (R22 step 5). -/
theorem Work.checkRequest_passed {x : Station} {n : Nat} {q : PatternNo} {w : Work} (image : w.image ≠ none)
    (number : n = q.val + 1) (inUse : (pattern w.activeImage x q).inUse = true) (owns : w.owns x = false)
    (way : ¬(w.active x = some q ∧ (w.carrier x).onItsWay = true)) :
    w.checkRequest x n .manual = (w.acceptRequest x q .manual, .accepted, some w.tagToGive) := by
  have named : w.targetPattern? x n = some q := Plant.targetPattern?_eq_some.2 ⟨number, inUse⟩
  unfold Work.checkRequest
  rw [if_neg (by simpa using image), named]
  exact (if_neg (by simpa using owns)).trans (if_neg way)

/-- An accepted request joins the tail of the list (R24). -/
theorem Work.acceptRequest_joins {x : Station} {q : PatternNo} {w : Work} (h : w.pendingOf x = none) :
    w.acceptRequest x q .manual =
      { w.accepted x with pendingList := w.pendingList ++ [⟨w.tagToGive, x, q, .manual⟩] } := by
  have entered (v : Work) (hv : v.pendingOf x = none) (tag : Nat) :
      v.enterPending ⟨tag, x, q, .manual⟩ = { v with pendingList := v.pendingList ++ [⟨tag, x, q, .manual⟩] } := by
    unfold Work.enterPending
    rw [hv]
  unfold Work.acceptRequest
  dsimp only
  rw [entered { w with tagCounter := nextTag w.tagToGive } h]
  rfl

/-- An accepted request takes the place of its station's entry, which ends SUPERSEDED (R24). -/
theorem Work.acceptRequest_replaces {x : Station} {q : PatternNo} {w : Work} {e : PendingEntry} (h : w.pendingOf x = some e) :
    w.acceptRequest x q .manual =
      Work.post x (.transitionEnded e.tag x e.target e.source .superseded (w.active .A) (w.active .B))
        { w.accepted x with
          pendingList := w.pendingList.map fun d => if d.station = x then ⟨w.tagToGive, x, q, .manual⟩ else d } := by
  have entered (v : Work) (hv : v.pendingOf x = some e) (new : PendingEntry) (hn : new.station = x) :
      v.enterPending new =
        Work.post x (.transitionEnded e.tag x e.target e.source .superseded (v.active .A) (v.active .B))
          { v with pendingList := v.pendingList.map fun d => if d.station = x then new else d } := by
    unfold Work.enterPending
    rw [hn, hv]
    dsimp only
    rw [Work.endPending_superseded, Plant.pendingOf_station hv]
    rfl
  unfold Work.acceptRequest
  dsimp only
  rw [entered { w with tagCounter := nextTag w.tagToGive } h _ rfl]
  rfl

/-! ### Tags (R23) -/

/-- The counter advanced `n` times, as a number. -/
theorem nextTag_iterate {tag : Nat} (low : 1 ≤ tag) (high : tag ≤ 255) (n : Nat) :
    nextTag^[n] tag = (tag - 1 + n) % 255 + 1 := by
  induction n with
  | zero =>
    show tag = _
    omega
  | succ n ih =>
    rw [Function.iterate_succ_apply', ih]
    unfold nextTag
    split <;> omega

/-- The tag found is the counter advanced past tags in use only, and no further than it may (R23). -/
theorem freeTag_advances (inUse : List Nat) (n tag : Nat) :
    ∃ m ≤ n, freeTag inUse n tag = nextTag^[m] tag ∧ (∀ j < m, nextTag^[j] tag ∈ inUse) ∧
      (m < n → nextTag^[m] tag ∉ inUse) := by
  induction n generalizing tag with
  | zero => exact ⟨0, le_rfl, rfl, fun j hj => absurd hj (by omega), fun h => absurd h (by omega)⟩
  | succ n ih =>
    by_cases used : tag ∈ inUse
    · obtain ⟨m, hm, found, past, free⟩ := ih (nextTag tag)
      refine ⟨m + 1, by omega, ?_, fun j hj => ?_, fun h => ?_⟩
      · simp only [freeTag, List.contains_iff_mem, used, if_true]
        exact found
      · cases j with
        | zero => exact used
        | succ j => exact past j (by omega)
      · exact free (by omega)
    · refine ⟨0, by omega, ?_, fun j hj => absurd hj (by omega), fun _ => used⟩
      simp only [freeTag, List.contains_iff_mem, used, if_false]
      rfl

/-- As many advances as there are tags in use pass them all, since the counter does not come round so soon. -/
theorem tag_free_behind {inUse : List Nat} {tag : Nat} (low : 1 ≤ tag) (high : tag ≤ 255) (few : inUse.length ≤ 3)
    (past : ∀ j < inUse.length, nextTag^[j] tag ∈ inUse) : nextTag^[inUse.length] tag ∉ inUse := by
  intro used
  have distinct : ((List.range (inUse.length + 1)).map fun j => nextTag^[j] tag).Nodup := by
    refine List.Nodup.map_on (fun i hi j hj h => ?_) List.nodup_range
    rw [List.mem_range] at hi hj
    rw [nextTag_iterate low high, nextTag_iterate low high] at h
    omega
  have within_ : ((List.range (inUse.length + 1)).map fun j => nextTag^[j] tag) ⊆ inUse := by
    intro a ha
    obtain ⟨j, hj, rfl⟩ := List.mem_map.1 ha
    rw [List.mem_range] at hj
    by_cases last : j = inUse.length
    · exact last ▸ used
    · exact past j (by omega)
  have := (distinct.subperm within_).length_le
  simp at this

/-- The tag given (R23). -/
theorem Plant.tagToGive_free (p : Plant) (low : 1 ≤ p.tagCounter) (high : p.tagCounter ≤ 255) (few : p.tagsInUse.length ≤ 3) :
    1 ≤ p.tagToGive ∧ p.tagToGive ≤ 255 ∧ p.tagToGive ∉ p.tagsInUse ∧
      ∃ n ≤ p.tagsInUse.length, p.tagToGive = nextTag^[n] p.tagCounter ∧ ∀ m < n, nextTag^[m] p.tagCounter ∈ p.tagsInUse := by
  obtain ⟨n, hn, given, past, free⟩ := freeTag_advances p.tagsInUse p.tagsInUse.length p.tagCounter
  have given : p.tagToGive = nextTag^[n] p.tagCounter := given
  have number := nextTag_iterate low high n
  refine ⟨by omega, by omega, ?_, n, hn, given, past⟩
  rw [given]
  rcases Nat.lt_or_eq_of_le hn with short | all
  · exact free short
  · subst all
    exact tag_free_behind low high few past

/-- Settles O11: the request enters the list, whose head still cannot start; the tag is the first free one. -/
theorem patternRequestAccepted : Obligations.PatternRequestAccepted := by
  refine ⟨?_, Plant.tagToGive_free⟩
  intro x target q s ready image number inUse owns way blocked entry recorded
  have records : s.recordNow x = recorded := by
    unfold Plant.recordNow recordedOccurrence
    rfl
  have passed := Work.checkRequest_passed (w := s.work) image number inUse owns way
  constructor
  · intro alone
    rw [Work.acceptRequest_joins (w := s.work) alone] at passed
    refine (exec_patternRequest ready passed (.inr blocked) fun _ => rfl).trans ?_
    rw [← records]
    rfl
  · intro e pending
    rw [Work.acceptRequest_replaces (w := s.work) pending] at passed
    refine (exec_patternRequest ready passed (.inr blocked) fun _ => rfl).trans ?_
    rw [← records]
    rfl

end Machine
end Sys2Proof

/-! PROOFS. Withdraws (R47, R48), consent replies (R31 to R33) and the expiry of the wait for consent (R33): what each leaves,
exactly, where no carrier is commanded. -/
namespace Sys2Proof
namespace Machine

/-! ### Ends that set the retry hold for a scheduled request (R144) -/

/-- The end of a transition with a result that sets the retry hold (R51, R144). -/
theorem Work.endTransition_unspared {result : Result} {w : Work} {t : Transition} (h : w.transition = some t)
    (hr : result.spares = false) :
    w.endTransition result = { w with
      posts := w.posts ++ t.informed.map fun y =>
        (y, .transitionEnded t.tag t.station t.target t.source result (w.active .A) (w.active .B))
      writing := (w.handLastState false).writing
      writeQueue := (w.handLastState false).writeQueue
      imageRecord := (w.handLastState false).imageRecord
      lastRecord := (w.handLastState false).lastRecord
      retryHold := if t.source = .schedule then w.retryHold.set t.station 10 else w.retryHold
      transition := none
      consentTimer := none
      deferTimer := none } := by
  rw [Work.endTransition_eq result w t h]
  simp only [hr, and_true]

/-- An entry of the list ends with a result that sets the retry hold (R24, R144). -/
theorem Work.endPending_unspared {result : Result} (e : PendingEntry) (w : Work) (hr : result.spares = false) :
    Work.endPending e result w =
      { w with
        posts := w.posts ++
          [(e.station, .transitionEnded e.tag e.station e.target e.source result (w.active .A) (w.active .B))]
        retryHold := if e.source = .schedule then w.retryHold.set e.station 10 else w.retryHold } := by
  unfold Work.endPending Work.reportEnd
  simp only [hr, and_true]
  split <;> rfl

/-- With nothing pending, what ends the transition leaves nothing to examine. -/
theorem Work.examinePending_ended {w : Work} {t : Transition} {result : Result} (h : w.transition = some t)
    (hl : w.pendingList = []) : (w.endTransition result).examinePending = w.endTransition result :=
  Work.examinePending_of_empty (by rw [Work.endTransition_eq result w t h]; exact hl)

/-! ### WITHDRAW (R47, R48) -/

section
variable {x : Station} {s : State} (ready : s.Ready x)
include ready

theorem exec_withdraw {w : Work} {code : ReplyCode} (hc : s.work.withdraw x = (w, code))
    (hs : ∀ y, (w.stations.get y).scanStay = (s.stations.get y).scanStay) :
    exec (.withdraw x) s = .next ((State.deliver w.posts { s with toPlant := w.toPlant }).answered x 0x02 code []) := by
  refine congrArg Host.Outcome.next (State.receiveRequest_eq (r := .withdraw) ready (reply := .plain code) ?_ hs)
  simp only [act, actWithdraw, hc]

theorem exec_withdraw_unchanged {code : ReplyCode} (hc : s.work.withdraw x = (s.work, code)) :
    exec (.withdraw x) s = .next (s.answered x 0x02 code []) := exec_withdraw ready hc fun _ => rfl

theorem exec_consentReply {tag answer : Byte} {w : Work} {code : ReplyCode}
    (hc : s.work.consentReply x tag.toNat answer.toNat = (w, code))
    (hs : ∀ y, (w.stations.get y).scanStay = (s.stations.get y).scanStay) :
    s.receiveRequest x (.consentReply tag answer) =
      (State.deliver w.posts { s with toPlant := w.toPlant }).answered x 0x03 code [] := by
  refine State.receiveRequest_eq (r := .consentReply tag answer) ready (reply := .plain code) ?_ hs
  simp only [act, actConsentReply, hc]

end

/-- A withdraw of the owner's active transition (R47). -/
theorem Work.withdraw_active {x : Station} {w : Work} {t : Transition} (alone : w.pendingOf x = none)
    (active : w.transition = some t) (owner : t.station = x) :
    w.withdraw x = ((w.withdrawActive t).1.examinePending, (w.withdrawActive t).2) := by
  unfold Work.withdraw
  rw [alone, active]
  exact if_pos owner

/-- Settles O15: the withdraw by what the station has pending or active, and by the phase. -/
theorem withdrawAnswered : Obligations.WithdrawAnswered := by
  refine ⟨fun x s ready => ⟨fun e pending => ?_, fun alone owns => ?_, fun t alone active owner phase => ?_⟩,
    fun x s t ready alone active owner phase => ?_⟩
  · have left : s.work.withdraw x = (s.work.dropPending x .withdrawn, .accepted) := by
      unfold Work.withdraw
      rw [show s.work.pendingOf x = some e from pending]
    rw [Work.dropPending_of_some (w := s.work) pending, Work.endPending_unspared e _ rfl,
      Plant.pendingOf_station pending] at left
    exact exec_withdraw ready left fun _ => rfl
  · refine exec_withdraw_unchanged ready ?_
    unfold Work.withdraw
    rw [show s.work.pendingOf x = none from alone]
    have notOwner : ∀ t, s.work.transition = some t → t.station ≠ x := fun t ht hx => by
      have : s.work.owns x = true := by
        unfold Plant.owns
        rw [ht]
        simp [hx]
      rw [show s.work.owns x = false from owns] at this
      cases this
    cases ht : s.work.transition with
    | none => rfl
    | some t => exact if_neg (notOwner t ht)
  · refine exec_withdraw_unchanged ready ?_
    have late : s.work.withdrawActive t = (s.work, .tooLate) := by
      unfold Work.withdrawActive
      rcases phase with h | h | h <;> rw [h]
    rw [Work.withdraw_active (w := s.work) alone active owner, late]
    exact Prod.ext (Work.examinePending_active s.work (by rw [show s.work.transition = some t from active]; simp)) rfl
  · have switching : s.work.withdrawActive t = s.work.withdrawInSwitch t := by
      unfold Work.withdrawActive
      rw [phase]
    have examined (w : Work) (h : w.transition ≠ none) : w.examinePending = w := Work.examinePending_active w h
    have still : s.work.transition ≠ none := by rw [show s.work.transition = some t from active]; simp
    have answered := Work.withdraw_active (w := s.work) alone active owner
    rw [switching] at answered
    refine ⟨fun decided => ?_, fun undecided taken => ?_, fun m undecided untaken moving => ?_⟩
    · have late : s.work.withdrawInSwitch t = (s.work, .tooLate) :=
        if_pos (Option.isSome_iff_ne_none.2 decided)
      rw [late, examined _ still] at answered
      exact exec_withdraw_unchanged ready answered
    · have again : s.work.withdrawInSwitch t = (s.work, .accepted) :=
        (if_neg (by simp [undecided])).trans (if_pos taken)
      rw [again, examined _ still] at answered
      exact exec_withdraw_unchanged ready answered
    · have taken : s.work.withdrawInSwitch t =
          ({ s.work with
              driver := some { m with stop := true }
              transition := some { t with withdrawTaken := true, moves := dropWaiting (some m.contactor) t.moves } },
            .accepted) := by
        unfold Work.withdrawInSwitch Work.stopDriver Work.onTransition
        rw [if_neg (by simp [undecided]), if_neg (by simp [untaken]), show s.work.driver = some m from moving,
          show s.work.transition = some t from active]
        rfl
      rw [taken, examined _ (by simp)] at answered
      refine (exec_withdraw ready answered fun _ => rfl).trans ?_
      have dropped : dropWaiting (some m.contactor) t.moves =
          t.moves.map fun e => if e.outcome = .waiting ∧ e.contactor ≠ m.contactor then { e with outcome := .notDone } else e := by
        unfold dropWaiting
        simp only [ne_eq, Option.some.injEq]
      rw [dropped]
      rfl

/-! ### CONSENT REPLY (R31 to R33) -/

/-- The query outstanding to the peer of the requester in CONSENT_WAIT (R30). -/
theorem Plant.queryTo_eq_some {p : Plant} {x : Station} {t : Transition} (active : p.transition = some t)
    (phase : t.phase = .consentWait) (station : t.station = x.peer) : p.queryTo x = some t := by
  unfold Plant.queryTo
  rw [active]
  refine if_pos ⟨phase, ?_⟩
  rw [station]
  cases x <;> rfl

/-- An answer to the outstanding query (R31, R32). -/
theorem Work.consentReply_taken {x : Station} {tag answer : Nat} {w : Work} {t : Transition}
    (known : answer = 1 ∨ answer = 2) (query : w.queryTo x = some t) (tagged : t.tag = tag) :
    w.consentReply x tag answer =
      ((if answer = 1 then w.takeGrant else w.takeDefer x t).examinePending, .accepted) := by
  unfold Work.consentReply
  rw [if_neg (by omega), query]
  exact if_neg (by simp [tagged])

/-- An answer to no query, or under another tag (R33). -/
theorem Work.consentReply_stale {x : Station} {tag answer : Nat} {w : Work} (known : answer = 1 ∨ answer = 2)
    (stale : ∀ t, w.transition = some t → t.phase = .consentWait → t.station = x.peer → t.tag ≠ tag) :
    w.consentReply x tag answer = (w, .staleAnswer) := by
  unfold Work.consentReply
  rw [if_neg (by omega)]
  split
  · rfl
  · next t ht =>
    refine if_pos ?_
    unfold Plant.queryTo at ht
    split at ht
    · next u hu =>
      split at ht
      · next hp =>
        cases ht
        exact stale t hu hp.1 (by rw [← hp.2]; cases t.station <;> rfl)
      · cases ht
    · cases ht

/-- Settles O18: the answer by the query outstanding, its tag, the consent state and the peer's limit. -/
theorem deferAndStaleAnswers : Obligations.DeferAndStaleAnswers := by
  refine ⟨fun x tag s t ready active phase station tagged => ?_, fun x tag s ready stale => ?_⟩
  · intro limit store ended
    have query : s.work.queryTo x = some t := Plant.queryTo_eq_some active phase station
    have answered := Work.consentReply_taken (w := s.work) (answer := 2) (.inr rfl) query tagged
    rw [if_neg (by decide)] at answered
    have deferred {w : Work} (hw : s.work.takeDefer x t = w) (he : w.examinePending = w)
        (hs : ∀ y, (w.stations.get y).scanStay = (s.stations.get y).scanStay) :
        exec (.defer x tag) s =
          .next ((State.deliver w.posts { s with toPlant := w.toPlant }).answered x 0x03 .accepted []) := by
      rw [hw, he] at answered
      exact congrArg Host.Outcome.next (exec_consentReply ready answered hs)
    have still : s.work.transition ≠ none := by rw [show s.work.transition = some t from active]; simp
    refine ⟨fun asked => ?_, fun asked positive => ?_, fun asked zero empty => ?_⟩
    · exact deferred (if_pos asked) (Work.examinePending_active s.work still) fun _ => rfl
    · refine deferred (w := { s.work with
          transition := some { t with consent := .deferred }
          consentTimer := none
          deferTimer := some (s.elapsed + Config.seconds limit) }) ?_ (Work.examinePending_active _ (by simp)) fun _ => rfl
      refine (if_neg asked).trans ((if_neg (Nat.pos_iff_ne_zero.1 positive)).trans ?_)
      unfold Work.onTransition
      rw [show ({ s.work with
        consentTimer := none
        deferTimer := some (s.work.elapsed + Config.seconds (settings s.work.activeImage x).deferLimit) } : Work).transition =
          some t from active]
      rfl
    · have ends : s.work.takeDefer x t = s.work.endTransition .noConsent := (if_neg asked).trans (if_pos zero)
      have whole := Work.endTransition_unspared (w := s.work) (result := .noConsent) active rfl
      refine (deferred ends (Work.examinePending_ended active empty) fun _ => by rw [whole]; rfl).trans ?_
      rw [whole, station]
      rfl
  · have refused {answer : Byte} (known : answer.toNat = 1 ∨ answer.toNat = 2) :
        s.receiveRequest x (.consentReply tag answer) = s.answered x 0x03 .staleAnswer [] :=
      exec_consentReply ready (Work.consentReply_stale (w := s.work) known stale) fun _ => rfl
    exact ⟨congrArg Host.Outcome.next (refused (answer := 1) (.inl rfl)),
      congrArg Host.Outcome.next (refused (answer := 2) (.inr rfl))⟩

/-! ### The wait for consent runs out (R33) -/

/-- An event that does nothing. -/
theorem State.event_idle {f : Work → Work} {s : State} (h : f s.work = s.work) : s.event f = s := by
  rw [State.event_eq f s (fun _ => by rw [h]; rfl), h]
  rfl

theorem Plant.awaitsConsent_iff {p : Plant} {t : Transition} {c : ConsentState} (active : p.transition = some t)
    (phase : t.phase = .consentWait) : p.awaitsConsent c = true ↔ t.consent = c := by
  unfold Plant.awaitsConsent
  rw [active]
  simp [phase]

/-- Settles O24: either timer ends the transition in its own consent state, and is no event in another. -/
theorem consentWaitExpires : Obligations.ConsentWaitExpires := by
  intro s t due active phase empty now store ended after
  have awaits {c : ConsentState} : s.work.awaitsConsent c = true ↔ t.consent = c := Plant.awaitsConsent_iff active phase
  have whole := Work.endTransition_unspared (w := s.work.reach due) (result := .noConsent) active rfl
  have ends : (s.work.reach due).noConsent = (s.work.reach due).endTransition .noConsent :=
    Work.examinePending_ended active empty
  have expires {c : ConsentState} {timer : Work → Timer} (consent : t.consent = c) (runs : timer s.work = some due) :
      s.event (fun w => if w.awaitsConsent c then w.whenDue (timer w) Work.noConsent else w) = after := by
    have step : (if s.work.awaitsConsent c then s.work.whenDue (timer s.work) Work.noConsent else s.work) =
        (s.work.reach due).endTransition .noConsent := by
      rw [if_pos (awaits.2 consent), runs]
      exact ends
    rw [State.event_eq _ s (fun _ => by rw [step, whole]; rfl), step, whole]
    rfl
  have idle {c : ConsentState} {timer : Work → Timer} (consent : t.consent ≠ c) :
      s.event (fun w => if w.awaitsConsent c then w.whenDue (timer w) Work.noConsent else w) = s :=
    State.event_idle (if_neg fun h => consent (awaits.1 h))
  exact ⟨fun consent runs => congrArg Host.Outcome.next (expires (timer := fun w => w.consentTimer) consent runs),
    fun consent runs => congrArg Host.Outcome.next (expires (timer := fun w => w.deferTimer) consent runs),
    fun consent => congrArg Host.Outcome.next (idle (timer := fun w => w.consentTimer) consent),
    fun consent => congrArg Host.Outcome.next (idle (timer := fun w => w.deferTimer) consent)⟩

end Machine
end Sys2Proof

/-! PROOFS. PLAN that ends the transition at once (R27, R29), and the SUPERSEDED end of an entry that an image write held up
(R25, R27 step 1). -/
namespace Sys2Proof
namespace Machine

/-- The transition record of a MANUAL request as it starts (R26). -/
def Plant.started (p : Plant) (x : Station) (q : PatternNo) : Transition := p.newTransition ⟨p.tagToGive, x, q, .manual⟩

section
variable {x : Station} {q : PatternNo} {w : Work}

/-- A request accepted with nothing active or pending starts at once, and PLAN runs (R25, R26). -/
theorem Work.submit_starts {n : Nat} (number : n = q.val + 1) (idle : w.transition = none) (empty : w.pendingList = [])
    (image : w.image ≠ none) (inUse : (pattern w.activeImage x q).inUse = true) (noWrite : w.imageWritePending = false)
    (way : ¬(w.active x = some q ∧ (w.carrier x).onItsWay = true)) :
    w.submit x n .manual =
      (Work.plan (w.started x q) { w.accepted x with transition := some (w.started x q) }, .accepted, some w.tagToGive) := by
  have start : Plant.canStart { (w.accepted x).toPlant with pendingList := [⟨w.tagToGive, x, q, .manual⟩] } = true := by
    have : w.canStart = true := by simp [Plant.canStart, idle, noWrite]
    exact this
  have rest (t : Transition) : ({ w.accepted x with pendingList := [], transition := some t } : Work) =
      { w.accepted x with transition := some t } := by
    simp [Work.accepted, empty]
  unfold Work.submit
  rw [number, Work.checkRequest_accepted idle image inUse way, Work.acceptRequest_eq empty]
  unfold Work.examinePending
  simp only [List.length_singleton, Work.examineFor, start, if_true, rest]
  rfl

theorem act_patternRequest_of_submit {target : Byte} {v : Work} {code : ReplyCode} {tag : Option Nat}
    (h : w.submit x target.toNat .manual = (v, code, tag)) (dropped : Nat) :
    act x dropped (.patternRequest target) w = (v, ⟨code, (tag.map byteOf).toList⟩) := by
  simp only [act, actPatternRequest, h]

/-- A transition that has not planned a move informs its requester alone. -/
theorem Plant.newTransition_informed (p : Plant) (e : PendingEntry) : (p.newTransition e).informed = [e.station] := by
  obtain ⟨tag, station, target, source⟩ := e
  cases station <;> rfl

/-! ### What the checks of PLAN mean (R27) -/

/-- PLAN once the target is known not to be on its way: the move list is formed and judged (R27). -/
theorem Work.plan_forms {t : Transition} (way : ¬(w.active t.station = some t.target ∧ (w.carrier t.station).onItsWay = true)) :
    w.plan t = Work.planMoves { t with moves := w.moveList t.station t.target }
      { w with transition := some { t with moves := w.moveList t.station t.target } } := if_neg way

/-- A contactor of the list is not fit to move (R27 step 3). -/
theorem Plant.movesFailed_iff {p : Plant} : p.movesFailed (p.moveList x q) = true ↔
    ∃ k, (∃ side, mapEntry p.activeImage x q k = some side ∧ p.contactors[k].position ≠ some side) ∧
      (p.contactors[k].state = .failed ∨ p.contactors[k].position = none) := by
  unfold Plant.movesFailed
  simp only [List.any_eq_true, Bool.or_eq_true, beq_iff_eq, Option.isNone_iff_eq_none]
  constructor
  · rintro ⟨e, he, hf⟩
    obtain ⟨hm, hp, hn, -⟩ := Plant.mem_moveList.1 he
    exact ⟨e.contactor, ⟨e.toPos, hm, hp ▸ hn⟩, hf⟩
  · rintro ⟨k, ⟨side, hm, hn⟩, hf⟩
    exact ⟨⟨k, p.contactors[k].position, side, .waiting⟩, Plant.mem_moveList.2 ⟨hm, rfl, hn, rfl⟩, hf⟩

theorem compatible_eq_false_iff {m : Memory} {y : Station} {p : PatternNo} : compatible m x q y p = false ↔
    ∃ k a b, mapEntry m x q k = some a ∧ mapEntry m y p k = some b ∧ a ≠ b := by
  unfold compatible
  simp only [List.all_eq_false, List.mem_finRange, true_and]
  refine exists_congr fun k => ?_
  cases mapEntry m x q k <;> cases mapEntry m y p k <;> simp

/-- The two maps require a contactor in two positions (R17, R27 step 4). -/
theorem Plant.conflicts_iff {p : Plant} : p.conflicts x q = true ↔ (p.carrier x.peer).state ≠ .dark ∧
    ∃ r k a b, p.active x.peer = some r ∧ mapEntry p.activeImage x q k = some a ∧
      mapEntry p.activeImage x.peer r k = some b ∧ a ≠ b := by
  unfold Plant.conflicts
  cases p.active x.peer with
  | none => simp
  | some r =>
    simp only [Bool.and_eq_true, bne_iff_ne, Bool.not_eq_true', compatible_eq_false_iff, Option.some.injEq]
    exact and_congr_right fun _ => ⟨fun ⟨k, a, b, h⟩ => ⟨r, k, a, b, rfl, h⟩, fun ⟨_, k, a, b, hr, h⟩ => ⟨k, a, b, hr ▸ h⟩⟩

end

/-! ### A last-state record handed to an idle store (R50, R152) -/

/-- An idle store begins the write of a last-state record at once. -/
theorem Work.handLastState_starts {marker : Bool} {w : Work} (hw : w.writing = none) (hq : w.writeQueue = []) :
    w.handLastState marker = { w with
      writing := some ⟨.lastState ⟨w.active .A, w.active .B, marker⟩, w.elapsed + Config.ms 20⟩
      lastRecord := .torn } := by
  unfold Work.handLastState Work.startNextWrite
  dsimp only
  rw [hw, hq]
  rfl

/-! ### A request that ends in PLAN -/

/-- A transition that the acceptance of a MANUAL request starts and PLAN ends leaves the tag, the override, the notices and the
record handed. -/
theorem Work.endTransition_planned {x : Station} {w : Work} {t : Transition} {result : Result} (source : t.source = .manual) :
    ({ w.accepted x with transition := some t } : Work).endTransition result =
      { w with
        tagCounter := nextTag w.tagToGive
        override := w.override.set x (.set (w.recordNow x))
        consentTimer := none
        deferTimer := none
        transition := none
        posts := w.posts ++ t.informed.map fun y =>
          (y, .transitionEnded t.tag t.station t.target t.source result (w.active .A) (w.active .B))
        writing := (w.handLastState false).writing
        writeQueue := (w.handLastState false).writeQueue
        imageRecord := (w.handLastState false).imageRecord
        lastRecord := (w.handLastState false).lastRecord } := by
  obtain ⟨h1, h2, h3, h4⟩ := Work.handLastState_congr false { w.accepted x with transition := some t } w rfl rfl rfl rfl rfl
    fun _ => rfl
  rw [Work.endTransition_eq result _ t rfl, h1, h2, h3, h4, source, if_neg (by simp)]
  rfl

/-- Settles O13: the checks of PLAN in their order, and the entry that an image write held up until its target was on its
way. -/
theorem planEndsTheRequest : Obligations.PlanEndsTheRequest := by
  refine ⟨?_, ?_⟩
  · intro x target q s ready image number inUse idle empty noWrite way m listed failed clash affected store ends
    obtain ⟨t, ht⟩ : ∃ t, t = { s.started x q with moves := s.moveList x q } := ⟨_, rfl⟩
    obtain ⟨w, hw⟩ : ∃ w : Work, w = { s.work.accepted x with transition := some t } := ⟨_, rfl⟩
    have submitted : s.work.submit x target.toNat .manual = (w.planMoves t, .accepted, some s.tagToGive) := by
      have starts := Work.submit_starts (w := s.work) number idle empty image inUse noWrite way
      rw [Work.plan_forms (t := s.work.started x q) way] at starts
      rw [hw, ht]
      exact starts
    have ended {u : Transition} {result : Result} (hu : u.tag = s.tagToGive ∧ u.station = x ∧ u.target = q ∧ u.source = .manual)
        (planned : w.planMoves t = ({ s.work.accepted x with transition := some u } : Work).endTransition result) :
        exec (.patternRequest x target) s = .next (ends result u.informed) := by
      obtain ⟨tag, station, aim, source⟩ := hu
      rw [planned, Work.endTransition_planned source, tag, station, aim, source] at submitted
      refine congrArg Host.Outcome.next
        ((State.receiveRequest_eq ready (act_patternRequest_of_submit submitted _) fun _ => rfl).trans ?_)
      rw [← idle]
      rfl
    have named : t.tag = s.tagToGive ∧ t.station = x ∧ t.target = q ∧ t.source = .manual := by
      rw [ht]
      exact ⟨rfl, rfl, rfl, rfl⟩
    have alone : t.informed = [x] := by
      rw [ht]
      unfold Transition.informed
      cases x <;> rfl
    have fails : w.movesFailed t.moves = true ↔ failed := by
      rw [hw, ht]
      exact Plant.movesFailed_iff
    have clashes : w.conflicts t.station t.target = true ↔ clash := by
      rw [hw, ht]
      exact Plant.conflicts_iff
    refine ⟨fun hf => ?_, fun hf hc => ?_, fun hf hc ha refuse => ?_⟩
    · rw [← alone]
      exact ended named ((if_pos (fails.2 hf)).trans (by rw [hw]))
    · rw [← alone]
      exact ended named ((if_neg fun h => hf (fails.1 h)).trans ((if_pos (clashes.2 hc)).trans (by rw [hw])))
    · obtain ⟨lit, k, ⟨side, hm, hp⟩, carried⟩ := ha
      have moving : t.moves ≠ [] := by
        rw [ht]
        exact Plant.moveList_ne_nil ⟨k, side, hm, hp⟩
      obtain ⟨u, hu⟩ : ∃ u, u = { t with
          affected := w.affectedSet t.moves
          entries := w.stationEntries t.station (w.affectedSet t.moves) } := ⟨_, rfl⟩
      have peer : u.affected.get x.peer = true := by
        rw [hu]
        show (w.affectedSet t.moves).get x.peer = true
        rw [Plant.affectedSet_get, Bool.and_eq_true, List.any_eq_true, decide_eq_true_eq]
        refine ⟨⟨⟨k, s.contactors[k].position, side, .waiting⟩, ?_, ?_⟩, ?_⟩
        · rw [ht]
          exact Plant.mem_moveList.2 ⟨hm, rfl, hp, rfl⟩
        · rw [hw]
          exact carried
        · rw [hw]
          exact lit
      have station : u.station = x := by rw [hu]; exact named.2.1
      have told : u.informed = [x, x.peer] := by
        unfold Transition.informed
        rw [station, if_pos peer]
      have planned : w.planMoves t = Work.decideConsent u { w with transition := some u } := by
        rw [hu]
        exact (if_neg fun h => hf (fails.1 h)).trans ((if_neg fun h => hc (clashes.1 h)).trans (if_neg moving))
      have refused : Work.decideConsent u { w with transition := some u } =
          ({ s.work.accepted x with transition := some u } : Work).endTransition .refusedByPeer := by
        unfold Work.decideConsent
        rw [station, if_pos peer, show ({ w with transition := some u } : Work).consentPolicy.get x.peer = some .refuse by
          rw [hw]; exact refuse, hw]
      rw [← told]
      exact ended (by rw [hu]; exact named) (planned.trans refused)
  · intro s e bytes due idle waiting writing queue active way now
    obtain ⟨w, hw⟩ : ∃ w : Work, w = { s.work.reach due with writing := none, imageRecord := ⟨.valid, bytes⟩ } := ⟨_, rfl⟩
    have completed : s.work.completeWrite = w := by
      unfold Work.completeWrite
      rw [show s.work.writing = some ⟨.image bytes, due⟩ from writing, hw]
      unfold Work.startNextWrite
      dsimp only
      rw [show (s.work.reach due).writeQueue = [] from queue]
    obtain ⟨v, hv⟩ : ∃ v : Work, v = { w with pendingList := [], transition := some (w.newTransition e) } := ⟨_, rfl⟩
    have examined : w.examinePending = v.endTransition .superseded := by
      have list : w.pendingList = [e] := by rw [hw]; exact waiting
      have start : w.canStart = true := by
        have h1 : w.transition = none := by rw [hw]; exact idle
        have h2 : w.writing = none := by rw [hw]
        have h3 : w.writeQueue = [] := by rw [hw]; exact queue
        simp [Plant.canStart, Plant.imageWritePending, h1, h2, h3]
      unfold Work.examinePending
      rw [list]
      simp only [List.length_singleton, Work.examineFor, list, start, if_true]
      rw [hv]
      refine if_pos ⟨?_, ?_⟩
      · rw [hw]; exact active
      · rw [hw]; exact way
    have handed : v.handLastState false = { v with
        writing := some ⟨.lastState ⟨s.active .A, s.active .B, false⟩, now + Config.ms 20⟩
        lastRecord := .torn } := by
      rw [Work.handLastState_starts (by rw [hv, hw]) (by rw [hv, hw]; exact queue), hv, hw]
      rfl
    have whole := Work.endTransition_eq .superseded v (w.newTransition e) (by rw [hv])
    rw [handed, if_neg (by simp [Result.spares])] at whole
    have step : (if s.work.writes true then s.work.completeWrite.examinePending else s.work) = v.endTransition .superseded := by
      rw [completed, examined]
      refine if_pos ?_
      unfold Plant.writes
      rw [show s.work.writing = some ⟨.image bytes, due⟩ from writing]
      rfl
    refine congrArg Host.Outcome.next ?_
    rw [State.event_eq _ s (fun _ => by rw [step, whole, hv, hw]; rfl), step, whole, Plant.newTransition_informed, hv, hw, State.finish_eq]
    rw [← idle]
    rfl

end Machine
end Sys2Proof

/-! PROOFS. The coil driver and the moves (R38, R40, R55 to R60): a pulse and a further attempt, the disturbance of a switch by RF,
QUIESCE ended by RF, and the reversal begun. -/
namespace Sys2Proof
namespace Machine

/-! ### SWITCH entered (R36, R38) -/

/-- A station's records with its mute timer stopped. -/
def StationUnit.unmuted (u : StationUnit) : StationUnit := { u with carrier := { u.carrier with muteTimer := none } }

/-- The mute timers of the affected stations stopped (R36). -/
def Plant.unmuted (p : Plant) (t : Transition) : Pair StationUnit :=
  ⟨if t.affected.a then p.stations.a.unmuted else p.stations.a, if t.affected.b then p.stations.b.unmuted else p.stations.b⟩

theorem Plant.unmuted_get (p : Plant) (t : Transition) (y : Station) :
    (p.unmuted t).get y = if t.affected.get y = true then (p.stations.get y).unmuted else p.stations.get y := by
  cases y <;> rfl

theorem Work.stopMuteTimers_eq (t : Transition) (w : Work) :
    t.affectedList.foldl (fun w x => w.onStation x StationWork.stopMuteTimer) w = { w with stations := w.unmuted t } := by
  have posts (w : Work) (x : Station) : w.onStation x StationWork.stopMuteTimer =
      { w with stations := w.stations.set x (w.stations.get x).unmuted } := by
    unfold Work.onStation
    simp only [StationWork.stopMuteTimer, List.map_nil, List.append_nil]
    rfl
  simp only [posts]
  unfold Transition.affectedList Plant.unmuted
  obtain ⟨a, b⟩ := t.affected
  cases a <;> cases b <;> rfl

/-- The next WAITING move is commanded and its pulse begins (R38, R56, R57). -/
theorem Work.nextMove_begins {t : Transition} {w : Work} {e : MoveEntry} (ht : w.transition = some t)
    (he : t.moves.find? (fun d => d.outcome == .waiting) = some e) (hc : w.checkPasses e.contactor = true) :
    w.nextMove = { w with
      driver := some ⟨e.contactor, w.contactors[e.contactor].position, e.toPos, 1, .pulsing, false,
        w.elapsed + Config.ms (contactorRecord w.activeImage e.contactor).pulse⟩
      contactors := w.contactors.set e.contactor { w.contactors[e.contactor] with state := .pulsing } } := by
  have commanded : w.nextMove = w.commandMove e.contactor e.toPos := by
    unfold Work.nextMove
    simp only [ht, he]
  rw [commanded, Work.commandMove_begins hc]

/-- What the interlock law reads of the stations. -/
theorem Plant.checkPasses_congr {p p' : Plant} {k : ContactorNo} (hk : p'.contactors[k].state = p.contactors[k].state)
    (hi : p'.activeImage = p.activeImage)
    (hs : ∀ y, (p'.carrier y).rfInhibit = (p.carrier y).rfInhibit ∧ (p'.carrier y).rfPresent = (p.carrier y).rfPresent) :
    p'.checkPasses k = p.checkPasses k := by
  unfold Plant.checkPasses
  rw [hk, hi]
  simp only [fun y => (hs y).1, fun y => (hs y).2]

/-- SWITCH entered with the interlock law met: the mute timers stop, the record with the marker is handed, and the first
move's pulse begins. -/
theorem Work.enterSwitch_begun {t : Transition} {w : Work} {e : MoveEntry} (ht : w.transition = some t)
    (he : t.moves.find? (fun d => d.outcome == .waiting) = some e) (hc : w.checkPasses e.contactor = true) :
    w.enterSwitch t = { w with
      stations := w.unmuted t
      transition := some { t with phase := .switch }
      driver := some ⟨e.contactor, w.contactors[e.contactor].position, e.toPos, 1, .pulsing, false,
        w.elapsed + Config.ms (contactorRecord w.activeImage e.contactor).pulse⟩
      contactors := w.contactors.set e.contactor { w.contactors[e.contactor] with state := .pulsing }
      writing := (w.handLastState true).writing
      writeQueue := (w.handLastState true).writeQueue
      imageRecord := (w.handLastState true).imageRecord
      lastRecord := (w.handLastState true).lastRecord } := by
  obtain ⟨u, hu⟩ : ∃ u : Work, u = { w with stations := w.unmuted t, transition := some { t with phase := .switch } } :=
    ⟨_, rfl⟩
  have unit (y : Station) : (u.stations.get y) = if t.affected.get y = true then (w.stations.get y).unmuted else w.stations.get y := by
    rw [hu]
    exact w.unmuted_get t y
  have carriers (y : Station) : (u.carrier y).rfInhibit = (w.carrier y).rfInhibit ∧
      (u.carrier y).rfPresent = (w.carrier y).rfPresent := by
    unfold Plant.carrier
    rw [unit]
    split <;> exact ⟨rfl, rfl⟩
  have active (y : Station) : u.active y = w.active y := by
    unfold Plant.active
    rw [unit]
    split <;> rfl
  obtain ⟨h1, h2, h3, h4⟩ := Work.handLastState_congr true u w (by rw [hu]) (by rw [hu]) (by rw [hu]) (by rw [hu])
    (by rw [hu]) active
  have handed := Work.handLastState_eq true u
  rw [h1, h2, h3, h4] at handed
  have passes : (u.handLastState true).checkPasses e.contactor = true := by
    refine (Plant.checkPasses_congr ?_ ?_ fun y => ?_).trans hc
    · rw [handed, hu]
    · rw [handed, hu]; rfl
    · rw [handed]; exact carriers y
  have entered : w.enterSwitch t = (u.handLastState true).nextMove := by
    unfold Work.enterSwitch
    rw [Work.stopMuteTimers_eq]
    dsimp only
    unfold Work.onTransition
    simp only [ht, Option.map_some]
    rw [hu]
  rw [entered, Work.nextMove_begins (t := { t with phase := .switch }) (by rw [handed, hu]) he passes, handed, hu]
  rfl

/-- QUIESCE ends once every affected station is quiet (R36). -/
theorem Work.quiesceCheck_ends {t : Transition} {w : Work} (ht : w.transition = some t) (hp : t.phase = .quiesce)
    (hq : ∀ y, t.affected.get y = true → (w.carrier y).quiet = true) : w.quiesceCheck = w.enterSwitch t := by
  have quiet : w.quiesced t = true := List.all_eq_true.2 fun y hy => hq y (StationSet.mem_members.1 hy)
  unfold Work.quiesceCheck
  simp only [ht]
  exact if_pos ⟨hp, quiet⟩

/-! ### The record an RF present event leaves (R85, R86) -/

theorem Work.onStation_quiet_eq (x : Station) (f : Carrier → Carrier) (w : Work) :
    w.onStation x (fun _ u => { u with carrier := f u.carrier }) =
      { w with stations := w.stations.set x { w.stations.get x with carrier := f (w.carrier x) } } := by
  unfold Work.onStation
  simp only [List.map_nil, List.append_nil]
  rfl

/-- Settles O31: with the last affected station quiet, QUIESCE ends in SWITCH with the first move begun. -/
theorem quiesceEndsInSwitch : Obligations.QuiesceEndsInSwitch := by
  intro x s t e running changed active phase affected held others first fit cold store live due
  obtain ⟨w, hw⟩ : ∃ w : Work, w = { s.work with
      stations := s.stations.set x { s.stations.get x with carrier := (s.carrier x).takeRfPresent false } } := ⟨_, rfl⟩
  have carrier (y : Station) : w.carrier y = if y = x then (s.carrier x).takeRfPresent false else s.carrier y := by
    rw [hw]
    unfold Plant.carrier
    by_cases hy : y = x
    · subst hy
      rw [if_pos rfl, Pair.get_set_self]
    · rw [if_neg hy, Pair.get_set_of_ne _ _ hy]
  have taken : (s.carrier x).takeRfPresent false =
      { s.carrier x with rfPresent := some false, muteConfirmed := true } := by
    unfold Carrier.takeRfPresent
    rw [if_pos held]
    rfl
  have quiet (y : Station) (hy : t.affected.get y = true) : (w.carrier y).quiet = true := by
    rw [carrier]
    split
    · simp [taken, Carrier.quiet, held]
    · next hx => exact others y hx hy
  have passes : w.checkPasses e.contactor = true := by
    refine Plant.checkPasses_of (by rw [hw]; exact fit) fun y hy => ?_
    obtain ⟨inhibited, absent⟩ := cold y (by rw [hw] at hy; exact hy)
    rw [carrier]
    split
    · next hx => exact ⟨by rw [taken, ← hx]; exact inhibited, by rw [taken]⟩
    · next hx => exact ⟨inhibited, absent hx⟩
  have switched := Work.enterSwitch_begun (w := w) (t := t) (by rw [hw]; exact active) first passes
  obtain ⟨h1, h2, h3, h4⟩ := Work.handLastState_congr true w s.work (by rw [hw]) (by rw [hw]) (by rw [hw]) (by rw [hw])
    (by rw [hw]) fun y => by
      unfold Plant.active
      rw [hw]
      by_cases hy : y = x
      · subst hy
        rw [Pair.get_set_self]
        rfl
      · rw [Pair.get_set_of_ne _ _ hy]
        rfl
  rw [h1, h2, h3, h4] at switched
  have ended : s.work.rfPresent x false = w.enterSwitch t := by
    have event : s.work.rfPresent x false = s.work.rfEvent x false := by
      unfold Work.rfPresent
      rw [show s.work.phase = .running from running]
      exact if_neg changed
    have followed : (s.work.onStation x fun _ u => { u with carrier := u.carrier.takeRfPresent false }) = w := by
      rw [hw]
      exact Work.onStation_quiet_eq x (Carrier.takeRfPresent false) s.work
    rw [event]
    unfold Work.rfEvent
    dsimp only
    rw [followed, if_neg (by decide), Work.quiesceCheck_ends (t := t) (by rw [hw]; exact active) phase quiet]
    exact Work.examinePending_active _ (by rw [switched]; simp)
  have unit (y : Station) : ((w.enterSwitch t).stations.get y) =
      if t.affected.get y = true then (w.stations.get y).unmuted else w.stations.get y := by
    rw [switched]
    exact w.unmuted_get t y
  have before (y : Station) : w.stations.get y = { s.stations.get y with carrier := w.carrier y } := by
    rw [carrier, hw]
    by_cases hy : y = x
    · subst hy
      rw [if_pos rfl, Pair.get_set_self]
    · rw [if_neg hy, Pair.get_set_of_ne _ _ hy]
      rfl
  have stays (y : Station) : ((s.work.rfPresent x false).stations.get y).scanStay = (s.stations.get y).scanStay := by
    rw [ended, unit, before]
    split <;> rfl
  obtain ⟨u, hu⟩ : ∃ u, u = s.finish (w.enterSwitch t) := ⟨_, rfl⟩
  have plant : u.toPlant = (w.enterSwitch t).toPlant := by rw [hu, State.finish_toPlant]
  have stations (y : Station) : u.stations.get y =
      if t.affected.get y = true then (w.stations.get y).unmuted else w.stations.get y := by
    rw [← unit, ← plant]
  have carried (y : Station) : u.carrier y =
      if t.affected.get y = true then { w.carrier y with muteTimer := none } else w.carrier y := by
    unfold Plant.carrier
    rw [stations]
    split <;> rfl
  rw [switched, hw] at plant
  have field {α : Type} (g : Plant → α) : g u.toPlant = _ := congrArg g plant
  refine ⟨u, ?_, field Plant.transition, field Plant.driver, (field Plant.coil).trans rfl, field Plant.contactors,
    field Plant.writing, field Plant.writeQueue, field Plant.lastRecord, field Plant.imageRecord, ?_,
    field Plant.pendingList, field Plant.elapsed, fun y => ⟨?_, ?_, fun hy => ?_, fun hy => ?_⟩⟩
  · refine congrArg Host.Outcome.next ?_
    rw [State.event_eq _ s stays, ended, hu]
  · rw [hu, State.finish_eq, switched, hw]
    rfl
  · rw [carried, carrier]
    split <;> split <;> simp_all
  · have same : u.active y = w.active y := by
      unfold Plant.active
      rw [stations]
      split <;> rfl
    rw [same]
    unfold Plant.active
    rw [before]
  · rw [carried, if_pos hy]
    exact ⟨rfl, ((Bool.and_eq_true _ _).mp (quiet y hy)).2⟩
  · have other : y ≠ x := fun h => by rw [h, affected] at hy; cases hy
    rw [stations, hy, before, carrier, if_neg other]
    rfl

end Machine
end Sys2Proof

/-! PROOFS. What one carrier command leaves of its own station (R73 to R83, R89, R98), and what a run of commands leaves of the
part: the records of the stations commanded, a few notices to them, and all else as it was. -/
namespace Sys2Proof
namespace Machine

/-! ### The notices of one command -/

/-- A station's units have posted at most `n` notices, behind those that stood. -/
def StationWork.Posted (n : Nat) (v w : StationWork) : Prop := ∃ l, w.out = v.out ++ l ∧ l.length ≤ n

theorem StationWork.Posted.refl (v : StationWork) : v.Posted 0 v := ⟨[], by simp, by simp⟩

theorem StationWork.Posted.of_out {v w : StationWork} (h : w.out = v.out) : v.Posted 0 w := ⟨[], by simp [h], by simp⟩

theorem StationWork.Posted.trans {m n : Nat} {u v w : StationWork} (h : u.Posted m v) (k : v.Posted n w) : u.Posted (m + n) w := by
  obtain ⟨l, hl, ll⟩ := h
  obtain ⟨l', hl', ll'⟩ := k
  exact ⟨l ++ l', by rw [hl', hl, List.append_assoc], by rw [List.length_append]; omega⟩

theorem StationWork.Posted.mono {m n : Nat} {v w : StationWork} (h : v.Posted m w) (hn : m ≤ n) : v.Posted n w := by
  obtain ⟨l, hl, ll⟩ := h
  exact ⟨l, hl, by omega⟩

theorem StationWork.notifyStatus_posted (w : StationWork) : w.Posted 1 w.notifyStatus := by
  unfold StationWork.notifyStatus
  split
  · exact ⟨[_], rfl, by simp⟩
  · exact (StationWork.Posted.refl w).mono (by omega)

theorem StationWork.quietReport_out (c : Ctx) (w : StationWork) : (w.quietReport c).out = w.out := by
  unfold StationWork.quietReport
  dsimp only
  split <;> rfl

theorem StationWork.settleIn_posted (c : Ctx) (w : StationWork) : w.Posted 1 (w.settleIn c) := by
  have notified {v : StationWork} (h : v.out = w.out) : w.Posted 1 v.notifyStatus :=
    (StationWork.Posted.of_out h).trans v.notifyStatus_posted
  unfold StationWork.settleIn
  split
  · exact notified (StationWork.quietReport_out c _)
  · exact notified (by split <;> rfl)
  · exact notified rfl
  · exact (StationWork.Posted.refl w).mono (by omega)

theorem StationWork.enterState_posted (new : CarrierState) (c : Ctx) (w : StationWork) : w.Posted 2 (w.enterState new c) := by
  unfold StationWork.enterState
  refine StationWork.Posted.trans (m := 1) ?_ (StationWork.settleIn_posted c _)
  split
  · exact ⟨[], by simp, by simp⟩
  · exact ⟨[_], rfl, by simp⟩

theorem StationWork.rampTo_posted (ramp : Ramp) (c : Ctx) (w : StationWork) : w.Posted 2 (w.rampTo ramp c) := by
  unfold StationWork.rampTo
  split
  · exact StationWork.enterState_posted _ c { w with carrier := { w.carrier with ramp := none } }
  · exact StationWork.enterState_posted _ c { w with carrier := { w.carrier with ramp := some ramp } }

theorem StationWork.goDark_posted (c : Ctx) (w : StationWork) : w.Posted 2 (w.goDark c) := by
  unfold StationWork.goDark
  split
  · exact (StationWork.Posted.refl w).mono (by omega)
  · exact StationWork.enterState_posted _ c { w with carrier := { w.carrier with ramp := none, level := 0 } }

theorem StationWork.lowerToHold_posted (c : Ctx) (w : StationWork) : w.Posted 2 (w.lowerToHold c) := by
  unfold StationWork.lowerToHold
  split
  · exact (StationWork.Posted.refl w).mono (by omega)
  · split
    · exact (StationWork.Posted.refl w).mono (by omega)
    · exact StationWork.rampTo_posted _ c w

/-! ### The fields an entry into a state leaves (R77, R82, R86, R121, R127, R131) -/

/-- Two carrier records that agree but for verification, supervision and the statuses. -/
structure Carrier.Drives (r r' : Carrier) : Prop where
  state : r'.state = r.state
  level : r'.level = r.level
  ramp : r'.ramp = r.ramp
  verifyRequired : r'.verifyRequired = r.verifyRequired
  muteConfirmed : r'.muteConfirmed = r.muteConfirmed
  muteTimer : r'.muteTimer = r.muteTimer
  rfNoticePosted : r'.rfNoticePosted = r.rfNoticePosted
  rfPresent : r'.rfPresent = r.rfPresent
  rampTimer : r'.rampTimer = r.rampTimer

theorem Carrier.Drives.refl (r : Carrier) : r.Drives r := ⟨rfl, rfl, rfl, rfl, rfl, rfl, rfl, rfl, rfl⟩

theorem Carrier.Drives.trans {r s t : Carrier} (h : r.Drives s) (k : s.Drives t) : r.Drives t :=
  ⟨k.1.trans h.1, k.2.trans h.2, k.3.trans h.3, k.4.trans h.4, k.5.trans h.5, k.6.trans h.6, k.7.trans h.7, k.8.trans h.8,
    k.9.trans h.9⟩

theorem StationWork.notifyStatus_drives (w : StationWork) : w.carrier.Drives w.notifyStatus.carrier := by
  unfold StationWork.notifyStatus
  split
  · exact ⟨rfl, rfl, rfl, rfl, rfl, rfl, rfl, rfl, rfl⟩
  · exact .refl _

theorem StationWork.quietReport_drives (c : Ctx) (w : StationWork) : w.carrier.Drives (w.quietReport c).carrier := by
  unfold StationWork.quietReport
  dsimp only
  split
  · exact .refl _
  · exact ⟨rfl, rfl, rfl, rfl, rfl, rfl, rfl, rfl, rfl⟩

theorem StationWork.settleIn_drives (c : Ctx) (w : StationWork) : w.carrier.Drives (w.settleIn c).carrier := by
  unfold StationWork.settleIn
  split
  · refine Carrier.Drives.trans (Carrier.Drives.trans ?_ (StationWork.quietReport_drives c _)) (StationWork.notifyStatus_drives _)
    exact ⟨rfl, rfl, rfl, rfl, rfl, rfl, rfl, rfl, rfl⟩
  · refine Carrier.Drives.trans ?_ (StationWork.notifyStatus_drives _)
    split <;> exact ⟨rfl, rfl, rfl, rfl, rfl, rfl, rfl, rfl, rfl⟩
  · exact StationWork.notifyStatus_drives _
  · exact .refl _

/-- The carrier record an entry leaves, but for verification, supervision and the statuses. -/
theorem StationWork.enterState_drives (new : CarrierState) (c : Ctx) (w : StationWork) :
    (w.carrier.leave.enter c new).Drives (w.enterState new c).carrier := by
  unfold StationWork.enterState
  refine Carrier.Drives.trans ?_ (StationWork.settleIn_drives c _)
  split <;> exact ⟨rfl, rfl, rfl, rfl, rfl, rfl, rfl, rfl, rfl⟩

theorem Carrier.enter_level (c : Ctx) (new : CarrierState) (r : Carrier) : (r.enter c new).level = r.level := by
  cases new <;> rfl

theorem Carrier.enter_ramp (c : Ctx) (new : CarrierState) (r : Carrier) : (r.enter c new).ramp = r.ramp := by
  cases new <;> rfl

theorem Carrier.leave_ramp_eq (r : Carrier) : r.leave.ramp = r.ramp := by
  cases hs : r.state <;> simp [Carrier.leave, hs]

theorem StationWork.enterState_level (new : CarrierState) (c : Ctx) (w : StationWork) :
    (w.enterState new c).carrier.level = w.carrier.level := by
  rw [(StationWork.enterState_drives new c w).level, Carrier.enter_level, Carrier.leave_level]

theorem StationWork.enterState_ramp (new : CarrierState) (c : Ctx) (w : StationWork) :
    (w.enterState new c).carrier.ramp = w.carrier.ramp := by
  rw [(StationWork.enterState_drives new c w).ramp, Carrier.enter_ramp, Carrier.leave_ramp_eq]

theorem StationWork.enterState_activePattern (new : CarrierState) (c : Ctx) (w : StationWork) :
    (w.enterState new c).activePattern = w.activePattern := (StationWork.enterState_keeps new c w).1

/-! ### Ramp commands (R75 to R77, R79) -/

/-- The state a ramp command leads to: toward the target, or at it at once the state of a completed ramp (R75, R77). -/
def Carrier.rampState (ramp : Ramp) (r : Carrier) : CarrierState :=
  if ramp.target = r.level then r.completionState ramp.purpose else ramp.direction r.level

theorem StationWork.rampTo_state (ramp : Ramp) (c : Ctx) (w : StationWork) :
    (w.rampTo ramp c).carrier.state = w.carrier.rampState ramp := by
  unfold StationWork.rampTo StationWork.completeRamp Carrier.rampState
  split
  · exact StationWork.enterState_state _ c _
  · exact StationWork.enterState_state _ c _

theorem StationWork.rampTo_level (ramp : Ramp) (c : Ctx) (w : StationWork) : (w.rampTo ramp c).carrier.level = w.carrier.level := by
  unfold StationWork.rampTo StationWork.completeRamp
  split <;> exact StationWork.enterState_level _ c _

theorem StationWork.rampTo_ramp (ramp : Ramp) (c : Ctx) (w : StationWork) :
    (w.rampTo ramp c).carrier.ramp = if ramp.target = w.carrier.level then none else some ramp := by
  unfold StationWork.rampTo StationWork.completeRamp
  split <;> exact StationWork.enterState_ramp _ c _

theorem StationWork.rampTo_activePattern (ramp : Ramp) (c : Ctx) (w : StationWork) :
    (w.rampTo ramp c).activePattern = w.activePattern := (StationWork.rampTo_lights ramp c w).1

theorem StationWork.activeRecord_of_active {c : Ctx} {w : StationWork} {q : PatternNo} (h : w.activePattern = some q) :
    w.activeRecord c = (q, pattern c.image c.station q) := by
  simp [StationWork.activeRecord, h]

theorem StationWork.raiseToFull_of_active {c : Ctx} {w : StationWork} {q : PatternNo} (h : w.activePattern = some q) :
    StationWork.raiseToFull c w = w.rampTo ⟨(pattern c.image c.station q).power, .full, q⟩ c := by
  unfold StationWork.raiseToFull
  rw [StationWork.activeRecord_of_active h]

theorem StationWork.raiseToFault_of_active {c : Ctx} {w : StationWork} {q : PatternNo} (h : w.activePattern = some q) :
    StationWork.raiseToFault c w = w.rampTo ⟨(pattern c.image c.station q).fault, .fault, q⟩ c := by
  unfold StationWork.raiseToFault
  rw [StationWork.activeRecord_of_active h]

/-! ### Runs of commands -/

/-- `w` is `v` but for the records of the stations of a list, one command for each place, and two notices to each at most. -/
structure Work.Tunes (xs : List Station) (v w : Work) (stations : Pair StationUnit) (l : List (Station × Notice)) : Prop where
  eq : w = { v with stations := stations, posts := v.posts ++ l }
  few : ∀ y, (l.filter fun p => p.1 = y).length ≤ 2 * xs.count y
  alone : ∀ y ∉ xs, stations.get y = v.stations.get y

/-- A run of commands from `v` to `w`, to the stations of a list. -/
def Work.Tuned (xs : List Station) (v w : Work) : Prop := ∃ stations l, Work.Tunes xs v w stations l

theorem Work.Tuned.refl (v : Work) : v.Tuned [] v := ⟨v.stations, [], by simp, by simp, fun _ _ => rfl⟩

theorem Work.Tuned.trans {xs ys : List Station} {u v w : Work} (h : u.Tuned xs v) (k : v.Tuned ys w) :
    u.Tuned (xs ++ ys) w := by
  obtain ⟨s, l, rfl, few, alone⟩ := h
  obtain ⟨s', l', rfl, few', alone'⟩ := k
  refine ⟨s', l ++ l', by simp only [List.append_assoc], fun y => ?_, fun y hy => ?_⟩
  · rw [List.filter_append, List.length_append, List.count_append]
    have := few y
    have := few' y
    omega
  · rw [List.mem_append, not_or] at hy
    exact (alone' y hy.2).trans (alone y hy.1)

/-- A run that leaves a station of the list alone is a run of the list. -/
theorem Work.Tuned.of_refl {xs : List Station} (v : Work) : v.Tuned xs v := ⟨v.stations, [], by simp, by simp, fun _ _ => rfl⟩

/-- One command of one station. -/
theorem Work.onStation_tuned {x : Station} {f : Ctx → StationWork → StationWork} (w : Work)
    (hf : StationWork.Posted 2 { toStationUnit := w.stations.get x, out := [] }
      (f (w.toPlant.ctx x) { toStationUnit := w.stations.get x, out := [] })) : w.Tuned [x] (w.onStation x f) := by
  obtain ⟨l, hl, len⟩ := hf
  refine ⟨_, _, rfl, fun y => ?_, fun y hy => ?_⟩
  · rw [hl, List.nil_append]
    by_cases hy : y = x
    · rw [hy, List.count_singleton_self]
      exact (List.length_filter_le _ _).trans (by rw [List.length_map]; omega)
    · have none_ : ((l.map fun n => (x, n)).filter fun p : Station × Notice => p.1 = y) = [] := by
        rw [List.filter_eq_nil_iff]
        intro p hp
        obtain ⟨n, -, rfl⟩ := List.mem_map.1 hp
        simpa using Ne.symm hy
      rw [none_]
      exact Nat.zero_le _
  · exact Pair.get_set_of_ne _ _ (by simpa using hy)

theorem Work.Tuned.foldl {f : Work → Station → Work} (hf : ∀ w x, Work.Tuned [x] w (f w x)) (xs : List Station) (w : Work) :
    w.Tuned xs (xs.foldl f w) := by
  induction xs generalizing w with
  | nil => exact .refl w
  | cons x xs ih => exact (hf w x).trans (ih (f w x))

/-- A pattern set ahead of a command of the same station goes with it: it posts nothing (R19). -/
theorem Work.setPattern_tuned {x : Station} {p : Option PatternNo} {w v : Work} (h : (w.setPattern x p).Tuned [x] v) :
    w.Tuned [x] v := by
  obtain ⟨s, l, eq, few, alone⟩ := h
  rw [Work.setPattern_eq] at eq alone
  exact ⟨s, l, eq, few, fun y hy => (alone y hy).trans (Pair.get_set_of_ne _ _ (by simpa using hy))⟩

theorem Work.raiseBack_tuned (x : Station) (w : Work) : w.Tuned [x] (w.raiseBack x) := by
  unfold Work.raiseBack
  repeat' split
  · exact .of_refl w
  · exact Work.onStation_tuned w (StationWork.rampTo_posted _ _ _)
  · exact Work.onStation_tuned w (StationWork.rampTo_posted _ _ _)
  · exact .of_refl w

theorem Work.raiseBackAll_tuned (xs : List Station) (w : Work) : w.Tuned xs (w.raiseBackAll xs) :=
  Work.Tuned.foldl (fun w x => w.raiseBack_tuned x) xs w

theorem Work.carryResolved_tuned (x : Station) (choice : Option PatternNo) (w : Work) : w.Tuned [x] (w.carryResolved x choice) := by
  unfold Work.carryResolved
  split
  · exact Work.onStation_tuned w (StationWork.rampTo_posted _ _ _)
  · exact Work.onStation_tuned w (StationWork.goDark_posted _ _)

theorem Work.resolve_tuned (t : Transition) (x : Station) (w : Work) : w.Tuned [x] (w.resolve t x) :=
  Work.setPattern_tuned (Work.carryResolved_tuned x _ _)

theorem Work.endReversalFor_tuned (t : Transition) (x : Station) (w : Work) : w.Tuned [x] (w.endReversalFor t x) := by
  unfold Work.endReversalFor
  repeat' split
  · exact .of_refl w
  · exact w.raiseBack_tuned x
  · exact w.resolve_tuned t x

theorem Work.breakMap_tuned (before : Plant) (x : Station) (w : Work) : w.Tuned [x] (w.breakMap before x) := by
  unfold Work.breakMap
  repeat' split
  · exact .of_refl w
  · exact Work.setPattern_tuned (Work.onStation_tuned _ (StationWork.goDark_posted _ _))
  · exact .of_refl w

theorem Work.lowered_tuned (t : Transition) (w : Work) : w.Tuned t.affectedList (w.lowered t) :=
  Work.Tuned.foldl (fun w _ => Work.onStation_tuned w (StationWork.lowerToHold_posted _ _)) _ w

/-- No station stands twice in a set. -/
theorem StationSet.count_members (p : StationSet) (y : Station) : p.members.count y ≤ 1 := by
  obtain ⟨a, b⟩ := p
  cases a <;> cases b <;> cases y <;> decide

theorem Transition.count_restoreSet (t : Transition) (y : Station) : t.restoreSet.count y ≤ 1 := by
  unfold Transition.restoreSet Pair.recorded
  obtain ⟨a, b⟩ := t.entries
  cases a <;> cases b <;> cases y <;> simp [List.count]

/-- What a run of commands leaves in every field but the stations' records and the notices. -/
theorem Work.Tuned.field {α : Type} (g : Plant → α) (hg : ∀ (p : Plant) stations, g { p with stations := stations } = g p)
    {xs : List Station} {v w : Work} (h : v.Tuned xs w) : g w.toPlant = g v.toPlant := by
  obtain ⟨s, l, rfl, -, -⟩ := h
  exact hg v.toPlant s

theorem Work.Tuned.alone {xs : List Station} {v w : Work} (h : v.Tuned xs w) {y : Station} (hy : y ∉ xs) :
    w.stations.get y = v.stations.get y := by
  obtain ⟨s, l, rfl, -, alone⟩ := h
  exact alone y hy

/-! ### Notices behind a run of commands -/

/-- The notices posted to a station at an event that finds room for them. -/
theorem State.deliver_posts {posts : List (Station × Notice)} {s : State} {y : Station} (n : Nat)
    (few : (posts.filter fun p => p.1 = y).length ≤ n) (room : (s.ports.get y).notices.length + n ≤ 16) :
    ((State.deliver posts s).ports.get y).notices =
      (s.ports.get y).notices ++ (posts.filter fun p => p.1 = y).map fun p => p.2 :=
  State.deliver_notices posts s y (by
    have : Config.noticeQueueSize = 16 := rfl
    omega)

end Machine
end Sys2Proof

/-! PROOFS. The attempts of a move and what their ends bring (R43, R55 to R60): the coil's times, RF that disturbs a switch, the
next move, and the reversal begun. -/
namespace Sys2Proof
namespace Machine

/-! ### RF in SWITCH and REVERSE (R43, R88) -/

/-- RF_WHILE_INHIBITED, posted or not (R88). -/
theorem Work.noticeRf_eq (x : Station) (w : Work) :
    w.noticeRf x = { w with
      stations := w.stations.set x { w.stations.get x with
        carrier := { w.carrier x with rfNoticePosted := (w.carrier x).rfNoticePosted || w.noticesRf x } }
      posts := w.posts ++ if w.noticesRf x then [(x, .rfWhileInhibited (w.carrier x).state w.clock)] else [] } := by
  unfold Work.noticeRf
  by_cases h : w.noticesRf x = true
  · rw [if_pos h, Work.onStation_quiet_eq x (fun r => { r with rfNoticePosted := true })]
    simp only [h, Bool.or_true, if_true]
    rfl
  · have quiet : w.noticesRf x = false := Bool.eq_false_iff.2 h
    have same : ({ w.stations.get x with carrier := w.carrier x } : StationUnit) = w.stations.get x := rfl
    simp only [quiet, Bool.or_false, Bool.false_eq_true, if_false, List.append_nil, same, Pair.set_get_self]

/-- A disturbance with a move in progress (R43, R44). -/
theorem Work.disturbSwitch_moving {result : Result} {w : Work} {t : Transition} {m : Move} (ht : w.transition = some t)
    (hd : w.driver = some m) :
    w.disturbSwitch result = { w with
      driver := some { m with stop := true }
      transition := some { t with
        result := some (t.result.getD result)
        moves := dropWaiting (some m.contactor) t.moves } } := by
  unfold Work.disturbSwitch Work.stopDriver Work.onTransition
  simp only [hd, ht, Option.map_some, Option.isSome_some, if_true]

theorem dropWaiting_some (k : ContactorNo) (es : List MoveEntry) : dropWaiting (some k) es =
    es.map fun e => if e.outcome = .waiting ∧ e.contactor ≠ k then { e with outcome := .notDone } else e := by
  unfold dropWaiting
  simp only [ne_eq, Option.some.injEq]

/-- Settles O30: the value is taken, the notice posted or not, and the move in progress stopped. -/
theorem rfDisturbsSwitch : Obligations.RfDisturbsSwitch := by
  intro x s t m running changed active phase moving carried posts
  obtain ⟨w, hw⟩ : ∃ w : Work, w = { s.work with
      stations := s.stations.set x { s.stations.get x with carrier := (s.carrier x).takeRfPresent true } } := ⟨_, rfl⟩
  have unit : w.stations.get x = { s.stations.get x with carrier := (s.carrier x).takeRfPresent true } := by
    rw [hw]
    exact Pair.get_set_self _ _ _
  have carrier : w.carrier x = (s.carrier x).takeRfPresent true := congrArg StationUnit.carrier unit
  have notices : w.noticesRf x = posts := by
    unfold Plant.noticesRf
    rw [show w.transition = some t by rw [hw]; exact active, carrier]
    rfl
  have followed : (s.work.onStation x fun _ u => { u with carrier := u.carrier.takeRfPresent true }) = w := by
    rw [hw]
    exact Work.onStation_quiet_eq x (Carrier.takeRfPresent true) s.work
  obtain ⟨v, hv⟩ : ∃ v, v = w.noticeRf x := ⟨_, rfl⟩
  have posted := w.noticeRf_eq x
  rw [← hv, notices, unit, carrier] at posted
  have transition : v.transition = some t := by rw [posted, hw]; exact active
  have driver : v.driver = some m := by rw [posted, hw]; exact moving
  have disturbed : v.rfDisturbance x = v.disturbSwitch .rfDuringSwitch := by
    unfold Work.rfDisturbance
    simp only [transition]
    refine if_pos ⟨phase, ?_⟩
    rw [posted, hw]
    exact carried
  have stopped := Work.disturbSwitch_moving (result := .rfDuringSwitch) transition driver
  rw [dropWaiting_some] at stopped
  have event : s.work.rfPresent x true = v.disturbSwitch .rfDuringSwitch := by
    have taken : s.work.rfPresent x true = s.work.rfEvent x true := by
      unfold Work.rfPresent
      rw [show s.work.phase = .running from running]
      exact if_neg changed
    rw [taken]
    unfold Work.rfEvent
    dsimp only
    rw [followed, if_pos rfl, ← hv, disturbed]
    exact Work.examinePending_active _ (by rw [stopped]; simp)
  refine congrArg Host.Outcome.next ?_
  rw [State.event_eq _ s fun y => ?_, event, stopped, posted, hw, State.finish_eq]
  · simp only [Pair.set_set]
    rfl
  · rw [event, stopped, posted, hw]
    simp only [Pair.set_set]
    by_cases hy : y = x
    · subst hy
      rw [Pair.get_set_self]
    · rw [Pair.get_set_of_ne _ _ hy]

/-! ### How an attempt ends (R59) -/

theorem Side.other_ne (side : Side) : side.other ≠ side := by cases side <;> decide

theorem attemptEnd_moved (m : Move) (retries : Nat) : attemptEnd m (some m.toPos) retries = some .moved := if_pos rfl

section
variable {m : Move} {retries : Nat}

/-- With a retry left, in the from position still: a further attempt, or none with the stop flag set. -/
theorem attemptEnd_retry (h : m.attempt ≤ retries) :
    attemptEnd m (some m.toPos.other) retries = if m.stop then some .stopped else none :=
  (if_neg (Side.other_ne _)).trans (if_pos h)

theorem attemptEnd_stuck (h : ¬m.attempt ≤ retries) : attemptEnd m (some m.toPos.other) retries = some .stuck :=
  (if_neg (Side.other_ne _)).trans (if_neg h)

end

/-- The work once an attempt is read: elapsed time at the end of the settle, and the live record by the outcome. -/
def Work.attemptRead (m : Move) (o : Option MoveOutcome) (w : Work) : Work :=
  (w.reach m.due).onLive m.contactor (Live.afterAttempt m o)

section
variable {m : Move} {w : Work} (hd : w.driver = some m) (hp : m.phase = .settling)
include hd hp

/-- The settle ends in a further attempt (R59). -/
theorem Work.endSettle_again (ho : attemptEnd m w.aux[m.contactor].shows (contactorRecord w.activeImage m.contactor).retries = none) :
    w.endSettle = (w.attemptRead m none).attempt { m with attempt := m.attempt + 1, phase := .check } := by
  have read : attemptEnd m (w.reach m.due).aux[m.contactor].shows
      (contactorRecord (w.reach m.due).activeImage m.contactor).retries = none := ho
  unfold Work.endSettle
  simp only [hd, hp, if_true]
  rw [read]
  rfl

/-- The settle ends in an outcome of the move (R59, R60). -/
theorem Work.endSettle_ended {o : MoveOutcome}
    (ho : attemptEnd m w.aux[m.contactor].shows (contactorRecord w.activeImage m.contactor).retries = some o) :
    w.endSettle = Work.moveOutcome m.contactor o
      (if o = .stuck ∨ o = .disagree then (w.attemptRead m (some o)).postFault m.contactor .move
      else w.attemptRead m (some o)) := by
  have read : attemptEnd m (w.reach m.due).aux[m.contactor].shows
      (contactorRecord (w.reach m.due).activeImage m.contactor).retries = some o := ho
  unfold Work.endSettle
  simp only [hd, hp, if_true]
  rw [read]
  rfl

end

/-- An attempt under the interlock law begins its pulse (R57, R58). -/
theorem Work.attempt_begins {move : Move} {w : Work} (h : w.checkPasses move.contactor = true) :
    w.attempt move = { w with
      driver := some { move with
        phase := .pulsing, due := w.elapsed + Config.ms (contactorRecord w.activeImage move.contactor).pulse }
      contactors := w.contactors.set move.contactor { w.contactors[move.contactor] with state := .pulsing } } :=
  if_pos h

theorem Vector.set_live_self (v : Vector Live 16) (k : ContactorNo) (l : Live) : (v.set k l)[k] = l := by simp

theorem Vector.set_live_of_ne (v : Vector Live 16) {j k : ContactorNo} (l : Live) (h : j ≠ k) : (v.set k l)[j] = v[j] := by
  have : (k : Nat) ≠ j := fun he => h (Fin.ext he.symm)
  simp [Vector.getElem_set_ne, this]

theorem Vector.set_live_set (v : Vector Live 16) (k : ContactorNo) (l l' : Live) : (v.set k l).set k l' = v.set k l' := by
  simp

/-- Resolution and the end leave the contactors, the driver and the pending list as they stand (R43, R49, R51). -/
theorem Work.resolveAndEnd_frame (result : Result) (w : Work) :
    (w.resolveAndEnd result).driver = w.driver ∧ (w.resolveAndEnd result).contactors = w.contactors ∧
      (w.resolveAndEnd result).pendingList = w.pendingList ∧ (w.resolveAndEnd result).transition = none := by
  unfold Work.resolveAndEnd
  split
  · next h => exact ⟨rfl, rfl, rfl, h⟩
  · next t ht =>
    obtain ⟨v, hv⟩ : ∃ v, v = t.restoreSet.foldl (fun w x => w.resolve t x) w := ⟨_, rfl⟩
    have tuned : w.Tuned t.restoreSet v := hv ▸ Work.Tuned.foldl (fun w x => w.resolve_tuned t x) _ w
    have active : (v.handLastState false).transition = some t := by
      rw [Work.handLastState_eq]
      exact (tuned.field Plant.transition fun _ _ => rfl).trans ht
    rw [← hv, Work.endTransition_eq _ _ t active, Work.handLastState_eq]
    exact ⟨tuned.field Plant.driver fun _ _ => rfl, tuned.field Plant.contactors fun _ _ => rfl,
      tuned.field Plant.pendingList fun _ _ => rfl, rfl⟩

/-- A refused CHECK leaves no move held and no transition active (R38, R57). -/
theorem Work.moveRefused_frame (w : Work) :
    w.moveRefused.driver = none ∧ w.moveRefused.contactors = w.contactors ∧
      w.moveRefused.pendingList = w.pendingList ∧ w.moveRefused.transition = none :=
  Work.resolveAndEnd_frame .rfDuringSwitch _

/-- The event of a settle's end (R59). -/
theorem exec_settleTimeEnd {s : State} {w : Work} (h : s.work.endSettle.examinePending = w)
    (hs : ∀ y, (w.stations.get y).scanStay = (s.stations.get y).scanStay) : exec .settleTimeEnd s = .next (s.finish w) := by
  refine congrArg Host.Outcome.next ?_
  rw [State.event_eq _ s (fun y => by rw [h]; exact hs y), h]

/-- The coil is on in the pulse alone (R55). -/
theorem Plant.coil_of {p : Plant} {m : Move} (h : p.driver = some m) :
    p.coil = if m.phase = .pulsing then some (m.contactor, m.toPos) else none := by
  unfold Plant.coil
  rw [h]

/-- Settles O34: the pulse ends, and a settle that reads the from position with a retry left makes the CHECK again. -/
theorem attemptsRun : Obligations.AttemptsRun := by
  intro s m moving k was record now
  have driver : s.work.driver = some m := moving
  refine ⟨fun phase => ⟨(Plant.coil_of moving).trans (if_pos phase), ?_⟩,
    fun phase => ⟨congrArg Host.Outcome.next (State.event_idle ?_), (Plant.coil_of moving).trans (if_neg phase)⟩, ?_⟩
  · have ended : s.work.endPulse = { s.work with
        elapsed := now
        driver := some { m with phase := .settling, due := now + Config.ms record.settle }
        contactors := s.contactors.set k { was with state := .settling } } := by
      unfold Work.endPulse
      rw [driver]
      exact if_pos phase
    refine ⟨_, congrArg Host.Outcome.next ((State.event_eq _ s fun y => by rw [ended]; rfl).trans (by rw [ended]; rfl)), ?_, rfl⟩
    rfl
  · unfold Work.endPulse
    rw [driver]
    exact if_neg phase
  · intro phase shown retry unstopped waiting ready
    have again : attemptEnd m s.work.aux[m.contactor].shows (contactorRecord s.work.activeImage m.contactor).retries = none := by
      rw [show s.work.aux[m.contactor].shows = some m.toPos.other from shown, attemptEnd_retry (show m.attempt ≤ (contactorRecord s.work.activeImage m.contactor).retries from retry), unstopped]
      rfl
    have settled := Work.endSettle_again driver phase again
    obtain ⟨w, hw⟩ : ∃ w, w = s.work.attemptRead m none := ⟨_, rfl⟩
    rw [← hw] at settled
    have live : w.contactors = s.contactors.set k ⟨was.position, .idle, .noFailure⟩ := by rw [hw]; rfl
    have liveK : w.contactors[k] = ⟨was.position, .idle, .noFailure⟩ := by rw [live]; exact Vector.set_live_self _ _ _
    constructor
    · intro cold
      have passes : w.checkPasses k = true := by
        refine Plant.checkPasses_of (by rw [liveK]; simp) fun y hy => ?_
        rw [hw] at hy ⊢
        exact cold y hy
      rw [Work.attempt_begins (move := { m with attempt := m.attempt + 1, phase := .check }) passes] at settled
      have examined : s.work.endSettle.examinePending = s.work.endSettle := by
        refine Work.examinePending_waiting _ ?_
        rw [settled, hw]
        exact waiting.congr rfl rfl rfl
      refine (exec_settleTimeEnd (examined.trans settled) fun y => by rw [hw]; rfl).trans ?_
      rw [liveK, live, Vector.set_live_set, hw, State.finish_eq]
      rfl
    · rintro ⟨y, hy, warm⟩ empty
      have fails : ¬w.checkPasses k = true := fun passes => by
        simp only [Plant.checkPasses, Bool.and_eq_true, List.all_eq_true, beq_iff_eq] at passes
        refine warm ?_
        have := passes.2 y (StationSet.mem_members.2 (by rw [hw]; exact hy))
        rw [hw] at this
        exact this
      have refused : s.work.endSettle = w.moveRefused := settled.trans (if_neg fails)
      obtain ⟨unheld, contactors, list, idle⟩ := w.moveRefused_frame
      have examined : s.work.endSettle.examinePending = w.moveRefused := by
        rw [refused]
        refine Work.examinePending_of_empty (list.trans ?_)
        rw [hw]
        exact empty
      obtain ⟨u, hu⟩ : ∃ u, u = s.event fun w => w.endSettle.examinePending := ⟨_, rfl⟩
      have field {α : Type} (g : Plant → α)
          (hg : ∀ (p : Plant) list m e, g { p with scanList := list, measurement := m, lastEntry := e } = g p) :
          g u.toPlant = g w.moveRefused.toPlant := by
        rw [hu, State.event_field g hg, examined]
      have coil : u.driver = none := (field Plant.driver fun _ _ _ _ => rfl).trans unheld
      refine ⟨u, by rw [hu]; rfl, coil, ?_, (field Plant.transition fun _ _ _ _ => rfl).trans idle,
        (field Plant.contactors fun _ _ _ _ => rfl).trans (contactors.trans live)⟩
      unfold Plant.coil
      rw [coil]

end Machine
end Sys2Proof

/-! PROOFS. The outcome of a move handed to the Transition Engine (R38 to R42, R48, R60): the next move, and the reversal begun. -/
namespace Sys2Proof
namespace Machine

/-! ### What an outcome leads to -/

/-- The record with the outcome of a contactor's entry written (R60). -/
def Transition.written (t : Transition) (k : ContactorNo) (o : MoveOutcome) : Transition :=
  { t with moves := writeOutcome k (if t.phase = .reverse then o.forReversal else o.forSwitch) t.moves }

/-- The record as a reversal begins (R40, R48). -/
def Transition.reversing (t : Transition) (cause : ReversalCause) : Transition :=
  { t with phase := .reverse, cause := some cause, moves := dropWaiting none t.moves }

/-- The work as the Transition Engine takes an outcome: the driver holds no move, and the entry is written (R60). -/
def Work.released (t : Transition) (k : ContactorNo) (o : MoveOutcome) (w : Work) : Work :=
  { w with driver := none, transition := some (t.written k o) }

section
variable {t : Transition} {w : Work} {k : ContactorNo} {o : MoveOutcome} (ht : w.transition = some t)
include ht

theorem Work.writeMoveOutcome_eq : Work.writeMoveOutcome k o { w with driver := none } = w.released t k o := by
  unfold Work.writeMoveOutcome Work.onTransition Work.released
  simp only [ht, Option.map_some]
  rfl

/-- In SWITCH with no result decided (R38 to R40, R48). -/
theorem Work.moveOutcome_switch (phase : t.phase = .switch) (undecided : t.result = none) :
    w.moveOutcome k o = (w.released t k o).afterSwitchMove (t.written k o) o := by
  have result : (t.written k o).result = none := undecided
  have switching : (t.written k o).phase = .switch := phase
  have active : (w.released t k o).transition = some (t.written k o) := rfl
  unfold Work.moveOutcome
  rw [Work.writeMoveOutcome_eq ht]
  simp only [active, result, switching]

/-- In REVERSE with no result decided (R41). -/
theorem Work.moveOutcome_reverse (phase : t.phase = .reverse) (undecided : t.result = none) :
    w.moveOutcome k o = (w.released t k o).afterReversal o := by
  have result : (t.written k o).result = none := undecided
  have reversing : (t.written k o).phase = .reverse := phase
  have active : (w.released t k o).transition = some (t.written k o) := rfl
  unfold Work.moveOutcome
  rw [Work.writeMoveOutcome_eq ht]
  simp only [active, result, reversing]

/-- Behind a disturbance that has decided the result (R43, R44). -/
theorem Work.moveOutcome_decided {r : Result} (decided : t.result = some r) :
    w.moveOutcome k o = (w.released t k o).resolveAndEnd r := by
  have result : (t.written k o).result = some r := decided
  have active : (w.released t k o).transition = some (t.written k o) := rfl
  unfold Work.moveOutcome
  rw [Work.writeMoveOutcome_eq ht]
  simp only [active, result]

theorem Work.beginReverse_eq (cause : ReversalCause) :
    w.beginReverse cause = Work.nextReversal { w with transition := some (t.reversing cause) } := by
  unfold Work.beginReverse Work.onTransition Transition.reversing
  simp only [ht, Option.map_some]

/-- The latest MOVED entry is commanded back and its pulse begins (R41, R56, R57). -/
theorem Work.nextReversal_begins {e : MoveEntry} (he : t.moves.reverse.find? (fun d => d.outcome == .moved) = some e)
    (hc : w.checkPasses e.contactor = true) :
    w.nextReversal = { w with
      driver := some ⟨e.contactor, w.contactors[e.contactor].position, e.fromPos.getD e.toPos.other, 1, .pulsing, false,
        w.elapsed + Config.ms (contactorRecord w.activeImage e.contactor).pulse⟩
      contactors := w.contactors.set e.contactor { w.contactors[e.contactor] with state := .pulsing } } := by
  have commanded : w.nextReversal = w.commandMove e.contactor (e.fromPos.getD e.toPos.other) := by
    unfold Work.nextReversal
    simp only [ht, he]
  rw [commanded, Work.commandMove_begins hc]

/-- With no MOVED entry left the reversal is complete (R42). -/
theorem Work.nextReversal_completes (he : ∀ d ∈ t.moves, d.outcome ≠ .moved) : w.nextReversal = w.reversalComplete t := by
  have nothing : t.moves.reverse.find? (fun e => e.outcome == .moved) = none := by
    rw [List.find?_eq_none]
    intro d hd
    simpa using he d (List.mem_reverse.1 hd)
  unfold Work.nextReversal
  simp only [ht, nothing]

end

/-- The list as a reversal begins: the contactor's entries written, every other WAITING entry NOT_DONE. -/
theorem dropWaiting_writeOutcome {k : ContactorNo} {o : EntryOutcome} (ho : o ≠ .waiting) (es : List MoveEntry) :
    dropWaiting none (writeOutcome k o es) = es.map fun d =>
      if d.contactor = k then { d with outcome := o } else if d.outcome = .waiting then { d with outcome := .notDone } else d := by
  unfold dropWaiting writeOutcome
  rw [List.map_map]
  refine List.map_congr_left fun d _ => ?_
  by_cases hk : d.contactor = k
  · simp [hk, ho]
  · simp [hk]

/-! ### The moves that begin a reversal (R40, R48) -/

/-- An attempt that ends the move and has the switch undone: the live record it leaves, the outcome written, the cause, and
whether it is a fault (R40, R48, R59). -/
theorem reversal_outcome {s : State} {m : Move} {t : Transition} {after : Live} {written : EntryOutcome}
    {cause : ReversalCause} {faulty : Bool}
    (h : (s.aux[m.contactor].shows = some m.toPos ∧ t.withdrawTaken = true ∧ after = ⟨some m.toPos, .idle, .noFailure⟩ ∧
          written = .moved ∧ cause = .withdraw ∧ faulty = false) ∨
        (s.aux[m.contactor].shows = some m.toPos.other ∧ m.attempt ≤ (contactorRecord s.activeImage m.contactor).retries ∧
          m.stop = true ∧ after = ⟨s.contactors[m.contactor].position, .idle, .noFailure⟩ ∧ written = .notDone ∧
          cause = .withdraw ∧ faulty = false) ∨
        (s.aux[m.contactor].shows = some m.toPos.other ∧ ¬m.attempt ≤ (contactorRecord s.activeImage m.contactor).retries ∧
          after = ⟨s.contactors[m.contactor].position, .failed, .stuck⟩ ∧ written = .stuck ∧ cause = .fault ∧ faulty = true) ∨
        (s.aux[m.contactor].shows = none ∧ after = ⟨none, .failed, .disagree⟩ ∧ written = .disagree ∧ cause = .fault ∧
          faulty = true)) :
    ∃ o, attemptEnd m s.aux[m.contactor].shows (contactorRecord s.activeImage m.contactor).retries = some o ∧
      Live.afterAttempt m (some o) s.contactors[m.contactor] = after ∧ o.forSwitch = written ∧ written ≠ .waiting ∧
      ((o = .stuck ∨ o = .disagree) ↔ faulty = true) ∧
      ∀ w : Work, w.afterSwitchMove (t.written m.contactor o) o = w.beginReverse cause := by
  rcases h with ⟨shown, taken, rfl, rfl, rfl, rfl⟩ | ⟨shown, retry, stop, rfl, rfl, rfl, rfl⟩ |
    ⟨shown, spent, rfl, rfl, rfl, rfl⟩ | ⟨shown, rfl, rfl, rfl, rfl⟩
  · refine ⟨.moved, by rw [shown]; exact attemptEnd_moved _ _, rfl, rfl, by decide, by decide, fun w => ?_⟩
    exact if_pos taken
  · refine ⟨.stopped, by rw [shown, attemptEnd_retry retry, stop]; rfl, rfl, rfl, by decide, by decide, fun w => rfl⟩
  · exact ⟨.stuck, by rw [shown]; exact attemptEnd_stuck spent, rfl, rfl, by decide, by decide, fun w => rfl⟩
  · exact ⟨.disagree, by rw [shown]; rfl, rfl, rfl, by decide, by decide, fun w => rfl⟩

/-- The work an outcome is handed from: the attempt read, and CONTACTOR_FAULT posted for a fault (R59, R60). -/
theorem Work.handed_eq {m : Move} {o : MoveOutcome} {faulty : Bool} {w : Work}
    (hf : (o = .stuck ∨ o = .disagree) ↔ faulty = true) :
    (if o = .stuck ∨ o = .disagree then (w.attemptRead m (some o)).postFault m.contactor .move else w.attemptRead m (some o)) =
      { w with
        elapsed := max w.elapsed m.due
        contactors := w.contactors.set m.contactor (Live.afterAttempt m (some o) w.contactors[m.contactor])
        posts := w.posts ++ if faulty then (carrierSet w.activeImage m.contactor).members.map fun y =>
          (y, .contactorFault m.contactor (Live.afterAttempt m (some o) w.contactors[m.contactor]) .move) else [] } := by
  by_cases h : faulty = true
  · rw [if_pos (hf.2 h), if_pos h, Work.postFault_eq]
    have live : (w.attemptRead m (some o)).contactors[m.contactor] =
        Live.afterAttempt m (some o) w.contactors[m.contactor] := Vector.set_live_self _ _ _
    rw [live]
    rfl
  · rw [if_neg fun ho => h (hf.1 ho), if_neg h, List.append_nil]
    rfl

/-- Settles O37: the outcome is written, the reversal begun, and its first move commanded. -/
theorem reversalBegins : Obligations.ReversalBegins := by
  intro s m t e after written cause faulty moving settling active phase undecided k was retry outcome moves live now last fit cold
  obtain ⟨o, ended, read, wrote, done, fault, reverse⟩ := reversal_outcome outcome
  have settled := Work.endSettle_ended (w := s.work) moving settling ended
  rw [Work.handed_eq (w := s.work) fault, show s.work.contactors[m.contactor] = was from rfl, read] at settled
  obtain ⟨w, hw⟩ : ∃ w : Work, w = { s.work with
      elapsed := now
      contactors := live
      posts := if faulty then (carrierSet s.activeImage k).members.map fun y => (y, .contactorFault k after .move) else [] } :=
    ⟨_, rfl⟩
  have settled : s.work.endSettle = w.moveOutcome k o := by rw [settled, hw]; rfl
  have transition : w.transition = some t := by rw [hw]; exact active
  obtain ⟨v, hv⟩ : ∃ v : Work, v = { w with
      driver := none, transition := some { t with phase := .reverse, cause := some cause, moves := moves } } := ⟨_, rfl⟩
  have reversing : (t.written k o).reversing cause = { t with phase := .reverse, cause := some cause, moves := moves } := by
    unfold Transition.reversing Transition.written
    rw [if_neg (by rw [phase]; simp), wrote, dropWaiting_writeOutcome done]
  have begun : s.work.endSettle = v.nextReversal := by
    rw [settled, Work.moveOutcome_switch transition phase undecided, reverse, Work.beginReverse_eq rfl, reversing, hv]
    rfl
  have passes : v.checkPasses e.contactor = true := by
    refine Plant.checkPasses_of (by rw [hv, hw]; exact fit) fun y hy => ?_
    rw [hv, hw] at hy ⊢
    exact cold y hy
  rw [Work.nextReversal_begins (t := { t with phase := .reverse, cause := some cause, moves := moves }) (by rw [hv]) last passes,
    hv, hw] at begun
  have examined : s.work.endSettle.examinePending = s.work.endSettle := by
    rw [begun]
    exact Work.examinePending_active _ (by simp)
  refine (exec_settleTimeEnd (examined.trans begun) fun _ => rfl).trans ?_
  rw [State.finish_eq]
  rfl

end Machine
end Sys2Proof

/-! PROOFS. A station raised back by its return level (R35, R79) and a station resolved (R49, R116), as the words of the claims
have them, at the end of a run of commands to both stations. -/
namespace Sys2Proof
namespace Machine

/-! ### One station's place in a run of commands -/

/-- In a run of one command to each station of a list, a station's records are those its own command leaves of them, from a
work in which they are as they were and only other stations have been commanded. -/
theorem Work.foldl_at {f : Work → Station → Work} (hf : ∀ w x, Work.Tuned [x] w (f w x)) {xs : List Station}
    (nodup : xs.Nodup) {y : Station} (hy : y ∈ xs) (w : Work) :
    ∃ v ys, w.Tuned ys v ∧ y ∉ ys ∧ (xs.foldl f w).stations.get y = (f v y).stations.get y := by
  induction xs generalizing w with
  | nil => cases hy
  | cons x xs ih =>
    obtain ⟨fresh, nodup⟩ := List.nodup_cons.1 nodup
    by_cases hx : y = x
    · subst hx
      exact ⟨w, [], .refl w, by simp, (Work.Tuned.foldl hf xs (f w y)).alone fresh⟩
    · obtain ⟨v, ys, tuned, hv, get⟩ := ih nodup ((List.mem_cons.1 hy).resolve_left hx) (f w x)
      exact ⟨v, [x] ++ ys, (hf w x).trans tuned, by simp [hx, hv], get⟩

theorem StationSet.nodup_members (p : StationSet) : p.members.Nodup := by
  obtain ⟨a, b⟩ := p
  cases a <;> cases b <;> decide

theorem Transition.nodup_restoreSet (t : Transition) : t.restoreSet.Nodup := by
  unfold Transition.restoreSet Pair.recorded
  obtain ⟨a, b⟩ := t.entries
  cases a <;> cases b <;> simp

/-! ### Raised back (R35, R77, R79) -/

/-- Where a ramp command leads, by where the level stands (R75, R77). -/
theorem Carrier.rampState_eq (ramp : Ramp) (r : Carrier) : r.rampState ramp =
    if r.level < ramp.target then .raising else if ramp.target < r.level then .lowering
    else r.completionState ramp.purpose := by
  unfold Carrier.rampState Ramp.direction
  rcases Nat.lt_trichotomy r.level ramp.target with h | h | h
  · rw [if_neg (Nat.ne_of_gt h), if_neg (Nat.not_lt_of_gt h), if_pos h]
  · rw [if_pos h.symm, if_neg (Nat.not_lt.2 (Nat.le_of_eq h.symm)), if_neg (Nat.not_lt.2 (Nat.le_of_eq h))]
  · rw [if_neg (Nat.ne_of_lt h), if_pos h, if_neg (Nat.not_lt_of_gt h), if_pos h]

/-- What a raise back leaves of its station. -/
theorem Work.raiseBack_spec {w : Work} {y : Station} {q : PatternNo} (active : w.active y = some q)
    (lit : (w.carrier y).state ≠ .dark) :
    let record := pattern w.activeImage y q
    let r := w.carrier y
    let level := (w.transition.bind fun t => t.entries.get y).bind fun e => e.returnLevel
    (w.raiseBack y).active y = some q ∧ ((w.raiseBack y).carrier y).level = r.level ∧
    (level = some .full →
      ((w.raiseBack y).carrier y).state = r.rampState ⟨record.power, .full, q⟩ ∧
      ((w.raiseBack y).carrier y).ramp = if record.power = r.level then none else some ⟨record.power, .full, q⟩) ∧
    (level = some .fault →
      ((w.raiseBack y).carrier y).state = r.rampState ⟨record.fault, .fault, q⟩ ∧
      ((w.raiseBack y).carrier y).ramp = if record.fault = r.level then none else some ⟨record.fault, .fault, q⟩) := by
  intro record r level
  obtain ⟨v, hv⟩ : ∃ v : StationWork, v = { toStationUnit := w.stations.get y, out := [] } := ⟨_, rfl⟩
  have pattern_ : v.activePattern = some q := by rw [hv]; exact active
  have carrier : v.carrier = r := by rw [hv]; rfl
  have ramped (ramp : Ramp) : ((v.rampTo ramp (w.toPlant.ctx y)).activePattern = some q) ∧
      (v.rampTo ramp (w.toPlant.ctx y)).carrier.level = r.level ∧
      (v.rampTo ramp (w.toPlant.ctx y)).carrier.state = r.rampState ramp ∧
      (v.rampTo ramp (w.toPlant.ctx y)).carrier.ramp = if ramp.target = r.level then none else some ramp := by
    rw [StationWork.rampTo_activePattern, StationWork.rampTo_level, StationWork.rampTo_state, StationWork.rampTo_ramp, carrier]
    exact ⟨pattern_, rfl, rfl, rfl⟩
  have commanded (f : Ctx → StationWork → StationWork) : (w.onStation y f).stations.get y = (f (w.toPlant.ctx y) v).toStationUnit := by
    rw [Work.onStation_get, if_pos rfl, hv]
  have raised : w.raiseBack y = match level with
      | some .full => w.onStation y StationWork.raiseToFull
      | some .fault => w.onStation y StationWork.raiseToFault
      | none => w := if_neg lit
  cases hl : level with
  | none =>
    rw [hl] at raised
    rw [raised]
    exact ⟨active, rfl, by simp, by simp⟩
  | some l =>
    rw [hl] at raised
    cases l with
    | full =>
      dsimp only at raised
      unfold Plant.active Plant.carrier
      rw [raised, commanded, StationWork.raiseToFull_of_active pattern_]
      obtain ⟨h1, h2, h3, h4⟩ := ramped ⟨record.power, .full, q⟩
      exact ⟨h1, h2, fun _ => ⟨h3, h4⟩, by simp⟩
    | fault =>
      dsimp only at raised
      unfold Plant.active Plant.carrier
      rw [raised, commanded, StationWork.raiseToFault_of_active pattern_]
      obtain ⟨h1, h2, h3, h4⟩ := ramped ⟨record.fault, .fault, q⟩
      exact ⟨h1, h2, by simp, fun _ => ⟨h3, h4⟩⟩

/-- A station whose records a raise back has left is raised back. -/
theorem State.raisedBack_of {s u : State} {t : Transition} {y : Station} {v : Work}
    (hv : v.stations.get y = s.stations.get y) (hi : v.activeImage = s.activeImage)
    (ht : (v.transition.bind fun t => t.entries.get y) = t.entries.get y)
    (hu : u.stations.get y = (v.raiseBack y).stations.get y) : s.RaisedBack t y u := by
  intro q active lit record r
  have carrier : v.carrier y = s.carrier y := congrArg StationUnit.carrier hv
  have after : u.carrier y = (v.raiseBack y).carrier y := congrArg StationUnit.carrier hu
  have pattern_ : u.active y = (v.raiseBack y).active y := congrArg StationUnit.activePattern hu
  obtain ⟨h1, h2, full, fault⟩ := Work.raiseBack_spec (w := v) ((congrArg StationUnit.activePattern hv).trans active)
    (by rw [carrier]; exact lit)
  rw [ht, hi, carrier] at full fault
  rw [carrier] at h2
  refine ⟨pattern_.trans h1, (congrArg Carrier.level after).trans h2, fun h => ?_, fun h => ?_⟩
  · obtain ⟨state, ramp⟩ := full h
    rw [after, state, ramp]
    rw [Carrier.rampState_eq]
    exact ⟨rfl, if_congr eq_comm rfl rfl⟩
  · obtain ⟨state, ramp⟩ := fault h
    rw [after, state, ramp]
    rw [Carrier.rampState_eq]
    exact ⟨rfl, if_congr eq_comm rfl rfl⟩

/-! ### A pattern set or taken (R112, R116) -/

/-- Towers all at UNKNOWN have UNKNOWN for their worst, if there is one (R112). -/
theorem foldl_worse_unknown {α : Type} (f : α → Status) {l : List α} (hl : l ≠ []) (hf : ∀ a ∈ l, f a = .unknown) :
    l.foldl (fun (worst : Status) a => worst.worse (f a)) .inTolerance = .unknown := by
  have stays (l : List α) (hf : ∀ a ∈ l, f a = .unknown) :
      l.foldl (fun (worst : Status) a => worst.worse (f a)) .unknown = .unknown := by
    induction l with
    | nil => rfl
    | cons a l ih =>
      rw [List.foldl_cons, hf a List.mem_cons_self]
      exact ih fun b hb => hf b (List.mem_cons_of_mem a hb)
  cases l with
  | nil => exact absurd rfl hl
  | cons a l =>
    rw [List.foldl_cons, hf a List.mem_cons_self]
    exact stays l fun b hb => hf b (List.mem_cons_of_mem a hb)

/-- What the setting of a pattern leaves of the channels and the statuses (R112, R116). -/
theorem StationUnit.patterned_unjudged (c : Ctx) (p : Option PatternNo) (u : StationUnit) :
    (∀ i : TowerNo, (u.patterned c p).channels[i] = { u.channels[i] with figures := none, towerStatus := .unknown }) ∧
    ((∀ q, p = some q → 2 ≤ (pattern c.image c.station q).towers) →
      (u.patterned c p).arrayStatus = .unknown ∧
      (u.patterned c p).carrier.lastStatus = if u.arrayStatus = .unknown then u.carrier.lastStatus else .unknown) := by
  obtain ⟨v, hv⟩ : ∃ v : StationWork, v = { toStationUnit := { u with
      activePattern := p
      channels := Vector.ofFn fun i => u.channels[i].unjudged
      carrier := { u.carrier with verifyRequired := u.carrier.verifyRequired || p.isSome } }, out := [] } := ⟨_, rfl⟩
  have set : u.patterned c p = (v.quietReport c).toStationUnit := by rw [hv]; rfl
  have channels : (v.quietReport c).channels = v.channels := by
    unfold StationWork.quietReport
    dsimp only
    split <;> rfl
  constructor
  · intro i
    rw [set, channels, hv]
    simp [Channel.unjudged]
  · intro towers
    have decided : v.toStationUnit.decideStatus c = .unknown := by
      unfold StationUnit.decideStatus
      rw [hv]
      cases p with
      | none => rfl
      | some q =>
        dsimp only
        split
        · refine foldl_worse_unknown (fun i : TowerNo => (Vector.ofFn fun i : TowerNo => u.channels[i].unjudged)[i].towerStatus)
            (List.ne_nil_of_mem (a := (0 : TowerNo)) ?_) fun i _ => by simp [Channel.unjudged]
          have := towers q rfl
          simp [monitoredTowers, this]
        · rfl
    rw [set]
    unfold StationWork.quietReport
    dsimp only
    rw [decided]
    by_cases h : u.arrayStatus = .unknown
    · rw [if_pos (by rw [hv]; exact h.symm), if_pos h, hv]
      exact ⟨h, rfl⟩
    · rw [if_neg (by rw [hv]; exact fun he => h he.symm), if_neg h]
      exact ⟨rfl, rfl⟩

/-- The words of the claims for it: the records a pattern set leaves, whatever of the carrier has changed behind. -/
theorem State.unjudged_of {s u : State} {y : Station} {c : Ctx} {p : Option PatternNo} (image : c.image = s.activeImage)
    (station : c.station = y) (active : u.active y = p)
    (channels : (u.stations.get y).channels = ((s.stations.get y).patterned c p).channels)
    (status : (u.stations.get y).arrayStatus = ((s.stations.get y).patterned c p).arrayStatus)
    (last : (u.carrier y).lastStatus = ((s.stations.get y).patterned c p).carrier.lastStatus) : s.Unjudged y u := by
  obtain ⟨towers, statuses⟩ := (s.stations.get y).patterned_unjudged c p
  refine ⟨fun i => by rw [channels]; exact towers i, fun h => ?_⟩
  obtain ⟨array, carrier⟩ := statuses fun q hq => by
    rw [image, station]
    exact h q (active.trans hq)
  exact ⟨status.trans array, last.trans carrier⟩

theorem Carrier.leave_lastStatus (r : Carrier) : r.leave.lastStatus = r.lastStatus := by
  cases hs : r.state <;> simp [Carrier.leave, hs]

/-- Going dark (R82): what it leaves, but for the notice. -/
theorem StationWork.goDark_eq {c : Ctx} {w : StationWork} (lit : w.carrier.state ≠ .dark) :
    ∃ out, w.goDark c = { w with
      carrier := { w.carrier.leave with
        state := .dark, level := 0, ramp := none, verifyRequired := true, rfNoticePosted := false, muteConfirmed := false
        muteTimer := none }
      scanStay := if stayChanges w.carrier.state .dark then w.scanStay + 1 else w.scanStay
      out := out } := by
  have left : ({ w.carrier with ramp := none, level := 0 } : Carrier).leave = { w.carrier.leave with ramp := none, level := 0 } := by
    cases hs : w.carrier.state <;> simp [Carrier.leave, hs]
  unfold StationWork.goDark StationWork.enterState
  rw [if_neg lit]
  dsimp only
  rw [left, if_neg lit]
  exact ⟨_, rfl⟩

/-! ### Resolved (R49, R116) -/

/-- The pattern resolution chooses for a station of the active transition (R49). -/
def Plant.choiceFor (p : Plant) (t : Transition) (y : Station) : Option PatternNo :=
  p.resolved y ((if y = t.station then [t.target] else []) ++ ((t.entries.get y).bind fun e => e.patternAtPlan).toList)

/-- A station's work as its own units find it once a pattern has been set. -/
def Plant.repatterned (p : Plant) (y : Station) (choice : Option PatternNo) : StationWork :=
  { toStationUnit := (p.stations.get y).patterned (p.ctx y) choice, out := [] }

theorem Work.resolve_eq (t : Transition) (y : Station) (w : Work) :
    w.resolve t y = (w.setPattern y (w.choiceFor t y)).carryResolved y (w.choiceFor t y) := rfl

section
variable {t : Transition} {y : Station} {w : Work}

theorem Work.setPattern_onStation_get (p : Option PatternNo) (f : Ctx → StationWork → StationWork) :
    ((w.setPattern y p).onStation y f).stations.get y = (f (w.toPlant.ctx y) (w.repatterned y p)).toStationUnit := by
  have set : (w.setPattern y p).stations.get y = (w.stations.get y).patterned (w.toPlant.ctx y) p := by
    rw [Work.setPattern_eq]
    exact Pair.get_set_self _ _ _
  have ctx : (w.setPattern y p).toPlant.ctx y = w.toPlant.ctx y := rfl
  rw [Work.onStation_get, if_pos rfl, set, ctx]
  rfl

theorem Work.resolve_get_some {q : PatternNo} (h : w.choiceFor t y = some q) : (w.resolve t y).stations.get y =
    (StationWork.raiseToFull (w.toPlant.ctx y) (w.repatterned y (some q))).toStationUnit := by
  rw [Work.resolve_eq, h]
  exact Work.setPattern_onStation_get _ _

theorem Work.resolve_get_none (h : w.choiceFor t y = none) : (w.resolve t y).stations.get y =
    (StationWork.goDark (w.toPlant.ctx y) (w.repatterned y none)).toStationUnit := by
  rw [Work.resolve_eq, h]
  exact Work.setPattern_onStation_get _ _

end

/-- A station whose pattern at PLAN counts first, or whose target is no candidate, takes the pattern at PLAN, or else the
lowest candidate. -/
theorem Plant.choiceFor_passed {p : Plant} {t : Transition} {y : Station} (h : ¬(y = t.station ∧ p.candidate y t.target = true)) :
    p.choiceFor t y = p.resolved y ((t.entries.get y).bind fun e => e.patternAtPlan).toList := by
  unfold Plant.choiceFor
  by_cases hy : y = t.station
  · rw [if_pos hy, List.singleton_append, Plant.resolved_passed (Bool.eq_false_iff.2 fun hc => h ⟨hy, hc⟩)]
  · rw [if_neg hy, List.nil_append]

/-- A station whose records a resolution has left is resolved. -/
theorem State.resolvedBy_of {s u : State} {t : Transition} {y : Station} {v : Work}
    (hv : v.stations.get y = s.stations.get y) (hi : v.activeImage = s.activeImage) (hc : v.contactors = u.contactors)
    (hu : u.stations.get y = (v.resolve t y).stations.get y) : s.ResolvedBy t y u := by
  unfold State.ResolvedBy
  intro candidate atPlan
  obtain ⟨choice, hchoice⟩ : ∃ choice, choice = v.choiceFor t y := ⟨_, rfl⟩
  obtain ⟨c, hctx⟩ : ∃ c, c = v.toPlant.ctx y := ⟨_, rfl⟩
  obtain ⟨w, hw⟩ : ∃ w : StationWork, w = { toStationUnit := (s.stations.get y).patterned c choice, out := [] } := ⟨_, rfl⟩
  have repatterned : v.repatterned y choice = w := by
    rw [hw, hctx]
    unfold Plant.repatterned
    rw [hv]
  have candidates (q : PatternNo) : v.candidate y q = true ↔ candidate q := by
    unfold Plant.candidate
    rw [Bool.and_eq_true, hi, hc]
  have alike := (s.stations.get y).patterned_alike c choice
  have pattern_ : w.activePattern = choice := by rw [hw]; exact StationUnit.patterned_activePattern c choice _
  have state : w.carrier.state = (s.carrier y).state := by rw [hw]; exact alike.state
  have level : w.carrier.level = (s.carrier y).level := by rw [hw]; exact alike.level
  have image : c.image = s.activeImage := by rw [hctx]; exact hi
  have station : c.station = y := by rw [hctx]; rfl
  have raised {q : PatternNo} (h : choice = some q) : u.stations.get y = (StationWork.raiseToFull c w).toStationUnit := by
    rw [hu, Work.resolve_get_some (hchoice.symm.trans h), ← h, repatterned, hctx]
  have darkened (h : choice = none) : u.stations.get y = (StationWork.goDark c w).toStationUnit := by
    rw [hu, Work.resolve_get_none (hchoice.symm.trans h), ← h, repatterned, hctx]
  have active : u.active y = choice := by
    unfold Plant.active
    cases hc : choice with
    | some q => rw [raised hc, ← hc]; exact (StationWork.raiseToFull_lights c w).1.trans pattern_
    | none => rw [darkened hc, ← hc]; exact (StationWork.goDark_spec c w).1.trans pattern_
  have unjudged {out : StationWork} (h : u.stations.get y = out.toStationUnit) (channels : out.channels = w.channels)
      (status : out.arrayStatus = w.arrayStatus) (last : out.carrier.lastStatus = w.carrier.lastStatus) : s.Unjudged y u := by
    refine State.unjudged_of (c := c) image station active ?_ ?_ ?_
    · rw [h, channels, hw]
    · rw [h, status, hw]
    · unfold Plant.carrier
      rw [h, last, hw]
  refine ⟨?_, fun dark => ?_, fun q hq => ?_⟩
  · rw [active, hchoice]
    refine Plant.resolved_eq_none.trans ?_
    exact forall_congr' fun q => by rw [← candidates, Bool.not_eq_true]
  · rw [active] at dark
    have after := darkened dark
    have carrier : u.carrier y = (StationWork.goDark c w).carrier := congrArg StationUnit.carrier after
    refine ⟨by rw [carrier]; exact (StationWork.goDark_spec c w).2, fun lit => ?_⟩
    obtain ⟨out, eq⟩ := StationWork.goDark_eq (c := c) (w := w) (by rw [state]; exact lit)
    rw [eq] at after carrier
    exact ⟨by rw [carrier], unjudged after rfl rfl (Carrier.leave_lastStatus _)⟩
  · have chosen : choice = some q := active.symm.trans hq
    have preferred := hchoice.symm.trans chosen
    refine ⟨(candidates q).1 (Plant.candidate_of_resolved preferred), fun requester aimed => ?_, fun other p planned fits => ?_,
      fun other unfit p fits => ?_, fun below => ?_⟩
    · unfold Plant.choiceFor at preferred
      rw [if_pos requester, List.singleton_append, Plant.resolved_preferred ((candidates _).2 aimed)] at preferred
      exact (Option.some.inj preferred).symm
    · rw [Plant.choiceFor_passed fun h => other ⟨h.1, (candidates _).1 h.2⟩,
        show (t.entries.get y).bind _ = some p from planned, Option.toList_some,
        Plant.resolved_preferred ((candidates _).2 fits)] at preferred
      exact (Option.some.inj preferred).symm
    · rw [Plant.choiceFor_passed fun h => other ⟨h.1, (candidates _).1 h.2⟩] at preferred
      have lowest : v.resolved y [] = some q := by
        cases hp : (t.entries.get y).bind fun e => e.patternAtPlan with
        | none => rw [hp] at preferred; exact preferred
        | some r =>
          rw [hp, Option.toList_some, Plant.resolved_passed (Bool.eq_false_iff.2 fun hc =>
            unfit r hp ((candidates r).1 hc))] at preferred
          exact preferred
      exact Plant.resolved_lowest lowest ((candidates p).2 fits)
    · have after := raised chosen
      rw [StationWork.raiseToFull_of_active (pattern_.trans chosen), image, station] at after
      have away : (⟨(pattern s.activeImage y q).power, .full, q⟩ : Ramp).target ≠ w.carrier.level := by
        rw [level]
        exact Nat.ne_of_gt below
      rw [StationWork.rampTo_begins away] at after
      have carrier : u.carrier y = w.carrier.onRamp ⟨(pattern s.activeImage y q).power, .full, q⟩ :=
        congrArg StationUnit.carrier after
      have up : (⟨(pattern s.activeImage y q).power, .full, q⟩ : Ramp).direction w.carrier.level = .raising := by
        rw [level]
        exact if_neg (Nat.not_lt_of_gt below)
      refine ⟨by rw [carrier]; exact up, by rw [carrier]; exact (Carrier.leave_level _).trans level, by rw [carrier]; rfl,
        unjudged after rfl rfl (Carrier.leave_lastStatus _)⟩

end Machine
end Sys2Proof

/-! PROOFS. The end of a move in SWITCH and of a reversal (R38, R39, R41, R42), and of a switch that a disturbance has decided
(R43, R44, R49), put together. -/
namespace Sys2Proof
namespace Machine

/-! ### A station raised toward its power (R79) -/

/-- Below its power a station raised to full is RAISING, on a ramp of purpose FULL, its channels and statuses as they were. -/
theorem StationWork.raiseToFull_below {c : Ctx} {w : StationWork} {q : PatternNo} (active : w.activePattern = some q)
    (below : w.carrier.level < (pattern c.image c.station q).power) :
    ∃ stay out, StationWork.raiseToFull c w = { w with
      carrier := { w.carrier.leave with state := .raising, ramp := some ⟨(pattern c.image c.station q).power, .full, q⟩ }
      scanStay := stay
      out := out } := by
  have up : (⟨(pattern c.image c.station q).power, .full, q⟩ : Ramp).direction w.carrier.level = .raising :=
    if_neg (Nat.not_lt_of_gt below)
  rw [StationWork.raiseToFull_of_active active, StationWork.rampTo_begins (Nat.ne_of_gt below)]
  unfold Carrier.onRamp
  rw [up]
  exact ⟨_, _, rfl⟩

/-- A raise back leaves every pattern (R79). -/
theorem Work.raiseBack_active (x y : Station) (w : Work) : (w.raiseBack x).active y = w.active y := by
  have lit {f : Ctx → StationWork → StationWork} (hf : Lights f) : (w.onStation x f).active y = w.active y := by
    unfold Plant.active
    rw [Work.onStation_get]
    split
    · next h => rw [h]; exact (hf _ _).1
    · rfl
  unfold Work.raiseBack
  repeat' split
  · rfl
  · exact lit StationWork.raiseToFull_lights
  · exact lit StationWork.raiseToFault_lights
  · rfl

theorem Carrier.leave_verifyRequired (r : Carrier) : r.leave.verifyRequired = r.verifyRequired := by
  cases hs : r.state <;> simp [Carrier.leave, hs]

/-! ### A move made (R38, R39) -/

/-- The list with a MOVED entry written, as a switch goes on. -/
theorem Transition.written_moved {t : Transition} {k : ContactorNo} (phase : t.phase = .switch) :
    t.written k .moved = { t with
      moves := t.moves.map fun e => if e.contactor = k then { e with outcome := .moved } else e } := by
  unfold Transition.written
  rw [if_neg (by rw [phase]; simp)]
  rfl

/-- The switch has succeeded (R39): one command to each station of the restore set, behind the requester's pattern. -/
def Work.raiseAfterSwitch (t : Transition) (w : Work) (x : Station) : Work :=
  if x = t.station then w.onStation x StationWork.raiseToFull else w.raiseBack x

theorem Work.raiseAfterSwitch_tuned (t : Transition) (w : Work) (x : Station) : w.Tuned [x] (w.raiseAfterSwitch t x) := by
  unfold Work.raiseAfterSwitch
  split
  · exact Work.onStation_tuned w (StationWork.rampTo_posted _ _ _)
  · exact w.raiseBack_tuned x

/-- With no WAITING move left the switch has succeeded (R39). -/
theorem Work.nextMove_succeeds {t : Transition} {w : Work} (ht : w.transition = some t)
    (he : ∀ e ∈ t.moves, e.outcome ≠ .waiting) :
    w.nextMove = (t.restoreSet.foldl (Work.raiseAfterSwitch t)
      { w.setPattern t.station (some t.target) with transition := some { t with phase := .restore } }).restoreCheck := by
  have nothing : t.moves.find? (fun e => e.outcome == .waiting) = none := by
    rw [List.find?_eq_none]
    exact fun e h => by simpa using he e h
  have active : (w.setPattern t.station (some t.target)).transition = some t := ht
  have succeeded : w.nextMove = w.switchSuccess t := by
    unfold Work.nextMove
    simp only [ht, nothing]
  rw [succeeded]
  unfold Work.switchSuccess Work.onTransition
  simp only [active, Option.map_some]
  rfl

/-- RESTORE goes on while the requester is not at its end (R45). -/
theorem Work.restoreCheck_waits {t : Transition} {w : Work} (ht : w.transition = some t) (phase : t.phase = .restore)
    (h : (w.carrier t.station).state.measured = false) : w.restoreCheck = w := by
  unfold Work.restoreCheck
  rw [ht]
  dsimp only
  rw [phase]
  cases hs : (w.carrier t.station).state <;> simp_all [CarrierState.measured]

/-- Settles O36: the next move is commanded, or the requester takes the target and the stations are raised. -/
theorem moveIsMade : Obligations.MoveIsMade := by
  intro s m t moving settling shown active phase undecided untaken k now moves live
  obtain ⟨v, hv⟩ : ∃ v : Work, v = { s.work with
      elapsed := now
      contactors := live
      driver := none
      transition := some { t with moves := moves } } := ⟨_, rfl⟩
  have settled : s.work.endSettle = v.nextMove := by
    have ended : attemptEnd m s.work.aux[m.contactor].shows (contactorRecord s.work.activeImage m.contactor).retries =
        some .moved := by
      rw [show s.work.aux[m.contactor].shows = some m.toPos from shown]
      exact attemptEnd_moved _ _
    rw [Work.endSettle_ended moving settling ended, if_neg (by simp),
      Work.moveOutcome_switch (w := s.work.attemptRead m (some .moved)) (t := t) active phase undecided]
    refine (if_neg ?_).trans ?_
    · rw [show (t.written m.contactor .moved).withdrawTaken = t.withdrawTaken from rfl, untaken]
      simp
    · unfold Work.released
      rw [Transition.written_moved phase, hv]
      rfl
  have transition : v.transition = some { t with moves := moves } := by rw [hv]
  have examined {w : Work} (h : s.work.endSettle = w) (ht : w.transition ≠ none) : s.work.endSettle.examinePending = w := by
    rw [h]
    exact Work.examinePending_active w ht
  constructor
  · intro e first fit cold
    have other : e.contactor ≠ k := fun hk => by
      obtain ⟨d, -, hd⟩ := List.mem_map.1 (List.mem_of_find?_eq_some first)
      have waiting : e.outcome = .waiting := by simpa using List.find?_some first
      rw [← hd] at hk waiting
      split at hk
      · next h => simp [h] at waiting
      · next h => exact h hk
    have liveE : v.contactors[e.contactor] = s.contactors[e.contactor] := by
      rw [hv]
      exact Vector.set_live_of_ne _ _ other
    have passes : v.checkPasses e.contactor = true := by
      refine Plant.checkPasses_of (by rw [liveE]; exact fit) fun y hy => ?_
      rw [hv] at hy ⊢
      exact cold y hy
    rw [Work.nextMove_begins transition first passes, liveE, hv] at settled
    exact exec_settleTimeEnd (examined settled (by simp)) fun _ => rfl
  · intro none_waiting entered below
    obtain ⟨y, hy⟩ : ∃ y, y = t.station := ⟨_, rfl⟩
    obtain ⟨t', ht'⟩ : ∃ t', t' = { t with moves := moves, phase := .restore } := ⟨_, rfl⟩
    obtain ⟨v1, hv1⟩ : ∃ v1 : Work, v1 = { v.setPattern y (some t.target) with transition := some t' } := ⟨_, rfl⟩
    obtain ⟨r, hr⟩ : ∃ r, r = t.restoreSet.foldl (Work.raiseAfterSwitch { t with moves := moves }) v1 := ⟨_, rfl⟩
    have tuned : v1.Tuned t.restoreSet r := hr ▸ Work.Tuned.foldl (Work.raiseAfterSwitch_tuned _) _ v1
    have local_ (x : Station) : v1.stations.get x = if x = y then (v.stations.get y).patterned (v.toPlant.ctx y) (some t.target)
        else s.stations.get x := by
      rw [hv1]
      show (v.setPattern y (some t.target)).stations.get x = _
      rw [Work.setPattern_eq]
      split
      · next h => rw [h]; exact Pair.get_set_self _ _ _
      · next h => rw [Pair.get_set_of_ne _ _ h, hv]; rfl
    have restoring : r.transition = some t' := (tuned.field Plant.transition fun _ _ => rfl).trans (by rw [hv1])
    obtain ⟨w, ys, before, fresh, requester⟩ := Work.foldl_at (Work.raiseAfterSwitch_tuned { t with moves := moves })
      t.nodup_restoreSet (y := y) ((t.mem_restoreSet y).2 (hy ▸ entered)) v1
    have unit : w.stations.get y = (v.stations.get y).patterned (v.toPlant.ctx y) (some t.target) := by
      rw [before.alone fresh, local_, if_pos rfl]
    have image : w.activeImage = s.activeImage := (before.field Plant.activeImage fun _ _ => rfl).trans (by rw [hv1, hv]; rfl)
    have alike := (v.stations.get y).patterned_alike (v.toPlant.ctx y) (some t.target)
    obtain ⟨stay, out, raised⟩ := StationWork.raiseToFull_below (c := w.toPlant.ctx y)
      (w := { toStationUnit := w.stations.get y, out := [] }) (q := t.target) (by
        show (w.stations.get y).activePattern = _
        rw [unit]
        exact StationUnit.patterned_activePattern _ _ _) (by
        show (w.stations.get y).carrier.level < (pattern w.activeImage y t.target).power
        rw [unit, image, alike.level, hv, hy]
        exact below)
    have after : r.stations.get y = { (v.stations.get y).patterned (v.toPlant.ctx y) (some t.target) with
        carrier := { ((v.stations.get y).patterned (v.toPlant.ctx y) (some t.target)).carrier.leave with
          state := .raising, ramp := some ⟨(pattern s.activeImage y t.target).power, .full, t.target⟩ }
        scanStay := stay } := by
      rw [hr, requester]
      unfold Work.raiseAfterSwitch
      rw [if_pos hy, Work.onStation_get, if_pos rfl, raised, unit, ← image]
      rfl
    have carrier : r.carrier y = { ((v.stations.get y).patterned (v.toPlant.ctx y) (some t.target)).carrier.leave with
          state := .raising, ramp := some ⟨(pattern s.activeImage y t.target).power, .full, t.target⟩ } :=
      congrArg StationUnit.carrier after
    have done : s.work.endSettle = r := by
      rw [settled, Work.nextMove_succeeds transition none_waiting]
      have waits : r.restoreCheck = r := by
        refine Work.restoreCheck_waits restoring (by rw [ht']) ?_
        rw [show t'.station = y by rw [ht', hy], carrier]
        rfl
      refine Eq.trans ?_ waits
      rw [hr, hv1, ht', hy]
      rfl
    obtain ⟨u, hu⟩ : ∃ u, u = s.event fun w => w.endSettle.examinePending := ⟨_, rfl⟩
    have field {α : Type} (g : Plant → α)
        (hg : ∀ (p : Plant) list m e, g { p with scanList := list, measurement := m, lastEntry := e } = g p) :
        g u.toPlant = g r.toPlant := by
      rw [hu, State.event_field g hg, examined done (by rw [restoring]; simp)]
    have stations : u.stations = r.stations := field Plant.stations fun _ _ _ _ => rfl
    have carriers : u.carrier y = r.carrier y := by unfold Plant.carrier; rw [stations]
    have peer : t.station.peer ≠ y := by rw [hy]; exact Station.peer_ne _
    have untouched : t.entries.get t.station.peer = none → r.stations.get t.station.peer = s.stations.get t.station.peer :=
      fun h => by
        rw [tuned.alone fun hm => ?_, local_, if_neg peer]
        have := (t.mem_restoreSet _).1 hm
        unfold Transition.restores at this
        rw [h] at this
        cases this
    have raisedBack : t.restores t.station.peer = true → s.RaisedBack t t.station.peer u := fun hm => by
      obtain ⟨w, ys, before, fresh, get⟩ := Work.foldl_at (Work.raiseAfterSwitch_tuned { t with moves := moves })
        t.nodup_restoreSet ((t.mem_restoreSet _).2 hm) v1
      refine State.raisedBack_of (v := w) ?_ ?_ ?_ ?_
      · rw [before.alone fresh, local_, if_neg peer]
      · exact (before.field Plant.activeImage fun _ _ => rfl).trans (by rw [hv1, hv]; rfl)
      · rw [show w.transition = some t' from (before.field Plant.transition fun _ _ => rfl).trans (by rw [hv1]), ht']
        rfl
      · rw [stations, hr, get]
        unfold Work.raiseAfterSwitch
        rw [if_neg (Station.peer_ne _)]
    have peerActive : u.active t.station.peer = s.active t.station.peer := by
      unfold Plant.active
      rw [stations]
      by_cases hm : t.restores t.station.peer = true
      · obtain ⟨w, ys, before, fresh, get⟩ := Work.foldl_at (Work.raiseAfterSwitch_tuned { t with moves := moves })
          t.nodup_restoreSet ((t.mem_restoreSet _).2 hm) v1
        have kept := w.raiseBack_active t.station.peer t.station.peer
        unfold Plant.active at kept
        rw [hr, get]
        unfold Work.raiseAfterSwitch
        rw [if_neg (Station.peer_ne _), kept, before.alone fresh, local_, if_neg peer]
      · rw [untouched (by simpa [Transition.restores] using hm)]
    subst hy
    refine ⟨u, by rw [hu]; rfl, ?_, ?_, ?_, ?_, ?_, ?_, ?_, ?_, ?_, peerActive, ?_, ?_⟩
    · exact (field Plant.driver fun _ _ _ _ => rfl).trans
        ((tuned.field Plant.driver fun _ _ => rfl).trans (by rw [hv1, hv]; rfl))
    · exact (field Plant.contactors fun _ _ _ _ => rfl).trans
        ((tuned.field Plant.contactors fun _ _ => rfl).trans (by rw [hv1, hv]; rfl))
    · exact (field Plant.transition fun _ _ _ _ => rfl).trans (restoring.trans (by rw [ht']))
    · unfold Plant.active
      rw [stations, after]
      exact StationUnit.patterned_activePattern _ _ _
    · rw [carriers, carrier]
    · rw [carriers, carrier]
      exact (Carrier.leave_level _).trans (alike.level.trans (by rw [hv]; rfl))
    · rw [carriers, carrier]
    · rw [carriers, carrier]
      refine (Carrier.leave_verifyRequired _).trans ?_
      rw [StationUnit.patterned_verifyRequired]
      exact Bool.or_true _
    · refine State.unjudged_of (c := v.toPlant.ctx t.station) (p := some t.target) ?_ rfl ?_ ?_ ?_ ?_
      · rw [hv]; rfl
      · unfold Plant.active
        rw [stations, after]
        exact StationUnit.patterned_activePattern _ _ _
      · rw [stations, after, hv]
        rfl
      · rw [stations, after, hv]
        rfl
      · rw [carriers, carrier, hv]
        exact Carrier.leave_lastStatus _
    · exact fun h => by rw [stations]; exact untouched h
    · intro q entry entered' pattern_ lit returns below'
      have restored : t.restores t.station.peer = true := by simp [Transition.restores, entered']
      obtain ⟨-, -, full, -⟩ := raisedBack restored q pattern_ lit
      obtain ⟨state, ramp⟩ := full (by unfold Transition.returnLevel; rw [entered']; exact returns)
      rw [if_pos below'] at state
      rw [if_neg (Nat.ne_of_lt below')] at ramp
      exact ⟨state, ramp⟩

end Machine
end Sys2Proof

/-! PROOFS. What an event leaves of the work of its blocks: every field but the scan's, and the notices in the ports' queues. -/
namespace Sys2Proof
namespace Machine

/-! ### The notices a work holds for a station -/

/-- The notices posted to a station, oldest first. -/
def Work.noticesTo (y : Station) (w : Work) : List Notice := (w.posts.filter fun p => p.1 = y).map fun p => p.2

theorem Work.noticesTo_posts {y : Station} {v w : Work} (l : List (Station × Notice)) (h : w.posts = v.posts ++ l) :
    w.noticesTo y = v.noticesTo y ++ (l.filter fun p => p.1 = y).map fun p => p.2 := by
  unfold Work.noticesTo
  rw [h, List.filter_append, List.map_append]

/-- One notice to each of some stations, each standing once among them. -/
theorem filter_told {xs : List Station} (nodup : xs.Nodup) (n : Notice) (y : Station) :
    (((xs.map fun z => (z, n)).filter fun p : Station × Notice => p.1 = y).map fun p : Station × Notice => p.2) =
      if y ∈ xs then [n] else [] := by
  induction xs with
  | nil => rfl
  | cons x xs ih =>
    obtain ⟨fresh, nodup⟩ := List.nodup_cons.1 nodup
    by_cases hx : x = y
    · subst hx
      have := ih nodup
      rw [if_neg fresh] at this
      rw [List.map_cons, List.filter_cons_of_pos (by simp), List.map_cons, this, if_pos List.mem_cons_self]
    · rw [List.map_cons, List.filter_cons_of_neg (by simpa using hx), ih nodup]
      have : y ∈ x :: xs ↔ y ∈ xs := by simp [Ne.symm hx]
      simp only [this]

/-- A run of commands posts two notices to each station commanded, at most. -/
theorem Work.Tuned.noticesTo {xs : List Station} {v w : Work} (h : v.Tuned xs w) (y : Station) :
    ∃ l, w.noticesTo y = v.noticesTo y ++ l ∧ l.length ≤ 2 * xs.count y := by
  obtain ⟨s, l, rfl, few, -⟩ := h
  refine ⟨_, Work.noticesTo_posts l rfl, ?_⟩
  rw [List.length_map]
  exact few y

theorem Work.handLastState_noticesTo (marker : Bool) (y : Station) (w : Work) :
    (w.handLastState marker).noticesTo y = w.noticesTo y := by
  rw [Work.handLastState_eq]
  rfl

theorem Transition.nodup_informed (t : Transition) : t.informed.Nodup := by
  unfold Transition.informed
  split
  · simpa using (Station.peer_ne t.station).symm
  · simp

theorem Transition.station_informed (t : Transition) : t.station ∈ t.informed := List.mem_cons_self

/-- TRANSITION_ENDED stands last (R51). -/
theorem Work.endTransition_noticesTo {result : Result} {w : Work} {t : Transition} (h : w.transition = some t) (y : Station) :
    (w.endTransition result).noticesTo y = w.noticesTo y ++
      if y ∈ t.informed then
        [.transitionEnded t.tag t.station t.target t.source result (w.active .A) (w.active .B)] else [] := by
  rw [← filter_told t.nodup_informed]
  exact Work.noticesTo_posts _ (by rw [Work.endTransition_eq result w t h])

/-! ### What an event leaves -/

/-- `u` is what an event of `s` leaves whose blocks' work is `w`. -/
structure State.Left (w : Work) (s u : State) : Prop where
  field : ∀ {α : Type} (g : Plant → α),
    (∀ (p : Plant) list m e, g { p with scanList := list, measurement := m, lastEntry := e } = g p) → g u.toPlant = g w.toPlant
  ports : u.ports = (State.deliver w.posts s).ports

theorem State.event_left {f : Work → Work} {s : State} {w : Work} (h : f s.work = w) : State.Left w s (s.event f) := by
  refine ⟨fun g hg => by rw [State.event_field g hg, h], ?_⟩
  have same (p : Plant) (posts : List (Station × Notice)) (s : State) :
      (State.deliver posts { s with toPlant := p }).ports = (State.deliver posts s).ports := by
    induction posts generalizing s with
    | nil => rfl
    | cons q posts ih => exact ih (s.onPort q.1 (Port.post q.2))
  unfold State.event
  rw [h, State.finish_eq, Work.settleScan_posts]
  exact same _ _ s

section
variable {w : Work} {s u : State} (h : State.Left w s u)
include h

theorem State.Left.stations : u.stations = w.stations := h.field Plant.stations fun _ _ _ _ => rfl

theorem State.Left.driver : u.driver = w.driver := h.field Plant.driver fun _ _ _ _ => rfl

theorem State.Left.contactors : u.contactors = w.contactors := h.field Plant.contactors fun _ _ _ _ => rfl

theorem State.Left.transition : u.transition = w.transition := h.field Plant.transition fun _ _ _ _ => rfl

theorem State.Left.carrier (y : Station) : u.carrier y = w.carrier y := by
  unfold Plant.carrier
  rw [h.stations]

theorem State.Left.active (y : Station) : u.active y = w.active y := by
  unfold Plant.active
  rw [h.stations]

/-- No coil is on when the driver holds no move (R55). -/
theorem State.Left.coil (hd : w.driver = none) : u.coil = none := by
  unfold Plant.coil
  rw [h.driver, hd]

/-- The queue of a port that has room takes every notice posted to it. -/
theorem State.Left.notices {y : Station} (room : (s.ports.get y).notices.length + (w.noticesTo y).length ≤ 16) :
    (u.ports.get y).notices = (s.ports.get y).notices ++ w.noticesTo y := by
  rw [h.ports]
  refine State.deliver_posts _ le_rfl ?_
  unfold Work.noticesTo at room
  rwa [List.length_map] at room

/-- The oldest notice of a queue. -/
theorem State.Left.head (y : Station) :
    (u.ports.get y).notices.head? = ((s.ports.get y).notices ++ w.noticesTo y).head? := by
  rw [h.ports]
  exact State.deliver_head w.posts s y

end

end Machine
end Sys2Proof

/-! PROOFS. A switch that a disturbance has decided ends in resolution (R43, R44, R49). -/
namespace Sys2Proof
namespace Machine

/-! ### Resolution of the restore set (R49, R51) -/

/-- What resolution and the end leave: each station of the restore set as its own resolution leaves it, the others alone, and
TRANSITION_ENDED last. -/
theorem Work.resolveAndEnd_spec {t : Transition} {w : Work} {result : Result} (ht : w.transition = some t) :
    (∀ y, t.restores y = false → (w.resolveAndEnd result).stations.get y = w.stations.get y) ∧
    (∀ y, t.restores y = true → ∃ v ys, w.Tuned ys v ∧ y ∉ ys ∧
      (w.resolveAndEnd result).stations.get y = (v.resolve t y).stations.get y) ∧
    ∃ l, (w.resolveAndEnd result).noticesTo t.station = w.noticesTo t.station ++ l ++
        [.transitionEnded t.tag t.station t.target t.source (t.result.getD result) ((w.resolveAndEnd result).active .A)
          ((w.resolveAndEnd result).active .B)] ∧ l.length ≤ 2 := by
  obtain ⟨r, hr⟩ : ∃ r, r = t.restoreSet.foldl (fun w x => w.resolve t x) w := ⟨_, rfl⟩
  have tuned : w.Tuned t.restoreSet r := hr ▸ Work.Tuned.foldl (fun w x => w.resolve_tuned t x) _ w
  obtain ⟨v, hv⟩ : ∃ v, v = r.handLastState false := ⟨_, rfl⟩
  have active : v.transition = some t := by
    rw [hv, Work.handLastState_eq]
    exact (tuned.field Plant.transition fun _ _ => rfl).trans ht
  have ended : w.resolveAndEnd result = v.endTransition (t.result.getD result) := by
    unfold Work.resolveAndEnd
    rw [ht, hv, hr]
  have stations : (w.resolveAndEnd result).stations = r.stations := by
    rw [ended, Work.endTransition_eq _ _ t active, hv, Work.handLastState_eq]
  refine ⟨fun y hy => ?_, fun y hy => ?_, ?_⟩
  · rw [stations]
    exact tuned.alone fun hm => by rw [(t.mem_restoreSet y).1 hm] at hy; cases hy
  · obtain ⟨u, ys, before, fresh, get⟩ := Work.foldl_at (fun w x => w.resolve_tuned t x) t.nodup_restoreSet
      ((t.mem_restoreSet y).2 hy) w
    exact ⟨u, ys, before, fresh, by rw [stations, hr]; exact get⟩
  · obtain ⟨l, hl, len⟩ := tuned.noticesTo t.station
    refine ⟨l, ?_, len.trans (by have := t.count_restoreSet t.station; omega)⟩
    have same (y : Station) : (w.resolveAndEnd result).active y = v.active y := by
      unfold Plant.active
      rw [stations, hv, Work.handLastState_eq]
    rw [same, same, ended, Work.endTransition_noticesTo active, if_pos t.station_informed, hv,
      Work.handLastState_noticesTo, hl]

/-- A station that a work's resolution has left, at the end of the event, is resolved. -/
theorem State.resolved_at {s u : State} {t : Transition} {y : Station} {w v r : Work} {ys : List Station} (left : State.Left r s u)
    (stations : w.stations.get y = s.stations.get y) (image : w.activeImage = s.activeImage)
    (contactors : r.contactors = w.contactors) (before : w.Tuned ys v) (fresh : y ∉ ys)
    (get : r.stations.get y = (v.resolve t y).stations.get y) : s.ResolvedBy t y u := by
  refine State.resolvedBy_of (v := v) ((before.alone fresh).trans stations)
    ((before.field Plant.activeImage fun _ _ => rfl).trans image) ?_ (by rw [left.stations]; exact get)
  rw [left.contactors, contactors]
  exact before.field Plant.contactors fun _ _ => rfl

/-- A DARK station that resolution leaves without a pattern keeps its level (R82). -/
theorem Work.resolve_level_dark {t : Transition} {y : Station} {v : Work} (dark : (v.carrier y).state = .dark)
    (unchosen : (v.resolve t y).active y = none) : ((v.resolve t y).carrier y).level = (v.carrier y).level := by
  have alike := (v.stations.get y).patterned_alike (v.toPlant.ctx y) none
  cases hc : v.choiceFor t y with
  | none =>
    have still : StationWork.goDark (v.toPlant.ctx y) (v.repatterned y none) = v.repatterned y none :=
      if_pos (alike.state.trans dark)
    unfold Plant.carrier
    rw [Work.resolve_get_none hc, still]
    exact alike.level
  | some q =>
    unfold Plant.active at unchosen
    rw [Work.resolve_get_some hc, (StationWork.raiseToFull_lights _ _).1] at unchosen
    have := (StationUnit.patterned_activePattern (v.toPlant.ctx y) (some q) (v.stations.get y)).symm.trans unchosen
    cases this

/-! ### The attempt in progress ends (R59, R60) -/

/-- With the stop flag set no further attempt begins (R59). -/
theorem attemptEnd_stops {m : Move} (stop : m.stop = true) (shown : Option Side) (retries : Nat) :
    ∃ o, attemptEnd m shown retries = some o := by
  unfold attemptEnd
  simp only [stop, if_true]
  repeat' split
  all_goals exact ⟨_, rfl⟩

/-- The work handed with an outcome: elapsed time, the live record read, and CONTACTOR_FAULT for a fault (R59, R60). -/
def Work.handed (m : Move) (o : MoveOutcome) (w : Work) : Work :=
  { w with
    elapsed := max w.elapsed m.due
    contactors := w.contactors.set m.contactor (Live.afterAttempt m (some o) w.contactors[m.contactor])
    posts := w.posts ++ if o = .stuck ∨ o = .disagree then (carrierSet w.activeImage m.contactor).members.map fun y =>
      (y, .contactorFault m.contactor (Live.afterAttempt m (some o) w.contactors[m.contactor]) .move) else [] }

theorem Work.endSettle_handed {m : Move} {o : MoveOutcome} {w : Work} (hd : w.driver = some m) (hp : m.phase = .settling)
    (ho : attemptEnd m w.aux[m.contactor].shows (contactorRecord w.activeImage m.contactor).retries = some o) :
    w.endSettle = (w.handed m o).moveOutcome m.contactor o := by
  rw [Work.endSettle_ended hd hp ho, Work.handed_eq (faulty := decide (o = .stuck ∨ o = .disagree)) (by simp)]
  simp only [decide_eq_true_eq]
  rfl

/-- A fault is told to each station that the contactor carries, and nothing else at that point (R60). -/
theorem Work.handed_noticesTo (m : Move) (o : MoveOutcome) (y : Station) (w : Work) :
    (w.handed m o).noticesTo y = w.noticesTo y ++
      if o = .stuck ∨ o = .disagree then
        if carries w.activeImage m.contactor y = true then
          [.contactorFault m.contactor (Live.afterAttempt m (some o) w.contactors[m.contactor]) .move] else []
      else [] := by
  rw [Work.noticesTo_posts (v := w) _ rfl]
  split
  · rw [filter_told (StationSet.nodup_members _)]
    simp only [StationSet.mem_members]
    rfl
  · rfl

theorem Work.handed_noticesTo_length (m : Move) (o : MoveOutcome) (y : Station) (s : State) :
    ((s.work.handed m o).noticesTo y).length ≤ 1 := by
  rw [Work.handed_noticesTo]
  have : s.work.noticesTo y = [] := rfl
  rw [this]
  repeat' split
  all_goals simp

/-- Settles O39: the outcome finds the result decided, and resolution runs. -/
theorem resolutionEndsTheSwitch : Obligations.ResolutionEndsTheSwitch := by
  intro s m t result moving settling stop active _ decided empty
  obtain ⟨o, ended⟩ := attemptEnd_stops stop s.aux[m.contactor].shows (contactorRecord s.activeImage m.contactor).retries
  obtain ⟨w, hw⟩ : ∃ w, w = (s.work.handed m o).released t m.contactor o := ⟨_, rfl⟩
  have settled : s.work.endSettle = w.resolveAndEnd result := by
    rw [Work.endSettle_handed (w := s.work) moving settling ended, hw]
    exact Work.moveOutcome_decided (w := s.work.handed m o) active decided
  obtain ⟨unheld, contactors, list, idle⟩ := w.resolveAndEnd_frame result
  have examined : s.work.endSettle.examinePending = w.resolveAndEnd result := by
    rw [settled]
    exact Work.examinePending_of_empty (list.trans (by rw [hw]; exact empty))
  obtain ⟨alone, resolved, l, notices, few⟩ := Work.resolveAndEnd_spec (w := w) (t := t.written m.contactor o)
    (result := result) (by rw [hw]; rfl)
  have left := State.event_left (f := fun w => w.endSettle.examinePending) (s := s) examined
  obtain ⟨u, hu⟩ : ∃ u, u = s.event fun w => w.endSettle.examinePending := ⟨_, rfl⟩
  rw [← hu] at left
  have held : w.driver = none := by rw [hw]; rfl
  refine ⟨u, by rw [hu]; rfl, left.driver.trans (unheld.trans held), left.coil (unheld.trans held), left.transition.trans idle,
    fun k hk => ?_, fun room => ?_, fun y => ?_⟩
  · rw [left.contactors, contactors, hw]
    exact Vector.set_live_of_ne _ _ hk
  · have own : (w.noticesTo (t.written m.contactor o).station).length ≤ 1 := by rw [hw]; exact Work.handed_noticesTo_length m o _ s
    have posted : (w.resolveAndEnd result).noticesTo t.station = _ := notices
    rw [left.notices (by rw [posted]; simp only [List.length_append, List.length_singleton]; omega), posted,
      ← List.append_assoc, List.getLast?_concat, left.active, left.active]
    rw [show (t.written m.contactor o).result = some result from decided]
    rfl
  · intro candidate atPlan
    have unit : w.stations.get y = s.stations.get y := by rw [hw]; rfl
    refine ⟨fun absent => ?_, fun present => ?_⟩
    · have same : u.stations.get y = s.stations.get y := by
        rw [left.stations, alone y (by show (t.entries.get y).isSome = false; rw [absent]; rfl), unit]
      unfold Plant.active Plant.carrier
      rw [same]
      exact ⟨rfl, rfl⟩
    · obtain ⟨v, ys, before, fresh, get⟩ := resolved y present
      have by_ : s.ResolvedBy (t.written m.contactor o) y u :=
        State.resolved_at left unit (by rw [hw]; rfl) contactors before fresh get
      obtain ⟨fits, dark, chosen⟩ := by_
      refine ⟨fits, fun unset => ?_, fun q hq => ?_⟩
      · obtain ⟨state, lit⟩ := dark unset
        refine ⟨state, ?_, fun h => (lit h).2⟩
        split
        · next h =>
          have same : v.carrier y = s.carrier y := congrArg StationUnit.carrier ((before.alone fresh).trans unit)
          have after : u.stations.get y = (v.resolve (t.written m.contactor o) y).stations.get y := by rw [left.stations, get]
          have level := Work.resolve_level_dark (t := t.written m.contactor o) (y := y) (v := v) (by rw [same]; exact h)
            ((congrArg StationUnit.activePattern after).symm.trans unset)
          rw [same] at level
          exact (congrArg (fun unit => unit.carrier.level) after).trans level
        · next h => exact (lit h).1
      · obtain ⟨h1, h2, h3, h4, h5⟩ := chosen q hq
        refine ⟨h1, h2, h3, h4, fun below => ?_⟩
        obtain ⟨state, -, ramp, judged⟩ := h5 below
        exact ⟨state, ramp, judged⟩

end Machine
end Sys2Proof

/-! PROOFS. The end of a reversal (R38, R41, R42): the next MOVED entry, a reversal that fails, and the reversal complete. -/
namespace Sys2Proof
namespace Machine

/-! ### Notices told first -/

/-- What the engine does behind a work's notices keeps them first. -/
theorem Moves.noticesTo {v w : Work} (h : Moves v w) (y : Station) : ∃ l, w.noticesTo y = v.noticesTo y ++ l := by
  obtain ⟨l, hl⟩ := h.posts
  exact ⟨_, Work.noticesTo_posts l hl⟩

/-- The first notice a work posts to a station whose queue is empty stands at its head. -/
theorem State.told_first {s u : State} {w r : Work} {y : Station} {n : Notice} (left : State.Left r s u) (moves : Moves w r)
    (first : w.noticesTo y = [n]) (empty : (s.ports.get y).notices = []) : (u.ports.get y).notices.head? = some n := by
  obtain ⟨l, hl⟩ := moves.noticesTo y
  rw [left.head, empty, hl, first]
  rfl

/-- CONTACTOR_FAULT stands first in the work handed with a fault (R60). -/
theorem Work.handed_fault {s : State} {m : Move} {o : MoveOutcome} {after : Live} {y : Station} (fault : o = .stuck ∨ o = .disagree)
    (read : Live.afterAttempt m (some o) s.contactors[m.contactor] = after)
    (carried : carries s.activeImage m.contactor y = true) :
    (s.work.handed m o).noticesTo y = [.contactorFault m.contactor after .move] := by
  rw [Work.handed_noticesTo, if_pos fault, if_pos (show carries s.work.activeImage m.contactor y = true from carried), ← read]
  rfl

/-! ### Stations at the end of a reversal (R42) -/

theorem State.RaisedBack.congr {t t' : Transition} {y : Station} {s u : State} (h : s.RaisedBack t y u)
    (ht : t'.entries = t.entries) : s.RaisedBack t' y u := by
  intro q active lit
  have := h q active lit
  unfold Transition.returnLevel at this ⊢
  rw [ht]
  exact this

/-- The station's active map is satisfied, if it has one (R42). -/
def State.Keeps (s : State) (live : Vector Live 16) (y : Station) : Prop :=
  ∀ q, s.active y = some q → satisfied s.activeImage live y q = true

theorem Plant.needsResolution_iff {s : State} {w : Work} {y : Station} (stations : w.stations = s.stations)
    (image : w.activeImage = s.activeImage) : w.needsResolution y = true ↔ ¬s.Keeps w.contactors y := by
  have active : w.active y = s.active y := by
    unfold Plant.active
    rw [stations]
  unfold Plant.needsResolution State.Keeps
  rw [active, image]
  cases s.active y <;> simp

section
variable {s u : State} {t : Transition} {y : Station} {w r : Work} (stations : w.stations = s.stations)
  (image : w.activeImage = s.activeImage) (entries : ∃ v, w.transition = some v ∧ v.entries = t.entries)
  (folded : r = t.restoreSet.foldl (fun w x => w.endReversalFor t x) w) (after : u.stations = r.stations)
include stations image entries folded after

/-- A station of the restore set whose map is satisfied is raised back (R42). -/
theorem State.reversed_kept (restored : t.restores y = true) (kept : s.Keeps w.contactors y) : s.RaisedBack t y u := by
  intro q active
  obtain ⟨v, ys, before, fresh, get⟩ := Work.foldl_at (fun w x => w.endReversalFor_tuned t x) t.nodup_restoreSet
    ((t.mem_restoreSet y).2 restored) w
  have unit : v.stations.get y = s.stations.get y := by rw [before.alone fresh, stations]
  have image' : v.activeImage = s.activeImage := (before.field Plant.activeImage fun _ _ => rfl).trans image
  have fits : satisfied v.activeImage v.contactors y q = true := by
    rw [image', before.field Plant.contactors fun _ _ => rfl]
    exact kept q active
  have raised : v.endReversalFor t y = v.raiseBack y := by
    unfold Work.endReversalFor
    rw [show v.active y = some q from (congrArg StationUnit.activePattern unit).trans active]
    exact if_pos fits
  obtain ⟨t', active', entries'⟩ := entries
  refine State.raisedBack_of (v := v) unit image' ?_ ?_ q active
  · rw [before.field Plant.transition fun _ _ => rfl, active']
    exact congrArg (fun e => Pair.get e y) entries'
  · rw [after, folded, get, raised]

/-- A station of the restore set whose map is not satisfied is resolved (R42). -/
theorem State.reversed_unkept (contactors : u.contactors = w.contactors) (restored : t.restores y = true)
    (unkept : ¬s.Keeps w.contactors y) : s.ResolvedBy t y u := by
  obtain ⟨v, ys, before, fresh, get⟩ := Work.foldl_at (fun w x => w.endReversalFor_tuned t x) t.nodup_restoreSet
    ((t.mem_restoreSet y).2 restored) w
  have unit : v.stations.get y = s.stations.get y := by rw [before.alone fresh, stations]
  have image' : v.activeImage = s.activeImage := (before.field Plant.activeImage fun _ _ => rfl).trans image
  have same : v.contactors = w.contactors := before.field Plant.contactors fun _ _ => rfl
  unfold State.Keeps at unkept
  push Not at unkept
  obtain ⟨q, active, unfit⟩ := unkept
  have resolved : v.endReversalFor t y = v.resolve t y := by
    unfold Work.endReversalFor
    rw [show v.active y = some q from (congrArg StationUnit.activePattern unit).trans active]
    refine if_neg ?_
    rw [image', same]
    exact unfit
  exact State.resolvedBy_of (v := v) unit image' (same.trans contactors.symm) (by rw [after, folded, get, resolved])

/-- A station that is not of the restore set is left alone. -/
theorem State.reversed_alone (apart : t.restores y = false) : u.stations.get y = s.stations.get y := by
  have tuned : w.Tuned t.restoreSet r := folded ▸ Work.Tuned.foldl (fun w x => w.endReversalFor_tuned t x) _ w
  rw [after, tuned.alone fun hm => ?_, stations]
  rw [(t.mem_restoreSet y).1 hm] at apart
  cases apart

/-- A DARK station whose map is satisfied, or that is not of the restore set, stays DARK. -/
theorem State.reversed_dark (kept : t.restores y = true → s.Keeps w.contactors y) (dark : (s.carrier y).state = .dark) :
    (u.carrier y).state = .dark := by
  by_cases restored : t.restores y = true
  · obtain ⟨v, ys, before, fresh, get⟩ := Work.foldl_at (fun w x => w.endReversalFor_tuned t x) t.nodup_restoreSet
      ((t.mem_restoreSet y).2 restored) w
    have unit : v.stations.get y = s.stations.get y := by rw [before.alone fresh, stations]
    have still : v.endReversalFor t y = v := by
      have dark' : (v.carrier y).state = .dark := by rw [show v.carrier y = s.carrier y from congrArg StationUnit.carrier unit]; exact dark
      unfold Work.endReversalFor
      split
      · rfl
      · next q hq =>
        have active : s.active y = some q := (congrArg StationUnit.activePattern unit).symm.trans hq
        have fits : satisfied v.activeImage v.contactors y q = true := by
          rw [(before.field Plant.activeImage fun _ _ => rfl).trans image, before.field Plant.contactors fun _ _ => rfl]
          exact kept restored q active
        rw [if_pos fits]
        exact if_pos dark'
    unfold Plant.carrier
    rw [after, folded, get, still, unit]
    exact dark
  · unfold Plant.carrier
    rw [State.reversed_alone stations image entries folded after (by simpa using restored)]
    exact dark

end

/-! ### The reversal complete (R42, R45) -/

/-- The record while the stations are raised back behind a complete reversal (R42). -/
def Transition.reverted (t : Transition) : Transition := { t with phase := .restore, result := some t.reversalResult }

section
variable {t : Transition} {w : Work} (ht : w.transition = some t)
include ht

/-- A map of the restore set is unsatisfied: its station is resolved, the others raised back, and the switch ends dark (R42). -/
theorem Work.reversalComplete_unkept (h : t.restoreSet.any w.needsResolution = true) :
    w.reversalComplete t =
      ((t.restoreSet.foldl (fun w x => w.endReversalFor t x) w).handLastState false).endTransition .switchFaultDark := by
  unfold Work.reversalComplete
  exact if_pos h

/-- Every map of the restore set is satisfied: the result is decided, and the stations are raised back (R42). -/
theorem Work.reversalComplete_kept (h : t.restoreSet.any w.needsResolution = false) {r : Work}
    (hr : r = t.restoreSet.foldl (fun w x => w.endReversalFor t x) { w with transition := some t.reverted }) :
    w.reversalComplete t = if (r.carrier t.station).state = .dark then r.endTransition t.reversalResult else r.restoreCheck := by
  have reverted : w.onTransition (fun u => { u with phase := .restore, result := some t.reversalResult }) =
      { w with transition := some t.reverted } := by
    unfold Work.onTransition
    rw [ht]
    rfl
  unfold Work.reversalComplete
  rw [if_neg (by simp [h])]
  simp only [reverted, hr]

end

/-- How a move that leaves no MOVED entry brings the reversal to its end: the attempt's outcome, the live record it leaves, and
what the Transition Engine then does (R40 to R42, R48, R59). -/
theorem complete_outcome {s : State} {m : Move} {t : Transition} {after : Live} {written : EntryOutcome}
    {cause : Option ReversalCause} (active : s.transition = some t) (undecided : t.result = none)
    (h : (t.phase = .reverse ∧ s.aux[m.contactor].shows = some m.toPos ∧ after = ⟨some m.toPos, .idle, .noFailure⟩ ∧
          written = .notDone ∧ cause = t.cause) ∨
        (t.phase = .switch ∧ s.aux[m.contactor].shows = some m.toPos.other ∧
          m.attempt ≤ (contactorRecord s.activeImage m.contactor).retries ∧ m.stop = true ∧
          after = ⟨s.contactors[m.contactor].position, .idle, .noFailure⟩ ∧ written = .notDone ∧ cause = some .withdraw) ∨
        (t.phase = .switch ∧ s.aux[m.contactor].shows = some m.toPos.other ∧
          ¬m.attempt ≤ (contactorRecord s.activeImage m.contactor).retries ∧
          after = ⟨s.contactors[m.contactor].position, .failed, .stuck⟩ ∧ written = .stuck ∧ cause = some .fault) ∨
        (t.phase = .switch ∧ s.aux[m.contactor].shows = none ∧ after = ⟨none, .failed, .disagree⟩ ∧ written = .disagree ∧
          cause = some .fault))
    (moves : List MoveEntry)
    (hm : moves = t.moves.map fun d => if d.contactor = m.contactor then { d with outcome := written }
        else if t.phase = .switch ∧ d.outcome = .waiting then { d with outcome := .notDone } else d)
    (none_moved : ∀ d ∈ moves, d.outcome ≠ .moved) :
    ∃ o, attemptEnd m s.aux[m.contactor].shows (contactorRecord s.activeImage m.contactor).retries = some o ∧
      Live.afterAttempt m (some o) s.contactors[m.contactor] = after ∧
      (after.state = .failed → o = .stuck ∨ o = .disagree) ∧
      (s.work.handed m o).moveOutcome m.contactor o =
        Work.reversalComplete { t with moves := moves, phase := .reverse, cause := cause } { s.work.handed m o with
          driver := none
          transition := some { t with moves := moves, phase := .reverse, cause := cause } } := by
  have handed (o : MoveOutcome) : (s.work.handed m o).transition = some t := active
  have completes (w : Work) : Work.nextReversal { w with
      driver := none, transition := some { t with moves := moves, phase := .reverse, cause := cause } } =
      Work.reversalComplete { t with moves := moves, phase := .reverse, cause := cause } { w with
        driver := none, transition := some { t with moves := moves, phase := .reverse, cause := cause } } :=
    Work.nextReversal_completes rfl none_moved
  have begun {o : MoveOutcome} {c : ReversalCause} (phase : t.phase = .switch) (done : o.forSwitch ≠ .waiting)
      (wrote : o.forSwitch = written) (caused : cause = some c)
      (next : ∀ w : Work, w.afterSwitchMove (t.written m.contactor o) o = w.beginReverse c) :
      (s.work.handed m o).moveOutcome m.contactor o =
        Work.reversalComplete { t with moves := moves, phase := .reverse, cause := cause } { s.work.handed m o with
          driver := none
          transition := some { t with moves := moves, phase := .reverse, cause := cause } } := by
    have reversing : (t.written m.contactor o).reversing c = { t with moves := moves, phase := .reverse, cause := cause } := by
      unfold Transition.reversing Transition.written
      rw [if_neg (by rw [phase]; simp), dropWaiting_writeOutcome done, hm, caused, wrote]
      simp only [phase, true_and]
    rw [Work.moveOutcome_switch (handed o) phase undecided, next, Work.beginReverse_eq rfl, reversing]
    exact completes _
  rcases h with ⟨phase, shown, rfl, rfl, rfl⟩ | ⟨phase, shown, retry, stop, rfl, rfl, rfl⟩ | ⟨phase, shown, spent, rfl, rfl, rfl⟩ |
    ⟨phase, shown, rfl, rfl, rfl⟩
  · refine ⟨.moved, by rw [shown]; exact attemptEnd_moved _ _, rfl, by simp, ?_⟩
    have written_ : t.written m.contactor .moved = { t with moves := moves, phase := .reverse, cause := t.cause } := by
      unfold Transition.written
      rw [if_pos phase, hm, ← phase]
      simp only [phase, reduceCtorEq, false_and, if_false]
      rfl
    rw [Work.moveOutcome_reverse (handed .moved) phase undecided]
    unfold Work.released
    rw [written_]
    exact completes _
  · exact ⟨.stopped, by rw [shown, attemptEnd_retry retry, stop]; rfl, rfl, by simp, begun phase (by decide) rfl rfl fun _ => rfl⟩
  · exact ⟨.stuck, by rw [shown]; exact attemptEnd_stuck spent, rfl, by simp, begun phase (by decide) rfl rfl fun _ => rfl⟩
  · exact ⟨.disagree, by rw [shown]; rfl, rfl, by simp, begun phase (by decide) rfl rfl fun _ => rfl⟩

end Machine
end Sys2Proof

/-! PROOFS. ReversalEnds, put together (R38, R41, R42). -/
namespace Sys2Proof
namespace Machine

/-- A reversal that succeeds goes on to the next MOVED entry (R41). -/
theorem reversal_goes_on {s : State} {m : Move} {t : Transition} {e : MoveEntry} {side : Side} (moving : s.driver = some m)
    (settling : m.phase = .settling) (active : s.transition = some t) (undecided : t.result = none) (phase : t.phase = .reverse)
    (shown : s.aux[m.contactor].shows = some m.toPos)
    (last : (t.moves.map fun d : MoveEntry => if d.contactor = m.contactor then { d with outcome := .notDone } else d).reverse.find?
      (fun d => d.outcome == .moved) = some e) (origin : e.fromPos = some side)
    (fit : (s.contactors.set m.contactor ⟨some m.toPos, .idle, .noFailure⟩)[e.contactor].state ≠ .failed)
    (cold : ∀ y, carries s.activeImage e.contactor y = true →
      (s.carrier y).rfInhibit = true ∧ (s.carrier y).rfPresent = some false) :
    exec .settleTimeEnd s = .next
      { s with
        elapsed := max s.elapsed m.due
        transition := some { t with
          moves := t.moves.map fun d : MoveEntry => if d.contactor = m.contactor then { d with outcome := .notDone } else d }
        driver := some ⟨e.contactor, (s.contactors.set m.contactor ⟨some m.toPos, .idle, .noFailure⟩)[e.contactor].position, side, 1,
          .pulsing, false, max s.elapsed m.due + Config.ms (contactorRecord s.activeImage e.contactor).pulse⟩
        contactors := (s.contactors.set m.contactor ⟨some m.toPos, .idle, .noFailure⟩).set e.contactor
          { (s.contactors.set m.contactor ⟨some m.toPos, .idle, .noFailure⟩)[e.contactor] with state := .pulsing } } := by
  obtain ⟨t', ht'⟩ : ∃ t', t' = { t with
      moves := t.moves.map fun d : MoveEntry => if d.contactor = m.contactor then { d with outcome := .notDone } else d } := ⟨_, rfl⟩
  obtain ⟨v, hv⟩ : ∃ v : Work, v = { s.work with
      elapsed := max s.elapsed m.due
      contactors := s.contactors.set m.contactor ⟨some m.toPos, .idle, .noFailure⟩
      driver := none
      transition := some t' } := ⟨_, rfl⟩
  have written : t.written m.contactor .moved = t' := by
    unfold Transition.written
    rw [if_pos phase, ht']
    rfl
  have ended : attemptEnd m s.work.aux[m.contactor].shows (contactorRecord s.work.activeImage m.contactor).retries = some .moved := by
    rw [show s.work.aux[m.contactor].shows = some m.toPos from shown]
    exact attemptEnd_moved _ _
  have settled : s.work.endSettle = v.nextReversal := by
    rw [Work.endSettle_handed moving settling ended,
      Work.moveOutcome_reverse (w := s.work.handed m .moved) (t := t) active phase undecided]
    unfold Work.released
    rw [written, hv]
    rfl
  have passes : v.checkPasses e.contactor = true := by
    refine Plant.checkPasses_of (by rw [hv]; exact fit) fun y hy => ?_
    rw [hv] at hy ⊢
    exact cold y hy
  rw [Work.nextReversal_begins (t := t') (by rw [hv]) (by rw [ht']; exact last) passes, origin, hv] at settled
  have examined : s.work.endSettle.examinePending = s.work.endSettle := by
    rw [settled]
    exact Work.examinePending_active _ (by simp)
  refine (exec_settleTimeEnd (examined.trans settled) fun _ => rfl).trans ?_
  rw [ht']
  rfl

/-- What the end of a transition leaves of a settle's event: no move held, no coil on, no transition. -/
theorem Work.endTransition_frame {t : Transition} {w : Work} (result : Result) (ht : w.transition = some t) :
    (w.endTransition result).driver = w.driver ∧ (w.endTransition result).contactors = w.contactors ∧
      (w.endTransition result).pendingList = w.pendingList ∧ (w.endTransition result).stations = w.stations := by
  rw [Work.endTransition_eq result w t ht]
  exact ⟨rfl, rfl, rfl, rfl⟩

/-- TRANSITION_ENDED stands last in a queue with room (R51). -/
theorem State.ended_last {s u : State} {t : Transition} {w : Work} {result : Result} (ht : w.transition = some t)
    (left : State.Left (w.endTransition result) s u)
    (room : (s.ports.get t.station).notices.length + (w.noticesTo t.station).length ≤ 15) :
    (u.ports.get t.station).notices.getLast? =
      some (.transitionEnded t.tag t.station t.target t.source result (u.active .A) (u.active .B)) := by
  have posted := Work.endTransition_noticesTo (result := result) ht t.station
  rw [if_pos t.station_informed] at posted
  have active (y : Station) : u.active y = w.active y := by
    rw [left.active]
    unfold Plant.active
    rw [(Work.endTransition_frame result ht).2.2.2]
  rw [left.notices (by rw [posted]; simp only [List.length_append, List.length_singleton]; omega), posted, ← List.append_assoc,
    List.getLast?_concat, active, active]

/-- A requester back at its fault power ends the transition in RESTORE (R45). -/
theorem Work.restoreCheck_reduced {t : Transition} {w : Work} (ht : w.transition = some t) (phase : t.phase = .restore)
    (h : (w.carrier t.station).state = .reduced) : w.restoreCheck = w.endTransition (t.result.getD .completedReduced) := by
  unfold Work.restoreCheck
  rw [ht]
  dsimp only
  rw [phase, h]

/-- A settle whose event ends the transition with nothing else pending. -/
theorem exec_settleTimeEnd_ended {s : State} {w : Work} {t : Transition} {result : Result}
    (settled : s.work.endSettle = w.endTransition result) (ht : w.transition = some t) (empty : w.pendingList = []) :
    ∃ u, exec .settleTimeEnd s = .next u ∧ State.Left (w.endTransition result) s u :=
  ⟨_, rfl, State.event_left (f := fun w => w.endSettle.examinePending) (by
    rw [settled]
    exact Work.examinePending_ended ht empty)⟩

/-- Settles O38: the reversal goes on, fails, or is complete. -/
theorem reversalEnds : Obligations.ReversalEnds := by
  intro s m t moving settling active undecided k was retry now reached stuck split last told
  refine ⟨?_, ?_, ?_⟩
  · intro e side phase shown moves live latest origin fit cold
    exact reversal_goes_on moving settling active undecided phase shown latest origin fit cold
  · intro after phase failed empty
    obtain ⟨o, ended, read, fault⟩ : ∃ o, attemptEnd m s.aux[k].shows (contactorRecord s.activeImage k).retries = some o ∧
        Live.afterAttempt m (some o) was = after ∧ (o = .stuck ∨ o = .disagree) := by
      rcases failed with ⟨shown, spent, rfl⟩ | ⟨shown, rfl⟩
      · exact ⟨.stuck, by rw [shown]; exact attemptEnd_stuck spent, rfl, .inl rfl⟩
      · exact ⟨.disagree, by rw [shown]; rfl, rfl, .inr rfl⟩
    obtain ⟨w, hw⟩ : ∃ w, w = (s.work.handed m o).released t k o := ⟨_, rfl⟩
    have settled : s.work.endSettle = w.resolveAndEnd .switchFaultDark := by
      rw [Work.endSettle_handed (w := s.work) moving settling ended,
        Work.moveOutcome_reverse (w := s.work.handed m o) (t := t) active phase undecided, hw]
      rcases fault with rfl | rfl <;> rfl
    obtain ⟨unheld, contactors, list, idle⟩ := w.resolveAndEnd_frame .switchFaultDark
    have examined : s.work.endSettle.examinePending = w.resolveAndEnd .switchFaultDark := by
      rw [settled]
      exact Work.examinePending_of_empty (list.trans (by rw [hw]; exact empty))
    obtain ⟨alone, resolved, l, notices, few⟩ := Work.resolveAndEnd_spec (w := w) (t := t.written k o)
      (result := .switchFaultDark) (by rw [hw]; rfl)
    have left := State.event_left (f := fun w => w.endSettle.examinePending) (s := s) examined
    obtain ⟨u, hu⟩ : ∃ u, u = s.event fun w => w.endSettle.examinePending := ⟨_, rfl⟩
    rw [← hu] at left
    have held : w.driver = none := by rw [hw]; rfl
    refine ⟨u, by rw [hu]; rfl, left.driver.trans (unheld.trans held), left.coil (unheld.trans held), left.transition.trans idle,
      ?_, fun y carried quiet => ?_, fun room => ?_, fun y => ⟨fun restored => ?_, fun apart => ?_⟩⟩
    · rw [left.contactors, contactors, hw]
      exact congrArg (s.contactors.set k) read
    · exact State.told_first left (w.resolveAndEnd_moves .switchFaultDark)
        (by rw [hw]; exact Work.handed_fault fault read carried) quiet
    · have own : (w.noticesTo (t.written k o).station).length ≤ 1 := by rw [hw]; exact Work.handed_noticesTo_length m o _ s
      have posted : (w.resolveAndEnd .switchFaultDark).noticesTo t.station = _ := notices
      rw [left.notices (by rw [posted]; simp only [List.length_append, List.length_singleton]; omega), posted,
        ← List.append_assoc, List.getLast?_concat, left.active, left.active]
      rw [show (t.written k o).result = none from undecided]
      rfl
    · obtain ⟨v, ys, before, fresh, get⟩ := resolved y restored
      exact State.resolved_at left (by rw [hw]; rfl) (by rw [hw]; rfl) contactors before fresh get
    · rw [left.stations, alone y apart, hw]
      rfl
  · intro after written cause outcome moves none_moved live kept result requester faultOf
    obtain ⟨o, ended, read, fault, completes⟩ := complete_outcome active undecided outcome moves rfl none_moved
    obtain ⟨t', ht'⟩ : ∃ t', t' = { t with moves := moves, phase := .reverse, cause := cause } := ⟨_, rfl⟩
    obtain ⟨w, hw⟩ : ∃ w : Work, w = { s.work.handed m o with driver := none, transition := some t' } := ⟨_, rfl⟩
    have settled : s.work.endSettle = w.reversalComplete t' := by
      rw [Work.endSettle_handed (w := s.work) moving settling ended, completes, hw, ht']
    have transition : w.transition = some t' := by rw [hw]
    have stations : w.stations = s.stations := by rw [hw]; rfl
    have image : w.activeImage = s.activeImage := by rw [hw]; rfl
    have contactors : w.contactors = live := by rw [hw]; exact congrArg (s.contactors.set k) read
    have resultOf : t'.reversalResult = result := by rw [ht']; rfl
    have own (y : Station) : (w.noticesTo y).length ≤ 1 := by rw [hw]; exact Work.handed_noticesTo_length m o _ s
    have restores (y : Station) : y ∈ t'.restoreSet ↔ t.restores y = true := by
      rw [t'.mem_restoreSet, ht']
      rfl
    have needs : t'.restoreSet.any w.needsResolution = true ↔ ¬∀ y, t.restores y = true → kept y := by
      rw [List.any_eq_true]
      push Not
      refine exists_congr fun y => and_congr (restores y) ?_
      rw [Plant.needsResolution_iff stations image, contactors]
      rfl
    have moved {r : Work} (h : s.work.endSettle = r) : Moves (s.work.handed m o) r := by
      rw [← h, Work.endSettle_handed (w := s.work) moving settling ended]
      exact Work.moveOutcome_moves _ _ _
    have tell {r : Work} {u : State} (left : State.Left r s u) (h : s.work.endSettle = r) (failed : after.state = .failed) :
        told u after := fun y carried quiet =>
      State.told_first left (moved h) (Work.handed_fault (fault failed) read carried) quiet
    constructor
    · intro all
      have fine : t'.restoreSet.any w.needsResolution = false := Bool.eq_false_iff.2 fun h => needs.1 h all
      obtain ⟨w2, hw2⟩ : ∃ w2 : Work, w2 = { w with transition := some t'.reverted } := ⟨_, rfl⟩
      obtain ⟨r, hr⟩ : ∃ r, r = t'.restoreSet.foldl (fun w x => w.endReversalFor t' x) w2 := ⟨_, rfl⟩
      have tuned : w2.Tuned t'.restoreSet r := hr ▸ Work.Tuned.foldl (fun w x => w.endReversalFor_tuned t' x) _ w2
      rw [Work.reversalComplete_kept transition fine (hr.trans (by rw [hw2]))] at settled
      have stations2 : w2.stations = s.stations := by rw [hw2]; exact stations
      have image2 : w2.activeImage = s.activeImage := by rw [hw2]; exact image
      have entries2 : ∃ v, w2.transition = some v ∧ v.entries = t'.entries := ⟨t'.reverted, by rw [hw2], rfl⟩
      have live2 : w2.contactors = live := by rw [hw2]; exact contactors
      have keeps (y : Station) (h : t.restores y = true) : s.Keeps w2.contactors y := by rw [live2]; exact all y h
      have restored (y : Station) : t'.restores y = t.restores y := by rw [ht']; rfl
      have each (u : State) (after : u.stations = r.stations) (y : Station) :
          (t.restores y = true → s.RaisedBack t y u) ∧ (t.restores y = false → u.stations.get y = s.stations.get y) :=
        ⟨fun h => (State.reversed_kept stations2 image2 entries2 hr after ((restored y).trans h) (keeps y h)).congr
            (by rw [ht']),
          fun h => State.reversed_alone stations2 image2 entries2 hr after ((restored y).trans h)⟩
      have station : t'.station = t.station := by rw [ht']
      have active2 : r.transition = some t'.reverted := (tuned.field Plant.transition fun _ _ => rfl).trans (by rw [hw2])
      have held : r.driver = none := (tuned.field Plant.driver fun _ _ => rfl).trans (by rw [hw2, hw])
      have positions : r.contactors = live := (tuned.field Plant.contactors fun _ _ => rfl).trans live2
      have here := (each { s with toPlant := r.toPlant } rfl t.station).1
      constructor
      · intro q pattern_ requesterRestored lit below
        obtain ⟨-, -, full, reduced⟩ := here requesterRestored q pattern_ lit
        have raising : (r.carrier t.station).state = .raising := by
          rcases below with ⟨level, below⟩ | ⟨level, below⟩
          · exact (full level).1.trans (if_pos below)
          · exact (reduced level).1.trans (if_pos below)
        have waits : s.work.endSettle = r := by
          rw [settled, station, if_neg (by rw [raising]; simp)]
          exact Work.restoreCheck_waits active2 rfl (by
            show (r.carrier t'.station).state.measured = false
            rw [station, raising]
            rfl)
        have examined : s.work.endSettle.examinePending = r := by
          rw [waits]
          exact Work.examinePending_active r (by rw [active2]; simp)
        have left := State.event_left (f := fun w => w.endSettle.examinePending) (s := s) examined
        refine ⟨_, rfl, left.driver.trans held, left.coil held, left.contactors.trans positions, ?_, tell left waits,
          each _ left.stations⟩
        rw [left.transition, active2]
        unfold Transition.reverted
        rw [resultOf, ht']
      · intro over_ empty
        have finished : s.work.endSettle = r.endTransition result := by
          rw [settled, resultOf]
          by_cases dark : (r.carrier t'.station).state = .dark
          · exact if_pos dark
          · have lit : requester.state ≠ .dark := fun h => dark (by
              rw [station]
              exact State.reversed_dark (u := { s with toPlant := r.toPlant }) stations2 image2 entries2 hr rfl
                (fun h => keeps _ ((restored _).symm.trans h)) h)
            obtain ⟨q, pattern_, requesterRestored, level, same⟩ := over_.resolve_left lit
            obtain ⟨-, -, -, reduced⟩ := here requesterRestored q pattern_ lit
            have back : (r.carrier t'.station).state = .reduced := by
              rw [station]
              refine (reduced level).1.trans ((if_neg ?_).trans (if_neg ?_))
              · exact Nat.not_lt.2 (Nat.le_of_eq same.symm)
              · exact Nat.not_lt.2 (Nat.le_of_eq same)
            rw [if_neg dark, Work.restoreCheck_reduced active2 rfl back]
            exact congrArg (fun x => r.endTransition x) resultOf
        obtain ⟨u, run, left⟩ := exec_settleTimeEnd_ended finished active2
          ((tuned.field Plant.pendingList fun _ _ => rfl).trans (by rw [hw2, hw]; exact empty))
        obtain ⟨h1, h2, -, h4⟩ := Work.endTransition_frame result active2
        refine ⟨u, run, left.driver.trans (h1.trans held), left.coil (h1.trans held), left.contactors.trans (h2.trans positions),
          left.transition.trans (Work.endTransition_idle _ _).1, fun room => ?_, tell left finished, fun dark => ?_,
          each u (left.stations.trans h4)⟩
        · obtain ⟨l, hl, few⟩ := tuned.noticesTo t'.station
          have count := t'.count_restoreSet t'.station
          have mine := own t'.station
          have base : w2.noticesTo t'.station = w.noticesTo t'.station := by rw [hw2]; rfl
          have posted : (r.noticesTo t'.station).length ≤ 3 := by
            rw [hl, List.length_append, base]
            omega
          have queued : s.ports.get t'.station = s.ports.get t.station := by rw [station]
          have := State.ended_last active2 left (by
            show (s.ports.get t'.station).notices.length + (r.noticesTo t'.station).length ≤ 15
            rw [queued]
            omega)
          rw [ht'] at this
          exact this
        · exact State.reversed_dark stations2 image2 entries2 hr (left.stations.trans h4)
            (fun h => keeps _ ((restored _).symm.trans h)) dark
    · intro some_unkept empty
      obtain ⟨r, hr⟩ : ∃ r, r = t'.restoreSet.foldl (fun w x => w.endReversalFor t' x) w := ⟨_, rfl⟩
      have tuned : w.Tuned t'.restoreSet r := hr ▸ Work.Tuned.foldl (fun w x => w.endReversalFor_tuned t' x) _ w
      obtain ⟨v, hv⟩ : ∃ v, v = r.handLastState false := ⟨_, rfl⟩
      have handed : v = { r with
          writing := v.writing, writeQueue := v.writeQueue, imageRecord := v.imageRecord, lastRecord := v.lastRecord } := by
        rw [hv]
        exact Work.handLastState_eq false r
      have finished : s.work.endSettle = v.endTransition .switchFaultDark := by
        rw [settled, Work.reversalComplete_unkept transition (needs.2 some_unkept), hv, hr]
      have active2 : v.transition = some t' := by
        rw [handed]
        exact (tuned.field Plant.transition fun _ _ => rfl).trans transition
      obtain ⟨u, run, left⟩ := exec_settleTimeEnd_ended finished active2 (by
        rw [handed]
        exact (tuned.field Plant.pendingList fun _ _ => rfl).trans (by rw [hw]; exact empty))
      obtain ⟨h1, h2, -, h4⟩ := Work.endTransition_frame .switchFaultDark active2
      have held : (v.endTransition .switchFaultDark).driver = none := by
        rw [h1, handed]
        exact (tuned.field Plant.driver fun _ _ => rfl).trans (by rw [hw])
      have positions : v.contactors = w.contactors := by
        rw [handed]
        exact tuned.field Plant.contactors fun _ _ => rfl
      have after' : u.stations = r.stations := by rw [left.stations, h4, handed]
      have entries : ∃ v, w.transition = some v ∧ v.entries = t'.entries := ⟨t', transition, rfl⟩
      have restored (y : Station) : t'.restores y = t.restores y := by rw [ht']; rfl
      refine ⟨u, run, left.driver.trans held, left.coil held, left.contactors.trans (h2.trans (positions.trans contactors)),
        left.transition.trans (Work.endTransition_idle _ _).1, fun room => ?_, tell left finished,
        fun y => ⟨fun h unkept => ?_, fun h keep => ?_, fun h => ?_⟩⟩
      · obtain ⟨l, hl, few⟩ := tuned.noticesTo t'.station
        have count := t'.count_restoreSet t'.station
        have mine := own t'.station
        have base : v.noticesTo t'.station = r.noticesTo t'.station := by rw [hv, Work.handLastState_noticesTo]
        have posted : (v.noticesTo t'.station).length ≤ 3 := by
          rw [base, hl, List.length_append]
          omega
        have queued : s.ports.get t'.station = s.ports.get t.station := by rw [ht']
        have := State.ended_last active2 left (by
          rw [queued]
          omega)
        rw [ht'] at this
        exact this
      · have by_ := State.reversed_unkept stations image entries hr after' (left.contactors.trans (h2.trans positions))
          ((restored y).trans h) (by rw [contactors]; exact unkept)
        rw [ht'] at by_
        exact by_
      · exact (State.reversed_kept stations image entries hr after' ((restored y).trans h)
          (by rw [contactors]; exact keep)).congr (by rw [ht'])
      · exact State.reversed_alone stations image entries hr after' ((restored y).trans h)

end Machine
end Sys2Proof

/-! PROOFS. Transitions that end before SWITCH with the affected stations raised back (R36, R47): the withdraw in CONSENT_WAIT and
QUIESCE, and the mute timer. -/
namespace Sys2Proof
namespace Machine

/-! ### The notices a request leaves -/

section
variable {x y : Station} {r : Request} {s : State} {w : Work} {reply : Reply} (h : s.Ready x)
  (ha : act x (s.ports.get x).dropped r s.work = (w, reply))
include h ha

/-- The queue of a port that has room takes every notice a request's work posts to it. -/
theorem State.receiveRequest_notices (room : (s.ports.get y).notices.length + (w.noticesTo y).length ≤ 16) :
    ((s.receiveRequest x r).ports.get y).notices = (s.ports.get y).notices ++ w.noticesTo y := by
  have opened : ((s.onPort x Port.frameClosed).ports.get y).notices = (s.ports.get y).notices := by
    rw [State.onPort_ports]
    by_cases hy : y = x
    · rw [hy, Pair.get_set_self, Port.frameClosed_notices]
    · rw [Pair.get_set_of_ne _ _ hy]
  have delivered := State.deliver_posts (posts := w.posts)
    (s := { s.onPort x Port.frameClosed with toPlant := (w.settleScan s.toPlant).toPlant }) (y := y) (w.noticesTo y).length
    (by unfold Work.noticesTo; rw [List.length_map]) (by rw [show _ = _ from opened]; exact room)
  rw [State.receiveRequest_finish h ha, State.placeReply, State.onPort_ports, State.finish_eq, Work.settleScan_posts]
  have final : ((State.deliver w.posts { s.onPort x Port.frameClosed with
      toPlant := (w.settleScan s.toPlant).toPlant }).ports.get y).notices = (s.ports.get y).notices ++ w.noticesTo y := by
    rw [delivered]
    exact congrArg (· ++ w.noticesTo y) opened
  by_cases hy : y = x
  · subst hy
    rw [Pair.get_set_self]
    exact final
  · rw [Pair.get_set_of_ne _ _ hy]
    exact final

end

/-! ### The affected stations raised back (R35) -/

theorem Work.raiseBackAll_active (xs : List Station) (y : Station) (w : Work) : (w.raiseBackAll xs).active y = w.active y := by
  unfold Work.raiseBackAll
  induction xs generalizing w with
  | nil => rfl
  | cons x xs ih => exact (ih (w.raiseBack x)).trans (w.raiseBack_active x y)

/-- A station of return level FULL below its power, raised back: the record it is left with. -/
theorem Work.raiseBack_full {w : Work} {y : Station} {q : PatternNo} (active : w.active y = some q)
    (lit : (w.carrier y).state ≠ .dark)
    (level : ((w.transition.bind fun t => t.entries.get y).bind fun e => e.returnLevel) = some .full)
    (below : (w.carrier y).level < (pattern w.activeImage y q).power) :
    (w.raiseBack y).carrier y = { (w.carrier y).leave with
      state := .raising, ramp := some ⟨(pattern w.activeImage y q).power, .full, q⟩ } := by
  have raised : w.raiseBack y = w.onStation y StationWork.raiseToFull := by
    unfold Work.raiseBack
    rw [if_neg lit, level]
  obtain ⟨stay, out, eq⟩ := StationWork.raiseToFull_below (c := w.toPlant.ctx y)
    (w := { toStationUnit := w.stations.get y, out := [] }) (q := q) active below
  unfold Plant.carrier
  rw [raised, Work.onStation_get, if_pos rfl, eq]
  rfl

section
variable {t : Transition} {w : Work} {y : Station}

/-- A station of the affected set in the run that raises them back: its own command, from a work in which it is as it was. -/
theorem Work.raiseBackAll_at (affected : t.affected.get y = true) :
    ∃ v ys, w.Tuned ys v ∧ y ∉ ys ∧ (w.raiseBackAll t.affectedList).stations.get y = (v.raiseBack y).stations.get y :=
  Work.foldl_at (fun w x => w.raiseBack_tuned x) (StationSet.nodup_members _) (StationSet.mem_members.2 affected) w

/-- The stations of the affected set are raised back (R35). -/
theorem State.raisedBackAll {s u : State} (ht : w.transition = some t) (stations : w.stations.get y = s.stations.get y)
    (image : w.activeImage = s.activeImage) (affected : t.affected.get y = true)
    (after : u.stations.get y = (w.raiseBackAll t.affectedList).stations.get y) : s.RaisedBack t y u := by
  obtain ⟨v, ys, before, fresh, get⟩ := Work.raiseBackAll_at (w := w) affected
  refine State.raisedBack_of (v := v) ((before.alone fresh).trans stations)
    ((before.field Plant.activeImage fun _ _ => rfl).trans image) ?_ (after.trans get)
  rw [before.field Plant.transition fun _ _ => rfl, ht]
  rfl

/-- The record of a station of return level FULL below its power, in the run that raises them back. -/
theorem Work.raiseBackAll_full {q : PatternNo} (ht : w.transition = some t) (affected : t.affected.get y = true)
    (active : w.active y = some q) (lit : (w.carrier y).state ≠ .dark)
    (level : (t.entries.get y).bind (fun e => e.returnLevel) = some .full)
    (below : (w.carrier y).level < (pattern w.activeImage y q).power) :
    (w.raiseBackAll t.affectedList).carrier y = { (w.carrier y).leave with
      state := .raising, ramp := some ⟨(pattern w.activeImage y q).power, .full, q⟩ } := by
  obtain ⟨v, ys, before, fresh, get⟩ := Work.raiseBackAll_at (w := w) affected
  have unit := before.alone fresh
  have carrier : v.carrier y = w.carrier y := congrArg StationUnit.carrier unit
  have image : v.activeImage = w.activeImage := before.field Plant.activeImage fun _ _ => rfl
  have raised := Work.raiseBack_full (w := v) (y := y) (q := q) ((congrArg StationUnit.activePattern unit).trans active)
    (by rw [carrier]; exact lit) (by rw [before.field Plant.transition fun _ _ => rfl, ht]; exact level)
    (by rw [carrier, image]; exact below)
  unfold Plant.carrier at raised carrier ⊢
  rw [get, raised, carrier, image]

theorem Work.raiseBackAll_alone (apart : t.affected.get y = false) :
    (w.raiseBackAll t.affectedList).stations.get y = w.stations.get y :=
  (w.raiseBackAll_tuned t.affectedList).alone fun h => by
    rw [StationSet.mem_members.1 h] at apart
    cases apart

/-- The run posts two notices to a station at most. -/
theorem Work.raiseBackAll_noticesTo (t : Transition) (y : Station) (w : Work) :
    ((w.raiseBackAll t.affectedList).noticesTo y).length ≤ (w.noticesTo y).length + 2 := by
  obtain ⟨l, hl, few⟩ := (w.raiseBackAll_tuned t.affectedList).noticesTo y
  have := t.affected.count_members y
  unfold Transition.affectedList at few
  rw [hl, List.length_append]
  omega

end

/-! ### WITHDRAW in CONSENT_WAIT and QUIESCE (R47) -/

/-- With nothing pending the withdraw of the owner's active transition ends it, by the phase. -/
theorem Work.withdraw_ends {x : Station} {w v : Work} {t : Transition} (empty : w.pendingList = []) (active : w.transition = some t)
    (owner : t.station = x) (ended : w.withdrawActive t = (v.endTransition .withdrawn, .accepted))
    (hv : v.transition = some t) (hl : v.pendingList = []) :
    w.withdraw x = (v.endTransition .withdrawn, .accepted) := by
  rw [Work.withdraw_active (by unfold Plant.pendingOf; rw [empty]; rfl) active owner, ended]
  exact Prod.ext (Work.examinePending_ended hv hl) rfl

/-- Settles O16: the query withdrawn ahead of the end, or the affected stations raised back. -/
theorem withdrawBeforeSwitch : Obligations.WithdrawBeforeSwitch := by
  intro x s t ready empty active owner store ended
  constructor
  · intro phase
    obtain ⟨v, hv⟩ : ∃ v : Work, v = Work.post x.peer (.consentWithdrawn t.tag)
        { s.work with consentTimer := none, deferTimer := none } := ⟨_, rfl⟩
    have withdrawn : s.work.withdrawActive t = (v.endTransition .withdrawn, .accepted) := by
      unfold Work.withdrawActive Work.withdrawQuery
      rw [phase, hv, owner]
      rfl
    have transition : v.transition = some t := by rw [hv]; exact active
    have ends := Work.withdraw_ends (w := s.work) empty active owner withdrawn transition (by rw [hv]; exact empty)
    obtain ⟨h1, h2, h3, h4⟩ := Work.handLastState_congr false v s.work (by rw [hv]; rfl) (by rw [hv]; rfl) (by rw [hv]; rfl)
      (by rw [hv]; rfl) (by rw [hv]; rfl) fun _ => by rw [hv]; rfl
    rw [Work.endTransition_unspared transition rfl, h1, h2, h3, h4, owner, hv] at ends
    exact exec_withdraw ready ends fun _ => rfl
  · intro phase
    obtain ⟨v, hv⟩ : ∃ v, v = s.work.raiseBackAll t.affectedList := ⟨_, rfl⟩
    have tuned : s.work.Tuned t.affectedList v := hv ▸ s.work.raiseBackAll_tuned _
    have withdrawn : s.work.withdrawActive t = (v.endTransition .withdrawn, .accepted) := by
      unfold Work.withdrawActive
      rw [phase, hv]
    have transition : v.transition = some t := (tuned.field Plant.transition fun _ _ => rfl).trans active
    have ends := Work.withdraw_ends (w := s.work) empty active owner withdrawn transition
      ((tuned.field Plant.pendingList fun _ _ => rfl).trans empty)
    have acted : act x (s.ports.get x).dropped .withdraw s.work = (v.endTransition .withdrawn, .plain .accepted) := by
      simp only [act, actWithdraw, ends]
    obtain ⟨h1, h2, -, h4⟩ := Work.endTransition_frame .withdrawn transition
    have field {α : Type} (g : Plant → α)
        (hg : ∀ (p : Plant) list m e, g { p with scanList := list, measurement := m, lastEntry := e } = g p) :
        g (s.receiveRequest x .withdraw).toPlant = g (v.endTransition .withdrawn).toPlant :=
      State.receiveRequest_field ready acted g hg
    have stations : (s.receiveRequest x .withdraw).stations = v.stations := (field Plant.stations fun _ _ _ _ => rfl).trans h4
    have carrier (y : Station) : (s.receiveRequest x .withdraw).carrier y = v.carrier y := by
      unfold Plant.carrier
      rw [stations]
    have patterns (y : Station) : v.active y = s.active y := by
      rw [hv]
      exact Work.raiseBackAll_active _ y s.work
    refine ⟨s.receiveRequest x .withdraw, rfl, (field Plant.transition fun _ _ _ _ => rfl).trans (Work.endTransition_idle _ _).1,
      (field Plant.contactors fun _ _ _ _ => rfl).trans (h2.trans (tuned.field Plant.contactors fun _ _ => rfl)),
      (field Plant.driver fun _ _ _ _ => rfl).trans (h1.trans (tuned.field Plant.driver fun _ _ => rfl)), fun y => ?_,
      State.receiveRequest_reply ready acted, fun room => ?_, fun y apart => ?_, ?_⟩
    · rw [← patterns]
      unfold Plant.active
      rw [stations]
    · have posted := Work.endTransition_noticesTo (result := .withdrawn) transition x
      rw [if_pos (owner ▸ t.station_informed), patterns, patterns, owner] at posted
      have few := Work.raiseBackAll_noticesTo t x s.work
      rw [← hv] at few
      have none_yet : (s.work.noticesTo x).length = 0 := rfl
      rw [State.receiveRequest_notices ready acted (by rw [posted, List.length_append, List.length_singleton]; omega), posted]
      exact List.mem_append_right _ (List.mem_append_right _ List.mem_cons_self)
    · rw [stations, hv, Work.raiseBackAll_alone apart]
      rfl
    · intro y q affected pattern_ lit level below
      have raised := Work.raiseBackAll_full (w := s.work) active affected pattern_ lit level below
      rw [← hv] at raised
      rw [carrier, raised]
      exact ⟨rfl, Carrier.leave_level _, rfl, rfl⟩

/-! ### The mute timer (R36, R87) -/

/-- Settles O25: the timer stops, and in QUIESCE for a station of the affected set the transition ends. -/
theorem muteTimerExpires : Obligations.MuteTimerExpires := by
  intro x due s running
  obtain ⟨w, hw⟩ : ∃ w : Work, w = { s.work with
      elapsed := max s.elapsed due
      stations := s.stations.set x { s.stations.get x with carrier := { s.carrier x with muteTimer := none } } } := ⟨_, rfl⟩
  have stopped : (s.work.reach due).onStation x StationWork.stopMuteTimer = w := by
    rw [hw]
    exact Work.onStation_quiet_eq x (fun r => { r with muteTimer := none }) (s.work.reach due)
  have expired : s.work.whenDue (s.work.carrier x).muteTimer (Work.muteExpiry x) = (s.work.reach due).muteExpiry x := by
    rw [show (s.work.carrier x).muteTimer = some due from running]
    rfl
  have carrier (y : Station) : w.carrier y = if y = x then { s.carrier x with muteTimer := none } else s.carrier y := by
    rw [hw]
    unfold Plant.carrier
    by_cases hy : y = x
    · subst hy
      rw [if_pos rfl, Pair.get_set_self]
    · rw [if_neg hy, Pair.get_set_of_ne _ _ hy]
  have other (y : Station) (hy : y ≠ x) : w.stations.get y = s.stations.get y := by
    rw [hw]
    exact Pair.get_set_of_ne _ _ hy
  constructor
  · intro quiet
    have idle : (s.work.reach due).muteExpiry x = w := by
      unfold Work.muteExpiry
      dsimp only
      rw [stopped]
      have still : w.transition = s.transition := by rw [hw]; rfl
      rw [still]
      cases ht : s.transition with
      | none => rfl
      | some t => exact if_neg (quiet t ht)
    refine congrArg Host.Outcome.next ?_
    rw [State.event_eq _ s fun y => ?_, expired, idle, hw]
    · rfl
    · rw [expired, idle, hw]
      by_cases hy : y = x
      · subst hy
        rw [Pair.get_set_self]
      · rw [Pair.get_set_of_ne _ _ hy]
  · intro t active phase affected empty
    obtain ⟨v, hv⟩ : ∃ v, v = w.raiseBackAll t.affectedList := ⟨_, rfl⟩
    have tuned : w.Tuned t.affectedList v := hv ▸ w.raiseBackAll_tuned _
    have held : w.transition = some t := by rw [hw]; exact active
    have transition : v.transition = some t := (tuned.field Plant.transition fun _ _ => rfl).trans held
    have ends : s.work.whenDue (s.work.carrier x).muteTimer (Work.muteExpiry x) = v.endTransition .muteTimeout := by
      rw [expired]
      unfold Work.muteExpiry
      dsimp only
      rw [stopped, held]
      dsimp only
      rw [if_pos ⟨phase, affected⟩, ← hv]
      exact Work.examinePending_ended transition ((tuned.field Plant.pendingList fun _ _ => rfl).trans (by rw [hw]; exact empty))
    have left := State.event_left (f := fun w => w.whenDue (w.carrier x).muteTimer (Work.muteExpiry x)) (s := s) ends
    obtain ⟨u, hu⟩ : ∃ u, u = s.event fun w => w.whenDue (w.carrier x).muteTimer (Work.muteExpiry x) := ⟨_, rfl⟩
    rw [← hu] at left
    obtain ⟨h1, h2, -, h4⟩ := Work.endTransition_frame .muteTimeout transition
    have stations : u.stations = v.stations := left.stations.trans h4
    have carriers (y : Station) : u.carrier y = v.carrier y := by
      unfold Plant.carrier
      rw [stations]
    have patterns (y : Station) : w.active y = s.active y := by
      by_cases hy : y = x
      · subst hy
        unfold Plant.active
        rw [hw, Pair.get_set_self]
      · exact congrArg StationUnit.activePattern (other y hy)
    have levels (y : Station) : (w.carrier y).level = (s.carrier y).level ∧ (w.carrier y).state = (s.carrier y).state := by
      rw [carrier]
      split
      · next hy => rw [hy]; exact ⟨rfl, rfl⟩
      · exact ⟨rfl, rfl⟩
    have image : w.activeImage = s.activeImage := by rw [hw]; rfl
    have patterns' (y : Station) : v.active y = s.active y := by
      rw [hv, Work.raiseBackAll_active, patterns]
    refine ⟨u, by rw [hu]; rfl, left.transition.trans (Work.endTransition_idle _ _).1,
      left.contactors.trans (h2.trans ((tuned.field Plant.contactors fun _ _ => rfl).trans (by rw [hw]; rfl))),
      left.driver.trans (h1.trans ((tuned.field Plant.driver fun _ _ => rfl).trans (by rw [hw]; rfl))), ?_, fun y => ?_,
      fun y apart => ?_, fun room => ?_, fun y q hit pattern_ lit => ⟨fun level below => ?_, fun level below => ?_⟩⟩
    · rw [left.field Plant.elapsed fun _ _ _ _ => rfl, Work.endTransition_eq _ _ t transition]
      exact (tuned.field Plant.elapsed fun _ _ => rfl).trans (by rw [hw])
    · rw [← patterns']
      unfold Plant.active
      rw [stations]
    · rw [stations, hv, Work.raiseBackAll_alone apart, other y]
      intro hy
      rw [hy, affected] at apart
      cases apart
    · have posted := Work.endTransition_noticesTo (result := .muteTimeout) transition t.station
      rw [if_pos t.station_informed, patterns', patterns'] at posted
      have few := Work.raiseBackAll_noticesTo t t.station w
      rw [← hv] at few
      have none_yet : (w.noticesTo t.station).length = 0 := by rw [hw]; rfl
      rw [left.notices (by rw [posted, List.length_append, List.length_singleton]; omega), posted]
      exact List.mem_append_right _ (List.mem_append_right _ List.mem_cons_self)
    · have raised := Work.raiseBackAll_full held hit ((patterns y).trans pattern_) (by rw [(levels y).2]; exact lit) level
        (by rw [(levels y).1, image]; exact below)
      rw [← hv, image] at raised
      rw [carriers, raised]
      refine ⟨rfl, (Carrier.leave_level _).trans (levels y).1, rfl, fun was => ?_⟩
      have quit (r : Carrier) (hr : r.state = .held) : r.leave.muteTimer = none ∧ r.leave.muteConfirmed = false := by
        unfold Carrier.leave
        rw [hr]
        exact ⟨rfl, rfl⟩
      exact quit _ ((levels y).2.trans was)
    · have fault := (State.raisedBackAll (s := { s with toPlant := w.toPlant }) (u := u) held rfl rfl hit
        (by rw [stations, hv]) q ((patterns y).trans pattern_) (by rw [(levels y).2]; exact lit)).2.2.2 level
      rw [show ({ s with toPlant := w.toPlant } : State).activeImage = s.activeImage from image,
        show (({ s with toPlant := w.toPlant } : State).carrier y).level = (s.carrier y).level from (levels y).1] at fault
      exact ⟨fault.1.trans (if_pos below), fault.2.trans (if_neg (Nat.ne_of_lt below))⟩

end Machine
end Sys2Proof

/-! PROOFS. Lowering to hold: the GRANT that begins it, and the tick at which a HOLD ramp reaches 0 (R35, R36, R77, R78). -/
namespace Sys2Proof
namespace Machine

/-! ### A HOLD ramp completed (R77, R86, R87) -/

theorem Carrier.leave_rfPresent (r : Carrier) : r.leave.rfPresent = r.rfPresent := by
  cases hs : r.state <;> simp [Carrier.leave, hs]

/-- The record of a station that enters HELD. -/
def Carrier.toHeld (c : Ctx) (r : Carrier) : Carrier :=
  { r.leave with
    state := .held
    ramp := none
    verifyRequired := true
    rfNoticePosted := false
    muteConfirmed := r.rfPresent == some false
    muteTimer := some (c.now + Config.ms (100 * (settings c.image c.station).muteSteps)) }

/-- A HOLD ramp complete: the record in HELD, and the notice of it. -/
theorem StationWork.completeRamp_hold {c : Ctx} {w : StationWork} (moved : w.carrier.state ≠ .held) :
    w.completeRamp .hold c = { w with
      carrier := w.carrier.toHeld c
      scanStay := if stayChanges w.carrier.state .held then w.scanStay + 1 else w.scanStay
      out := w.out ++ [.carrierState .held w.carrier.level w.activePattern none (w.carrier.rfPresent == some false)
        (w.carrier.rfPresent == some true)] } := by
  have entered : ({ w.carrier with ramp := none } : Carrier).leave.enter c .held = w.carrier.toHeld c := by
    rw [Carrier.leave_ramp]
    unfold Carrier.enter Carrier.toHeld
    simp only [Carrier.leave_rfPresent]
  have completed : w.completeRamp .hold c = ({ w with carrier := { w.carrier with ramp := none } } : StationWork).enterState
      .held c := rfl
  rw [completed]
  unfold StationWork.enterState
  simp only [entered, if_neg moved]
  unfold StationWork.post StationWork.settleIn StationWork.carrierNotice Carrier.toHeld
  simp only [Carrier.leave_level, Carrier.leave_rfPresent]
  rfl

/-- Lowering to hold from level 0 is complete at once, unless a HOLD ramp is under way (R76, R78). -/
theorem StationWork.lowerToHold_zero {c : Ctx} {w : StationWork} (lit : w.carrier.rfInhibit = false) (zero : w.carrier.level = 0)
    (other : ¬(w.carrier.state = .lowering ∧ w.carrier.ramp.map (fun r => r.purpose) = some .hold)) :
    (w.lowerToHold c).carrier = w.carrier.toHeld c := by
  have up : ¬(w.carrier.state = .held ∨ w.carrier.state = .dark) := by
    rintro (h | h) <;> simp [Carrier.rfInhibit, h, CarrierState.inhibited] at lit
  unfold StationWork.lowerToHold StationWork.rampTo
  rw [if_neg up, if_neg other, if_pos zero.symm, StationWork.completeRamp_hold fun h => up (.inl h)]

/-- An entry leaves the RF present input as it is. -/
theorem StationWork.enterState_rfPresent (new : CarrierState) (c : Ctx) (w : StationWork) :
    (w.enterState new c).carrier.rfPresent = w.carrier.rfPresent := by
  have entered (r : Carrier) : (r.enter c new).rfPresent = r.rfPresent := by cases new <;> rfl
  rw [(StationWork.enterState_drives new c w).rfPresent, entered, Carrier.leave_rfPresent]

theorem StationWork.rampTo_rfPresent (ramp : Ramp) (c : Ctx) (w : StationWork) :
    (w.rampTo ramp c).carrier.rfPresent = w.carrier.rfPresent := by
  unfold StationWork.rampTo StationWork.completeRamp
  split <;> exact StationWork.enterState_rfPresent _ _ _

theorem StationWork.lowerToHold_rfPresent (c : Ctx) (w : StationWork) :
    (w.lowerToHold c).carrier.rfPresent = w.carrier.rfPresent := by
  unfold StationWork.lowerToHold
  split
  · rfl
  · split
    · rfl
    · exact StationWork.rampTo_rfPresent _ _ _

/-! ### GRANT (R31, R35, R36) -/

theorem Work.takeGrant_eq {t : Transition} {w : Work} (ht : w.transition = some t) :
    w.takeGrant = (Work.lowered t { w with
      consentTimer := none
      deferTimer := none
      transition := some { w.quiescing t with consent := .granted } }).quiesceCheck := by
  obtain ⟨v, hv⟩ : ∃ v : Work, v = { w with
      consentTimer := none, deferTimer := none, transition := some { t with consent := .granted } } := ⟨_, rfl⟩
  have taken : w.takeGrant = v.enterQuiesce := by
    unfold Work.takeGrant Work.onTransition
    simp only [ht, Option.map_some]
    rw [hv]
  rw [taken, Work.enterQuiesce_eq (t := { t with consent := .granted }) (by rw [hv]), hv]
  rfl

section
variable {t : Transition} {w : Work}

theorem Work.lowered_apart {y : Station} (apart : t.affected.get y = false) :
    (w.lowered t).stations.get y = w.stations.get y := by
  rw [Work.lowered_get, if_neg (by rw [apart]; exact Bool.false_ne_true)]

theorem Work.lowered_active (y : Station) : (w.lowered t).active y = w.active y := by
  unfold Plant.active
  rw [Work.lowered_get]
  split
  · exact StationWork.lowerToHold_activePattern _ _
  · rfl

/-- An affected station that is quiet already, or at level 0 with RF present inactive, is quiet once lowered. -/
theorem Work.lowered_quiet {y : Station} (affected : t.affected.get y = true)
    (h : (w.carrier y).quiet = true ∨ ((w.carrier y).rfInhibit = false ∧ (w.carrier y).level = 0 ∧
      ¬((w.carrier y).state = .lowering ∧ (w.carrier y).ramp.map (fun r => r.purpose) = some .hold) ∧
      (w.carrier y).rfPresent = some false)) :
    ((w.lowered t).carrier y).quiet = true ∧ ((w.lowered t).carrier y).level = (w.carrier y).level := by
  unfold Plant.carrier at h ⊢
  rw [Work.lowered_get, if_pos affected]
  rcases h with quiet | ⟨lit, zero, other, cold⟩
  · have held : (w.stations.get y).carrier.state = .held := by
      unfold Carrier.quiet at quiet
      exact beq_iff_eq.1 (Bool.and_eq_true_iff.1 quiet).1
    unfold StationWork.lowerToHold
    rw [if_pos (.inl held)]
    exact ⟨quiet, rfl⟩
  · rw [StationWork.lowerToHold_zero lit zero other]
    refine ⟨?_, Carrier.leave_level _⟩
    unfold Carrier.quiet Carrier.toHeld
    simp [cold]

theorem Work.lowered_rfPresent (y : Station) : ((w.lowered t).carrier y).rfPresent = (w.carrier y).rfPresent := by
  unfold Plant.carrier
  rw [Work.lowered_get]
  split
  · exact StationWork.lowerToHold_rfPresent _ _
  · rfl

end

/-- Settles O17: QUIESCE begins with the affected stations lowered, and ends at once when that leaves them all quiet. -/
theorem grantTaken : Obligations.GrantTaken := by
  intro x tag s t ready active phase station tagged fault entry granted keeps
  have level (r : Carrier) : (if fault r then ReturnLevel.fault else .full) = r.returnLevel := by
    unfold Carrier.returnLevel
    cases hs : r.state <;> cases hr : r.ramp <;> simp [fault, hs, hr]
  have recorded : { s.work.quiescing t with consent := .granted } = { granted with phase := .quiesce } := by
    have entries : s.work.withReturnLevels t = ⟨entry .A, entry .B⟩ := by
      have each (y : Station) : (s.work.withReturnLevels t).get y = entry y := by
        rw [Plant.withReturnLevels_get]
        simp only [entry, level]
        rfl
      exact Pair.ext_get fun y => by rw [each]; cases y <;> rfl
    unfold Plant.quiescing
    rw [entries]
  obtain ⟨v, hv⟩ : ∃ v : Work, v = { s.work with
      consentTimer := none
      deferTimer := none
      transition := some { granted with phase := .quiesce } } := ⟨_, rfl⟩
  obtain ⟨w, hw⟩ : ∃ w, w = v.lowered t := ⟨_, rfl⟩
  have tuned : v.Tuned t.affectedList w := hw ▸ v.lowered_tuned t
  have units (y : Station) : v.stations.get y = s.stations.get y := by rw [hv]; rfl
  have carriers (y : Station) : v.carrier y = s.carrier y := congrArg StationUnit.carrier (units y)
  have patterns (y : Station) : w.active y = s.active y := by
    rw [hw, Work.lowered_active]
    exact congrArg StationUnit.activePattern (units y)
  have apart (y : Station) (h : t.affected.get y = false) : w.stations.get y = s.stations.get y := by
    rw [hw, Work.lowered_apart h, units]
  have quiescing : w.transition = some { granted with phase := .quiesce } := by
    rw [tuned.field Plant.transition fun _ _ => rfl, hv]
  have taken : s.work.takeGrant = w.quiesceCheck := by
    rw [Work.takeGrant_eq (t := t) active, recorded, hw, hv]
  have answered {u : Work} (hu : w.quiesceCheck = u) (on : u.transition ≠ none) :
      act x (s.ports.get x).dropped (.consentReply tag 1) s.work = (u, .plain .accepted) := by
    have reply := Work.consentReply_taken (w := s.work) (answer := 1) (.inl rfl) (Plant.queryTo_eq_some active phase station) tagged
    rw [if_pos rfl, taken, hu, Work.examinePending_active u on] at reply
    simp only [act, actConsentReply]
    exact congrArg (fun p : Work × ReplyCode => (p.1, Reply.plain p.2)) reply
  constructor
  · rintro ⟨y, affected, lit, high⟩
    have lowering (y : Station) (affected : t.affected.get y = true) (lit : (s.carrier y).rfInhibit = false)
        (high : 0 < (s.carrier y).level) : (w.carrier y).state = .lowering ∧ (w.carrier y).level = (s.carrier y).level ∧
        (w.carrier y).ramp = if keeps y then (s.carrier y).ramp else some ⟨0, .hold, (s.active y).getD 0⟩ := by
      have down := StationWork.lowerToHold_on_air (c := v.toPlant.ctx y)
        (w := { toStationUnit := v.stations.get y, out := [] })
        (by rw [units]; exact lit) (by rw [units]; exact high)
      unfold Plant.carrier
      rw [hw, Work.lowered_get, if_pos affected]
      simp only [units] at down ⊢
      exact down
    have waits := Work.quiesceCheck_waits (w := w) quiescing affected (by
      unfold Carrier.quiet
      rw [(lowering y affected lit high).1]
      rfl)
    have acted := answered waits (by rw [quiescing]; exact Option.some_ne_none _)
    have field {α : Type} (g : Plant → α)
        (hg : ∀ (p : Plant) list m e, g { p with scanList := list, measurement := m, lastEntry := e } = g p) :
        g (s.receiveRequest x (.consentReply tag 1)).toPlant = g w.toPlant := State.receiveRequest_field ready acted g hg
    have kept {α : Type} (g : Plant → α) (hs : ∀ (p : Plant) stations, g { p with stations := stations } = g p)
        (hg : ∀ (p : Plant) list m e, g { p with scanList := list, measurement := m, lastEntry := e } = g p) :
        g (s.receiveRequest x (.consentReply tag 1)).toPlant = g v.toPlant := (field g hg).trans (tuned.field g hs)
    have stations := field Plant.stations fun _ _ _ _ => rfl
    refine ⟨s.receiveRequest x (.consentReply tag 1), rfl, (field Plant.transition fun _ _ _ _ => rfl).trans quiescing,
      (kept Plant.consentTimer (fun _ _ => rfl) fun _ _ _ _ => rfl).trans (by rw [hv]),
      (kept Plant.deferTimer (fun _ _ => rfl) fun _ _ _ _ => rfl).trans (by rw [hv]),
      (kept Plant.pendingList (fun _ _ => rfl) fun _ _ _ _ => rfl).trans (by rw [hv]; rfl),
      (kept Plant.contactors (fun _ _ => rfl) fun _ _ _ _ => rfl).trans (by rw [hv]; rfl),
      (kept Plant.driver (fun _ _ => rfl) fun _ _ _ _ => rfl).trans (by rw [hv]; rfl), fun y => ?_,
      State.receiveRequest_reply ready acted, fun y h => ?_, fun y affected lit high => ?_⟩
    · rw [← patterns]
      unfold Plant.active
      rw [stations]
    · rw [stations, apart y h]
    · obtain ⟨h1, h2, h3⟩ := lowering y affected lit high
      have carrier : (s.receiveRequest x (.consentReply tag 1)).carrier y = w.carrier y := by
        unfold Plant.carrier
        rw [stations]
      rw [carrier]
      refine ⟨h1, h2, fun h => h3.trans (if_pos h), fun h q pattern_ => ?_⟩
      rw [h3, if_neg h, pattern_]
      rfl
  · intro e ready_ first fit cold store live
    have quiet (y : Station) (affected : t.affected.get y = true) :
        (w.carrier y).quiet = true ∧ (w.carrier y).level = (s.carrier y).level := by
      have := Work.lowered_quiet (w := v) affected (by rw [carriers]; exact ready_ y affected)
      rwa [← hw, carriers] at this
    have held (y : Station) (affected : t.affected.get y = true) :
        (w.carrier y).state = .held ∧ (w.carrier y).muteConfirmed = true := by
      have := (quiet y affected).1
      unfold Carrier.quiet at this
      exact ⟨beq_iff_eq.1 (Bool.and_eq_true_iff.1 this).1, (Bool.and_eq_true_iff.1 this).2⟩
    have contactors : w.contactors = s.contactors := by rw [tuned.field Plant.contactors fun _ _ => rfl, hv]; rfl
    have image : w.activeImage = s.activeImage := by rw [tuned.field Plant.activeImage fun _ _ => rfl, hv]; rfl
    have elapsed : w.elapsed = s.elapsed := by rw [tuned.field Plant.elapsed fun _ _ => rfl, hv]; rfl
    have passes : w.checkPasses e.contactor = true := by
      refine Plant.checkPasses_of (by rw [contactors]; exact fit) fun y carried => ?_
      rw [image] at carried
      obtain ⟨off, inhibited⟩ := cold y carried
      refine ⟨?_, ?_⟩
      · cases affected : t.affected.get y with
        | true => unfold Carrier.rfInhibit; rw [(held y affected).1]; rfl
        | false =>
          have same := congrArg StationUnit.carrier (apart y affected)
          rw [show w.carrier y = s.carrier y from same]
          exact inhibited.resolve_right (by rw [affected]; exact Bool.false_ne_true)
      · rw [hw, Work.lowered_rfPresent, carriers]
        exact off
    have ends := Work.quiesceCheck_ends (w := w) quiescing rfl fun y affected => (quiet y affected).1
    rw [Work.enterSwitch_begun quiescing first passes] at ends
    have acted := answered ends (Option.some_ne_none _)
    have field {α : Type} (g : Plant → α)
        (hg : ∀ (p : Plant) list m e, g { p with scanList := list, measurement := m, lastEntry := e } = g p) :
        g (s.receiveRequest x (.consentReply tag 1)).toPlant = g _ := State.receiveRequest_field ready acted g hg
    obtain ⟨h1, h2, -, h4⟩ := Work.handLastState_congr true w s.work
      ((tuned.field Plant.writing fun _ _ => rfl).trans (by rw [hv]))
      ((tuned.field Plant.writeQueue fun _ _ => rfl).trans (by rw [hv]))
      ((tuned.field Plant.imageRecord fun _ _ => rfl).trans (by rw [hv]))
      ((tuned.field Plant.lastRecord fun _ _ => rfl).trans (by rw [hv])) elapsed patterns
    have stations (y : Station) : (s.receiveRequest x (.consentReply tag 1)).stations.get y =
        if t.affected.get y = true then (w.stations.get y).unmuted else w.stations.get y := by
      rw [field Plant.stations fun _ _ _ _ => rfl]
      exact w.unmuted_get _ y
    refine ⟨s.receiveRequest x (.consentReply tag 1), rfl, field Plant.transition fun _ _ _ _ => rfl, ?_, ?_,
      (field Plant.consentTimer fun _ _ _ _ => rfl).trans ?_, (field Plant.deferTimer fun _ _ _ _ => rfl).trans ?_,
      (field Plant.pendingList fun _ _ _ _ => rfl).trans ?_, fun y => ?_,
      (field Plant.writing fun _ _ _ _ => rfl).trans h1, (field Plant.writeQueue fun _ _ _ _ => rfl).trans h2,
      (field Plant.lastRecord fun _ _ _ _ => rfl).trans h4, State.receiveRequest_reply ready acted,
      fun y => ⟨fun affected => ?_, fun h => ?_⟩⟩
    · rw [field Plant.driver fun _ _ _ _ => rfl, contactors, image, elapsed]
    · rw [field Plant.contactors fun _ _ _ _ => rfl, contactors]
    · exact (tuned.field Plant.consentTimer fun _ _ => rfl).trans (by rw [hv])
    · exact (tuned.field Plant.deferTimer fun _ _ => rfl).trans (by rw [hv])
    · exact (tuned.field Plant.pendingList fun _ _ => rfl).trans (by rw [hv]; rfl)
    · rw [← patterns]
      unfold Plant.active
      rw [stations]
      split <;> rfl
    · unfold Plant.carrier
      rw [stations, if_pos affected]
      exact ⟨(held y affected).1, (quiet y affected).2, rfl, (held y affected).2⟩
    · rw [stations, if_neg (by rw [h]; exact Bool.false_ne_true), apart y h]

/-! ### The tick at which a HOLD ramp reaches 0 (R74, R77) -/

/-- RESTORE and CONFIRM go on while the requester is not at their ends (R45, R46). -/
theorem Work.restoreCheck_open {w : Work} (h : w.RestoreOpen) : w.restoreCheck = w := by
  unfold Work.restoreCheck
  split
  · rfl
  · next t ht =>
    obtain ⟨restore, confirm⟩ := h t ht
    split <;> simp_all [CarrierState.measured]

/-- The tick that completes a HOLD ramp (R74, R77). -/
theorem StationWork.rampTick_held {c : Ctx} {w : StationWork} {ramp : Ramp} (lowering : w.carrier.state = .lowering)
    (on : w.carrier.ramp = some ramp) (purpose : ramp.purpose = .hold) (target : ramp.target = 0)
    (last : w.carrier.level ≤ (pattern c.image c.station ramp.stepPattern).rampDown) :
    w.rampTick c = { w with
      carrier := { w.carrier with
        state := .held
        level := 0
        ramp := none
        verifyRequired := true
        rfNoticePosted := false
        muteConfirmed := w.carrier.rfPresent == some false
        muteTimer := some (c.now + Config.ms (100 * (settings c.image c.station).muteSteps)) }
      out := w.out ++ [.carrierState .held 0 w.activePattern none (w.carrier.rfPresent == some false)
        (w.carrier.rfPresent == some true)] } := by
  have stepped : w.carrier.steppedLevel c ramp = 0 := by
    unfold Carrier.steppedLevel
    rw [if_pos lowering, target]
    omega
  unfold StationWork.rampTick
  rw [on]
  simp only [stepped, target]
  rw [if_pos (.inl lowering), if_pos trivial, purpose,
    StationWork.completeRamp_hold (by rw [lowering]; decide)]
  have stays : stayChanges w.carrier.state .held = false := by rw [lowering]; rfl
  simp only [stays]
  unfold Carrier.toHeld Carrier.leave
  simp only [lowering]
  rfl

/-- A station's units act: what that leaves, by what their step leaves. -/
theorem Work.onStation_of {x : Station} {f : Ctx → StationWork → StationWork} {w : Work} {u : StationWork}
    (h : f (w.toPlant.ctx x) { toStationUnit := w.stations.get x, out := [] } = u) :
    w.onStation x f =
      { w with stations := w.stations.set x u.toStationUnit, posts := w.posts ++ u.out.map fun n => (x, n) } := by
  rw [← h]
  rfl

/-- QUIESCE goes on while it is open (R36). -/
theorem Work.quiesceCheck_open {w : Work} (h : w.QuiesceOpen) : w.quiesceCheck = w := by
  unfold Work.quiesceCheck
  split
  · rfl
  · next t ht => exact if_neg fun ⟨phase, quiet⟩ => by rw [h t ht phase] at quiet; cases quiet

/-- A tick of a station's ramp, when its ticks run: the units' step, and what it means to the Transition Engine. -/
theorem Work.tickRamp_due {x : Station} {due : Nat} {w v : Work} (running : (w.carrier x).rampTimer = some due)
    (ticked : ((w.reach due).onStation x fun c u =>
      StationWork.rampTick c { u with carrier := { u.carrier with rampTimer := some (due + Config.rampTick) } }) = v) :
    w.tickRamp x = v.quiesceCheck.restoreCheck.examinePending := by
  unfold Work.tickRamp
  rw [running]
  unfold Work.rampTick
  rw [← ticked]

/-- Settles O27: the station is HELD, and QUIESCE ends at the tick when every affected station is then quiet. -/
theorem holdRampCompletes : Obligations.HoldRampCompletes := by
  intro x due ramp s running settled waiting lowering on purpose target last confirmed now post
  obtain ⟨r, hr⟩ : ∃ r : Carrier, r = { s.carrier x with
      state := .held
      level := 0
      ramp := none
      rampTimer := some (due + Config.ms 100)
      verifyRequired := true
      rfNoticePosted := false
      muteConfirmed := confirmed
      muteTimer := some (now + Config.ms (100 * (settings s.activeImage x).muteSteps)) } := ⟨_, rfl⟩
  obtain ⟨v, hv⟩ : ∃ v : Work, v = { s.work with
      elapsed := now
      stations := s.stations.set x { s.stations.get x with carrier := r }
      posts := [post] } := ⟨_, rfl⟩
  have ticked : ((s.work.reach due).onStation x fun c u =>
      StationWork.rampTick c { u with carrier := { u.carrier with rampTimer := some (due + Config.rampTick) } }) = v := by
    have step := StationWork.rampTick_held (c := (s.work.reach due).toPlant.ctx x)
      (w := { s.stations.get x with carrier := { s.carrier x with rampTimer := some (due + Config.rampTick) }, out := [] })
      lowering on purpose target last
    rw [Work.onStation_of step, hv, hr]
    rfl
  have tick := Work.tickRamp_due (w := s.work) running ticked
  have carrier (y : Station) : v.carrier y = if y = x then r else s.carrier y := by
    rw [hv]
    unfold Plant.carrier
    by_cases hy : y = x
    · subst hy
      rw [if_pos rfl, Pair.get_set_self]
    · rw [if_neg hy, Pair.get_set_of_ne _ _ hy]
  have pattern_ (y : Station) : v.active y = s.active y := by
    rw [hv]
    unfold Plant.active
    by_cases hy : y = x
    · subst hy
      rw [Pair.get_set_self]
    · rw [Pair.get_set_of_ne _ _ hy]
  have held : r.quiet = confirmed := by rw [hr]; rfl
  have transition : v.transition = s.transition := by rw [hv]; rfl
  constructor
  · intro goes_on
    have quiesce : v.QuiesceOpen := by
      intro t ht phase
      rw [transition] at ht
      have noisy : ∃ y, t.affected.get y = true ∧ (v.carrier y).quiet = false := by
        rcases goes_on with unconfirmed | other
        · have before := (settled t ht).2.1 phase
          simp only [Plant.quiesced, List.all_eq_false] at before
          obtain ⟨y, member, loud⟩ := before
          refine ⟨y, StationSet.mem_members.1 member, ?_⟩
          rw [carrier]
          split
          · exact held.trans unconfirmed
          · exact Bool.eq_false_iff.2 loud
        · obtain ⟨y, ne, affected, loud⟩ := other t ht phase
          exact ⟨y, affected, by rw [carrier, if_neg ne]; exact loud⟩
      obtain ⟨y, affected, loud⟩ := noisy
      exact List.all_eq_false.2 ⟨y, StationSet.mem_members.2 affected, Bool.eq_false_iff.1 loud⟩
    have restore : v.RestoreOpen := by
      intro t ht
      rw [transition] at ht
      rw [carrier]
      split
      · rw [hr]
        exact ⟨fun _ => rfl, fun _ h => by cases h⟩
      · exact (settled t ht).2.2
    rw [Work.quiesceCheck_open quiesce, Work.restoreCheck_open restore, Work.examinePending_waiting v
      (Plant.Waiting.congr waiting (by rw [hv]; rfl) (by rw [hv]; rfl) (by rw [hv]; rfl))] at tick
    have event : s.event (Work.tickRamp x) = s.finish v := by
      rw [State.event_eq _ s (fun y => ?_), tick]
      rw [tick, hv]
      by_cases hy : y = x
      · subst hy
        rw [Pair.get_set_self]
      · rw [Pair.get_set_of_ne _ _ hy]
    refine ⟨s.finish v, congrArg Host.Outcome.next event, ?_, ?_⟩
    · have : (s.finish v).carrier x = v.carrier x := by
        unfold Plant.carrier
        rw [State.finish_toPlant]
      rw [this, carrier, if_pos rfl, hr]
      rfl
    · rw [hv, hr]
      rfl
  · intro t e muted active phase others first fit cold store live
    have on_ : v.transition = some t := transition.trans active
    have quiet (y : Station) (affected : t.affected.get y = true) : (v.carrier y).quiet = true := by
      rw [carrier]
      split
      · exact held.trans muted
      · next ne => exact others y ne affected
    have passes : v.checkPasses e.contactor = true := by
      refine Plant.checkPasses_of (by rw [hv]; exact fit) fun y carried => ?_
      obtain ⟨inhibited, off⟩ := cold y (by rw [hv] at carried; exact carried)
      rw [carrier]
      split
      · next hy =>
        rw [hr, ← hy]
        exact ⟨rfl, off⟩
      · next ne => exact ⟨inhibited ne, off⟩
    have ends := Work.quiesceCheck_ends on_ phase quiet
    obtain ⟨u, hu⟩ : ∃ u, u = v.enterSwitch t := ⟨_, rfl⟩
    have begun := Work.enterSwitch_begun on_ first passes
    rw [← hu] at ends begun
    have switching : u.transition = some { t with phase := .switch } := by rw [begun]
    have resting : u.RestoreOpen := by
      intro t' ht
      rw [switching] at ht
      cases ht
      exact ⟨fun h => (by cases h), fun h => (by cases h)⟩
    rw [ends, Work.restoreCheck_open resting, Work.examinePending_active u (by rw [switching]; simp)] at tick
    have left := State.event_left (s := s) tick
    obtain ⟨h1, h2, -, h4⟩ := Work.handLastState_congr true v ({ s with elapsed := now } : State).work (by rw [hv]; rfl)
      (by rw [hv]; rfl) (by rw [hv]; rfl) (by rw [hv]; rfl) (by rw [hv]; rfl) pattern_
    have stations (y : Station) : u.stations.get y =
        if t.affected.get y = true then (v.stations.get y).unmuted else v.stations.get y := by
      rw [begun]
      exact v.unmuted_get t y
    have carriers (y : Station) : (s.event (Work.tickRamp x)).carrier y =
        if t.affected.get y = true then { v.carrier y with muteTimer := none } else v.carrier y := by
      rw [left.carrier]
      unfold Plant.carrier
      rw [stations]
      split <;> rfl
    have pictured (α : Type) (g : Carrier → α) (hg : ∀ r timer, g { r with muteTimer := timer } = g r) (y : Station) :
        g ((s.event (Work.tickRamp x)).carrier y) = g (v.carrier y) := by
      rw [carriers]
      split
      · exact hg _ _
      · rfl
    refine ⟨_, rfl, left.transition.trans switching, left.driver.trans ?_, left.contactors.trans ?_,
      (left.field Plant.elapsed fun _ _ _ _ => rfl).trans ?_, left.ports.trans ?_,
      (left.field Plant.pendingList fun _ _ _ _ => rfl).trans ?_, (left.field Plant.writing fun _ _ _ _ => rfl).trans ?_,
      (left.field Plant.writeQueue fun _ _ _ _ => rfl).trans ?_, (left.field Plant.lastRecord fun _ _ _ _ => rfl).trans ?_,
      ?_, ?_, ?_, ?_, ?_, fun y => ⟨?_, fun affected => ?_, fun ne => ?_⟩⟩
    · rw [begun, hv]; rfl
    · rw [begun, hv]; rfl
    · rw [begun, hv]
    · rw [begun, hv]
    · rw [begun, hv]; rfl
    · rw [begun]; exact h1
    · rw [begun]; exact h2
    · rw [begun]; exact h4
    · rw [pictured _ Carrier.state (fun _ _ => rfl), carrier, if_pos rfl, hr]
    · rw [pictured _ Carrier.level (fun _ _ => rfl), carrier, if_pos rfl, hr]
    · rw [pictured _ Carrier.ramp (fun _ _ => rfl), carrier, if_pos rfl, hr]
    · rw [pictured _ Carrier.verifyRequired (fun _ _ => rfl), carrier, if_pos rfl, hr]
    · rw [pictured _ Carrier.rampTimer (fun _ _ => rfl), carrier, if_pos rfl, hr]
    · rw [← pattern_, left.active]
      unfold Plant.active
      rw [stations]
      split <;> rfl
    · have := quiet y affected
      unfold Carrier.quiet at this
      rw [carriers, if_pos affected]
      exact ⟨(Bool.and_eq_true_iff.1 this).2, rfl⟩
    · rw [pictured _ Carrier.state (fun _ _ => rfl), pictured _ Carrier.level (fun _ _ => rfl), carrier, if_neg ne]
      exact ⟨rfl, rfl⟩

end Machine
end Sys2Proof

/-! PROOFS. The scan list an event leaves (R95 to R98): what it holds, its order, the entry measured next, and the scan stay that
turns. -/
namespace Sys2Proof
namespace Machine

/-! ### The list called for (R95) -/

theorem ScanEntry.place_lt (e : ScanEntry) : e.place < 10 := by
  obtain ⟨x, i⟩ := e
  cases x <;> simp [ScanEntry.place] <;> omega

theorem mem_monitoredTowers {m : Memory} {x : Station} {q : PatternNo} {i : TowerNo} :
    i ∈ monitoredTowers m x q ↔ i.val + 2 ≤ (pattern m x q).towers := by
  simp [monitoredTowers]

theorem Plant.mem_scanEntries {p : Plant} {x : Station} {e : ScanEntry} :
    e ∈ p.scanEntries x ↔ e.station = x ∧ (p.carrier x).state.measured = true ∧
      ∃ q, p.active x = some q ∧ e.tower.val + 2 ≤ (pattern p.activeImage x q).towers := by
  unfold Plant.scanEntries
  obtain ⟨y, i⟩ := e
  split
  · next measured =>
    split
    · next q active =>
      simp only [List.mem_map, mem_monitoredTowers, ScanEntry.mk.injEq, active, measured, Option.some.injEq, true_and,
        exists_eq_left']
      constructor
      · rintro ⟨j, h, rfl, rfl⟩
        exact ⟨rfl, h⟩
      · rintro ⟨rfl, h⟩
        exact ⟨i, h, rfl, rfl⟩
    · next active => simp [active]
  · next unmeasured => simp [unmeasured]

/-- The list holds towers 2 to n of the active pattern of each measured station. -/
theorem Plant.mem_calledList {p : Plant} {e : ScanEntry} :
    e ∈ p.calledList ↔ (p.carrier e.station).state.measured = true ∧
      ∃ q, p.active e.station = some q ∧ e.tower.val + 2 ≤ (pattern p.activeImage e.station q).towers := by
  unfold Plant.calledList
  rw [List.mem_append, Plant.mem_scanEntries, Plant.mem_scanEntries]
  obtain ⟨x, i⟩ := e
  cases x <;> simp

theorem Plant.scanEntries_sorted (p : Plant) (x : Station) : (p.scanEntries x).Pairwise fun d e => d.place < e.place := by
  unfold Plant.scanEntries
  split
  · split
    · unfold monitoredTowers
      refine List.Pairwise.map _ (fun i j (h : i < j) => ?_) ((List.pairwise_lt_finRange 5).filter _)
      have order : i.val < j.val := h
      cases x <;> simp only [ScanEntry.place] <;> omega
    · exact .nil
  · exact .nil

/-- The list stands in the order of the scan cycle. -/
theorem Plant.calledList_sorted (p : Plant) : p.calledList.Pairwise fun d e => d.place < e.place := by
  refine List.pairwise_append.2 ⟨p.scanEntries_sorted .A, p.scanEntries_sorted .B, fun d hd e he => ?_⟩
  have hA := (Plant.mem_scanEntries.1 hd).1
  have hB := (Plant.mem_scanEntries.1 he).1
  obtain ⟨x, i⟩ := d
  obtain ⟨y, j⟩ := e
  subst hA hB
  simp only [ScanEntry.place]
  omega

/-! ### The entry measured next (R97) -/

/-- How far an entry stands behind another in the scan cycle, going round it, itself last. -/
def ScanEntry.behind (e d : ScanEntry) : Nat := (d.place + 9 - e.place) % 10

theorem ScanEntry.behind_of_lt {e d : ScanEntry} (h : e.place < d.place) : e.behind d = d.place - e.place - 1 := by
  have := d.place_lt
  unfold ScanEntry.behind
  omega

theorem ScanEntry.behind_of_le {e d : ScanEntry} (h : d.place ≤ e.place) : e.behind d = d.place + 9 - e.place := by
  have := e.place_lt
  unfold ScanEntry.behind
  omega

section
variable {list : List ScanEntry} (sorted : list.Pairwise fun d e => d.place < e.place)
include sorted

/-- The head of a list in scan order comes first in the cycle. -/
theorem head_place_le {n : ScanEntry} (h : list.head? = some n) : n ∈ list ∧ ∀ d ∈ list, n.place ≤ d.place := by
  cases list with
  | nil => cases h
  | cons e list =>
    cases h
    refine ⟨List.mem_cons_self, fun d hd => ?_⟩
    rcases List.mem_cons.1 hd with rfl | hd
    · exact le_rfl
    · exact Nat.le_of_lt ((List.pairwise_cons.1 sorted).1 d hd)

/-- The first entry of a list in scan order that stands behind a place is the next one behind it. -/
theorem find_place_le {n : ScanEntry} {k : Nat} (h : (list.find? fun d => decide (k < d.place)) = some n) :
    n ∈ list ∧ k < n.place ∧ ∀ d ∈ list, k < d.place → n.place ≤ d.place := by
  refine ⟨List.mem_of_find?_eq_some h, by simpa using List.find?_some h, fun d hd behind => ?_⟩
  obtain ⟨-, as, bs, rfl, before⟩ := List.find?_eq_some_iff_append.1 h
  obtain ⟨-, tail, -⟩ := List.pairwise_append.1 sorted
  rcases List.mem_append.1 hd with hd | hd
  · have := before d hd
    simp at this
    omega
  · rcases List.mem_cons.1 hd with rfl | hd
    · exact le_rfl
    · exact Nat.le_of_lt ((List.pairwise_cons.1 tail).1 d hd)

theorem nextEntry_none_place {n : ScanEntry} (h : nextEntry none list = some n) : n ∈ list ∧ ∀ d ∈ list, n.place ≤ d.place :=
  head_place_le sorted h

/-- The entry measured next stands nearest behind the last one. -/
theorem nextEntry_some_behind {n e : ScanEntry} (h : nextEntry (some e) list = some n) :
    n ∈ list ∧ ∀ d ∈ list, e.behind n ≤ e.behind d := by
  unfold nextEntry at h
  dsimp only at h
  cases found : list.find? fun d => decide (e.place < d.place) with
  | some m =>
    rw [found] at h
    cases h
    obtain ⟨member, later, first⟩ := find_place_le sorted found
    refine ⟨member, fun d hd => ?_⟩
    have := d.place_lt
    have := n.place_lt
    have := e.place_lt
    rw [ScanEntry.behind_of_lt later]
    by_cases behind : e.place < d.place
    · rw [ScanEntry.behind_of_lt behind]
      have := first d hd behind
      omega
    · rw [ScanEntry.behind_of_le (Nat.le_of_not_lt behind)]
      omega
  | none =>
    rw [found] at h
    obtain ⟨member, first⟩ := head_place_le sorted h
    have none_later (d : ScanEntry) (hd : d ∈ list) : d.place ≤ e.place := by
      have := List.find?_eq_none.1 found d hd
      simpa using this
    refine ⟨member, fun d hd => ?_⟩
    have := first d hd
    rw [ScanEntry.behind_of_le (none_later n member), ScanEntry.behind_of_le (none_later d hd)]
    omega

end

theorem nextEntry_eq_none {last : Option ScanEntry} {list : List ScanEntry} : nextEntry last list = none ↔ list = [] := by
  unfold nextEntry
  cases last with
  | none => exact List.head?_eq_none_iff
  | some e => cases list <;> simp [Option.or_eq_none_iff]

/-! ### The scan restarts (R96) -/

theorem CarrierState.measured_iff {c : CarrierState} :
    c.measured = true ↔ c = .normal ∨ c = .verifying ∨ c = .reduced := by
  cases c <;> simp [CarrierState.measured]

theorem Work.recomputeScan_field {α : Type} (g : Plant → α)
    (hg : ∀ (p : Plant) list m e, g { p with scanList := list, measurement := m, lastEntry := e } = g p) (w : Work) :
    g w.recomputeScan.toPlant = g w.toPlant := by
  unfold Work.recomputeScan
  dsimp only
  split
  · exact hg w.toPlant _ w.measurement w.lastEntry
  · exact hg w.toPlant _ _ _

/-- What a recomputation of the scan list leaves, with no measurement in progress. -/
theorem Work.recomputeScan_restarts {w : Work} {u : State} (idle : w.measurement = none)
    (hu : u.toPlant = w.recomputeScan.toPlant) : u.ScanRestarts w.lastEntry := by
  have field {α : Type} (g : Plant → α)
      (hg : ∀ (p : Plant) list m e, g { p with scanList := list, measurement := m, lastEntry := e } = g p) :
      g u.toPlant = g w.toPlant := by rw [hu, Work.recomputeScan_field g hg]
  have stations := field Plant.stations fun _ _ _ _ => rfl
  have image := field Plant.activeImage fun _ _ _ _ => rfl
  have elapsed := field Plant.elapsed fun _ _ _ _ => rfl
  have carrier (y : Station) : u.carrier y = w.carrier y := by unfold Plant.carrier; rw [stations]
  have active (y : Station) : u.active y = w.active y := by unfold Plant.active; rw [stations]
  have list : u.scanList = w.calledList := by
    rw [hu]
    unfold Work.recomputeScan
    dsimp only
    split <;> rfl
  have started (n : ScanEntry) (h : nextEntry w.lastEntry w.calledList = some n) :
      u.toPlant = (Work.startMeasurement n { w with scanList := w.calledList }).toPlant := by
    rw [hu]
    unfold Work.recomputeScan
    simp only [h]
  have place : (fun e : ScanEntry => (match e.station with | .A => 0 | .B => 5) + e.tower.val) = ScanEntry.place := by
    funext e
    obtain ⟨x, i⟩ := e
    cases x <;> simp [ScanEntry.place]
  unfold State.ScanRestarts
  extract_lets place' behind'
  have same : place' = ScanEntry.place := place
  have back : behind' = ScanEntry.behind := by
    funext e d
    simp only [behind', same]
    rfl
  rw [same, back, list]
  refine ⟨fun e => ?_, w.calledList_sorted, fun empty => ?_, fun filled => ?_⟩
  · rw [Plant.mem_calledList, carrier, active, image, CarrierState.measured_iff]
  · have none_ : nextEntry w.lastEntry w.calledList = none := nextEntry_eq_none.2 empty
    have resting : w.recomputeScan = { w with scanList := w.calledList } := by
      unfold Work.recomputeScan
      simp only [none_]
    rw [hu, resting]
    exact ⟨idle, rfl⟩
  · obtain ⟨n, hn⟩ := Option.ne_none_iff_exists'.1 fun h => filled (nextEntry_eq_none.1 h)
    have restarted := started n hn
    have member : n ∈ w.calledList := by
      cases last : w.lastEntry with
      | none => rw [last] at hn; exact (nextEntry_none_place w.calledList_sorted hn).1
      | some e => rw [last] at hn; exact (nextEntry_some_behind w.calledList_sorted hn).1
    refine ⟨_, congrArg Plant.measurement restarted, member, congrArg Plant.lastEntry restarted, fun d hd => ?_, ?_, ?_, ?_, ?_, ?_⟩
    · cases last : w.lastEntry with
      | none => rw [last] at hn; exact (nextEntry_none_place w.calledList_sorted hn).2 d hd
      | some e => rw [last] at hn; exact (nextEntry_some_behind w.calledList_sorted hn).2 d hd
    · rw [stations]
    · rw [elapsed]; rfl
    · rw [image]; rfl
    · rw [image]; rfl
    · rw [image]; rfl

/-- A recomputation is due at the end of an event at which an idle acquisition unit's station turned its stay (R96). -/
theorem Work.settleScan_turned {w : Work} {before : Plant} {x : Station} (idle : w.measurement = none)
    (turned : (w.stations.get x).scanStay ≠ (before.stations.get x).scanStay) : w.settleScan before = w.recomputeScan := by
  unfold Work.settleScan
  rw [idle]
  refine if_pos ?_
  cases x with
  | A =>
    have : before.stations.a.scanStay ≠ w.stations.a.scanStay := turned.symm
    simp [this]
  | B =>
    have : before.stations.b.scanStay ≠ w.stations.b.scanStay := turned.symm
    simp [this]

/-- A measurement in progress goes on over the end of an event (R96). -/
theorem Work.settleScan_measuring {w : Work} {before : Plant} (busy : w.measurement ≠ none) : w.settleScan before = w := by
  unfold Work.settleScan
  cases h : w.measurement with
  | none => exact absurd h busy
  | some m => rfl

/-- A scan stay turned at an event whose work leaves the scan as it was. -/
theorem State.stayTurns_of {x : Station} {s u : State} {w : Work} (hu : u.toPlant = (w.settleScan s.toPlant).toPlant)
    (turned : (w.stations.get x).scanStay ≠ (s.stations.get x).scanStay) (measurement : w.measurement = s.measurement)
    (list : w.scanList = s.scanList) (last : w.lastEntry = s.lastEntry) : s.StayTurns x u := by
  refine ⟨?_, fun idle => ?_, fun busy => ?_⟩
  · rw [hu, Work.settleScan_field Plant.stations fun _ _ _ _ => rfl]
    exact turned
  · rw [← measurement] at idle
    rw [← last]
    exact Work.recomputeScan_restarts idle (by rw [hu, Work.settleScan_turned idle turned])
  · rw [← measurement] at busy
    rw [hu, Work.settleScan_measuring busy]
    exact ⟨measurement, list, last⟩

end Machine
end Sys2Proof

/-! PROOFS. Entries to the measured states (R77, R121, R127), and the events that bring them: a ramp complete, the verify timer, and
a level change. -/
namespace Sys2Proof
namespace Machine

/-! ### What the reports of an entry leave -/

/-- The ARRAY_STATUS test changes the notified status and no other record. -/
theorem StationWork.notifyStatus_eq (w : StationWork) : ∃ notified out,
    w.notifyStatus = { w with carrier := { w.carrier with notifiedStatus := notified }, out := w.out ++ out } := by
  unfold StationWork.notifyStatus
  split
  · exact ⟨_, _, rfl⟩
  · exact ⟨w.carrier.notifiedStatus, [], by simp⟩

/-- A quiet report changes the statuses and no other record. -/
theorem StationWork.quietReport_eq (c : Ctx) (w : StationWork) : ∃ status last,
    w.quietReport c = { w with arrayStatus := status, carrier := { w.carrier with lastStatus := last } } := by
  unfold StationWork.quietReport
  dsimp only
  split
  · exact ⟨w.arrayStatus, w.carrier.lastStatus, rfl⟩
  · exact ⟨_, _, rfl⟩

/-! ### The entries (R77, R121, R127) -/

section
variable {c : Ctx} {w : StationWork}

/-- The notices of an entry come behind what was posted, its CARRIER_STATE first. -/
def StationWork.told (new : CarrierState) (w : StationWork) : List Notice :=
  if w.carrier.state = new then []
  else [.carrierState new w.carrier.level w.activePattern none w.carrier.leave.muteConfirmed (w.carrier.rfPresent == some true)]

/-- The station as an entry to a measured state finds it when it settles in. -/
theorem StationWork.enterState_told {new : CarrierState} (measured : new.measured = true) :
    w.enterState new c = StationWork.settleIn c { w with
      carrier := w.carrier.leave.enter c new
      scanStay := if stayChanges w.carrier.state new then w.scanStay + 1 else w.scanStay
      out := w.out ++ w.told new } := by
  have state : (w.carrier.leave.enter c new).state = new := by cases new <;> rfl
  have level : (w.carrier.leave.enter c new).level = w.carrier.level := by rw [Carrier.enter_level, Carrier.leave_level]
  have rf : (w.carrier.leave.enter c new).rfPresent = w.carrier.rfPresent := by
    rw [← w.carrier.leave_rfPresent]
    cases new <;> rfl
  have mute : (w.carrier.leave.enter c new).muteConfirmed = w.carrier.leave.muteConfirmed := by
    rcases CarrierState.measured_iff.1 measured with rfl | rfl | rfl <;> rfl
  have grounded : ¬(new = .lowering ∨ new = .raising) := by
    rcases CarrierState.measured_iff.1 measured with rfl | rfl | rfl <;> simp
  unfold StationWork.enterState
  refine congrArg (StationWork.settleIn c) ?_
  unfold StationWork.told
  split
  · simp
  · unfold StationWork.post StationWork.carrierNotice
    simp only [state, level, rf, mute, if_neg grounded]

theorem StationWork.enterState_reduced : ∃ notified out, w.enterState .reduced c = { w with
    carrier := { w.carrier.leave with state := .reduced, verifyRequired := true, notifiedStatus := notified }
    scanStay := if stayChanges w.carrier.state .reduced then w.scanStay + 1 else w.scanStay
    out := w.out ++ (w.told .reduced ++ out) } := by
  rw [StationWork.enterState_told rfl]
  obtain ⟨notified, out, eq⟩ := StationWork.notifyStatus_eq { w with
    carrier := w.carrier.leave.enter c .reduced
    scanStay := if stayChanges w.carrier.state .reduced then w.scanStay + 1 else w.scanStay
    out := w.out ++ w.told .reduced }
  refine ⟨notified, out, eq.trans ?_⟩
  rw [List.append_assoc]
  rfl

theorem StationWork.enterState_normal : ∃ notified out, w.enterState .normal c = { w with
    carrier := { w.carrier.leave with
      state := .normal
      verifyRequired := false
      holdTimer := if w.carrier.lastStatus = .out then some (c.now + Config.seconds (settings c.image c.station).holdSeconds)
        else w.carrier.leave.holdTimer
      notifiedStatus := notified }
    scanStay := if stayChanges w.carrier.state .normal then w.scanStay + 1 else w.scanStay
    out := w.out ++ (w.told .normal ++ out) } := by
  rw [StationWork.enterState_told rfl]
  have last : (w.carrier.leave.enter c .normal).lastStatus = w.carrier.lastStatus := w.carrier.leave_lastStatus
  obtain ⟨notified, out, eq⟩ := StationWork.notifyStatus_eq { w with
    carrier := { w.carrier.leave.enter c .normal with
      holdTimer := if w.carrier.lastStatus = .out then some (c.now + Config.seconds (settings c.image c.station).holdSeconds)
        else w.carrier.leave.holdTimer }
    scanStay := if stayChanges w.carrier.state .normal then w.scanStay + 1 else w.scanStay
    out := w.out ++ w.told .normal }
  refine ⟨notified, out, Eq.trans ?_ (eq.trans (by rw [List.append_assoc]; rfl))⟩
  unfold StationWork.settleIn
  refine congrArg StationWork.notifyStatus ?_
  by_cases h : w.carrier.lastStatus = .out
  · rw [if_pos (last.trans h), if_pos h]
  · rw [if_neg (fun h' => h (last.symm.trans h')), if_neg h]
    rfl

theorem StationWork.enterState_verifying {q : PatternNo} (active : w.activePattern = some q) :
    ∃ status last notified out, w.enterState .verifying c = { w with
      carrier := { w.carrier.leave with
        state := .verifying
        passCount := 0
        verifyEntered := c.now
        verifyTimer := some (c.now + Config.seconds (pattern c.image c.station q).verifyTimeout)
        lastStatus := last
        notifiedStatus := notified }
      channels := Vector.replicate 5 Channel.emptied
      arrayStatus := status
      scanStay := w.scanStay + 1
      out := w.out ++ (w.told .verifying ++ out) } := by
  have turned : stayChanges w.carrier.state .verifying = true := by simp [stayChanges]
  rw [StationWork.enterState_told rfl, if_pos turned]
  obtain ⟨v, hv⟩ : ∃ v : StationWork, v = { w with
      carrier := { w.carrier.leave with
        state := .verifying
        passCount := 0
        verifyEntered := c.now
        verifyTimer := some (c.now + Config.seconds (pattern c.image c.station q).verifyTimeout) }
      channels := Vector.replicate 5 Channel.emptied
      scanStay := w.scanStay + 1
      out := w.out ++ w.told .verifying } := ⟨_, rfl⟩
  obtain ⟨status, last, quiet⟩ := v.quietReport_eq c
  obtain ⟨notified, out, noticed⟩ := (v.quietReport c).notifyStatus_eq
  refine ⟨status, last, notified, out, Eq.trans ?_ (noticed.trans ?_)⟩
  · unfold StationWork.settleIn StationWork.emptyWindows
    rw [hv]
    simp only [active]
    rfl
  · rw [quiet, hv, ← List.append_assoc]

end

/-! ### A ramp complete (R74, R77) -/

/-- A station that was not measured has entered a measured state. -/
structure StationWork.Entered (new : CarrierState) (c : Ctx) (w u : StationWork) : Prop where
  state : u.carrier.state = new
  level : u.carrier.level = w.carrier.level
  ramp : u.carrier.ramp = w.carrier.ramp
  activePattern : u.activePattern = w.activePattern
  scanStay : u.scanStay = w.scanStay + 1
  reduced : new = .reduced → u.carrier.verifyRequired = true
  normal : new = .normal → u.carrier.verifyRequired = false ∧ (w.carrier.lastStatus = .out →
    u.carrier.holdTimer = some (c.now + Config.seconds (settings c.image c.station).holdSeconds))
  verifying : new = .verifying → u.carrier.passCount = 0 ∧ u.channels = Vector.replicate 5 Channel.emptied ∧
    ∀ q, w.activePattern = some q →
      u.carrier.verifyTimer = some (c.now + Config.seconds (pattern c.image c.station q).verifyTimeout)

theorem StationWork.enterState_entered {new : CarrierState} {c : Ctx} {w : StationWork} {q : PatternNo}
    (measured : new.measured = true) (fresh : w.carrier.state.measured = false) (active : w.activePattern = some q) :
    w.Entered new c (w.enterState new c) := by
  have turned (n : CarrierState) (hn : n.measured = true) : stayChanges w.carrier.state n = true := by
    simp [stayChanges, fresh, hn]
  rcases CarrierState.measured_iff.1 measured with rfl | rfl | rfl
  · obtain ⟨notified, out, eq⟩ := StationWork.enterState_normal (c := c) (w := w)
    rw [eq, if_pos (turned .normal rfl)]
    exact ⟨rfl, Carrier.leave_level _, Carrier.leave_ramp_eq _, rfl, rfl, fun h => (by cases h), fun _ => ⟨rfl, fun h => if_pos h⟩,
      fun h => (by cases h)⟩
  · obtain ⟨status, last, notified, out, eq⟩ := StationWork.enterState_verifying (c := c) active
    rw [eq]
    refine ⟨rfl, Carrier.leave_level _, Carrier.leave_ramp_eq _, rfl, rfl, fun h => (by cases h), fun h => (by cases h),
      fun _ => ⟨rfl, rfl, fun p hp => ?_⟩⟩
    rw [active] at hp
    cases hp
    rfl
  · obtain ⟨notified, out, eq⟩ := StationWork.enterState_reduced (c := c) (w := w)
    rw [eq, if_pos (turned .reduced rfl)]
    exact ⟨rfl, Carrier.leave_level _, Carrier.leave_ramp_eq _, rfl, rfl, fun _ => rfl, fun h => (by cases h),
      fun h => (by cases h)⟩

/-- A tick that brings a level to its ramp's target (R74, R77). -/
theorem StationWork.rampTick_completes {c : Ctx} {w : StationWork} {ramp : Ramp} (on : w.carrier.ramp = some ramp)
    (last : (w.carrier.state = .lowering ∧
        w.carrier.level ≤ ramp.target + (pattern c.image c.station ramp.stepPattern).rampDown) ∨
      (w.carrier.state = .raising ∧ ramp.target ≤ w.carrier.level + (pattern c.image c.station ramp.stepPattern).rampUp)) :
    w.rampTick c = ({ w with carrier := { w.carrier with level := ramp.target, ramp := none } } : StationWork).enterState
      (w.carrier.completionState ramp.purpose) c := by
  have stepped : w.carrier.steppedLevel c ramp = ramp.target := by
    unfold Carrier.steppedLevel
    rcases last with ⟨state, near⟩ | ⟨state, near⟩ <;> simp only [state] <;> simp <;> omega
  unfold StationWork.rampTick
  rw [on]
  simp only [stepped]
  rw [if_pos (last.imp And.left And.left), if_pos trivial]
  rfl

/-- The fields that the RESTORE and CONFIRM tests do not write (R45, R46). -/
theorem Work.restoreCheck_field {α : Type} (g : Plant → α)
    (hg : ∀ (p : Plant) transition consent defer writing queue image last holds,
      g { p with transition := transition, consentTimer := consent, deferTimer := defer, writing := writing, writeQueue := queue,
                 imageRecord := image, lastRecord := last, retryHold := holds } = g p) (w : Work) :
    g w.restoreCheck.toPlant = g w.toPlant := by
  have ended (result : Result) : g (w.endTransition result).toPlant = g w.toPlant := by
    cases ht : w.transition with
    | none => unfold Work.endTransition; rw [ht]
    | some t =>
      rw [Work.endTransition_eq result w t ht]
      exact hg w.toPlant _ _ _ _ _ _ _ _
  unfold Work.restoreCheck
  split
  · rfl
  · split
    · exact hg w.toPlant _ w.consentTimer w.deferTimer w.writing w.writeQueue w.imageRecord w.lastRecord w.retryHold
    · exact ended _
    · exact ended _
    · exact ended _
    · rfl

/-- A requester that has reached an end of RESTORE (R45). -/
theorem Work.restoreCheck_reached {t : Transition} {w : Work} (ht : w.transition = some t) (phase : t.phase = .restore)
    (measured : (w.carrier t.station).state.measured = true) :
    w.restoreCheck.transition =
      if (w.carrier t.station).state = .verifying then some { t with phase := .confirm } else none := by
  unfold Work.restoreCheck
  simp only [ht, phase]
  rcases CarrierState.measured_iff.1 measured with h | h | h <;> rw [h]
  · exact (Work.endTransition_idle _ _).1
  · unfold Work.onTransition
    simp only [ht, Option.map_some]
    rfl
  · exact (Work.endTransition_idle _ _).1

theorem Carrier.completionState_measured {purpose : RampPurpose} {r : Carrier} (h : purpose ≠ .hold) :
    (r.completionState purpose).measured = true := by
  unfold Carrier.completionState
  cases purpose with
  | hold => exact absurd rfl h
  | full => cases r.verifyRequired <;> rfl
  | reduce => rfl
  | fault => rfl
  | level => rfl

/-- Settles O28: the state the purpose names is entered, and a requester in RESTORE has reached its end. -/
theorem rampCompletes : Obligations.RampCompletes := by
  intro x due ramp q s running settled empty active on purpose record now entered
  have named : entered = (s.carrier x).completionState ramp.purpose := by
    simp only [entered]
    unfold Carrier.completionState
    cases ramp.purpose <;> rfl
  have measured : entered.measured = true := named ▸ Carrier.completionState_measured purpose
  obtain ⟨c, hc⟩ : ∃ c, c = (s.work.reach due).toPlant.ctx x := ⟨_, rfl⟩
  obtain ⟨w, hw⟩ : ∃ w : StationWork, w =
      { s.stations.get x with carrier := { s.carrier x with rampTimer := some (due + Config.rampTick) }, out := [] } := ⟨_, rfl⟩
  obtain ⟨r, hr⟩ : ∃ r : StationWork, r = { w with carrier := { w.carrier with level := ramp.target, ramp := none } } := ⟨_, rfl⟩
  have step : w.rampTick c = r.enterState entered c := by
    rw [StationWork.rampTick_completes (ramp := ramp) (by rw [hw]; exact on) (by rw [hw, hc]; exact record), hr, named, hw]
    rfl
  have moving : (s.carrier x).state = .lowering ∨ (s.carrier x).state = .raising := record.imp And.left And.left
  have into : r.Entered entered c (r.enterState entered c) :=
    StationWork.enterState_entered (q := q) measured
      (by rw [hr, hw]; rcases moving with h | h <;> exact congrArg CarrierState.measured h) (by rw [hr, hw]; exact active)
  obtain ⟨u, hu⟩ : ∃ u, u = r.enterState entered c := ⟨_, rfl⟩
  rw [← hu] at step into
  obtain ⟨v, hv⟩ : ∃ v : Work, v = { s.work.reach due with
      stations := s.stations.set x u.toStationUnit, posts := u.out.map fun n => (x, n) } := ⟨_, rfl⟩
  have tick := Work.tickRamp_due (w := s.work) (v := v) running (by
    rw [Work.onStation_of (u := u) (by rw [← step, hw, hc]; rfl), hv]
    rfl)
  have unit (y : Station) : v.stations.get y = if y = x then u.toStationUnit else s.stations.get y := by
    rw [hv]
    by_cases hy : y = x
    · subst hy
      rw [if_pos rfl, Pair.get_set_self]
    · rw [if_neg hy, Pair.get_set_of_ne _ _ hy]
  have carrier (y : Station) : v.carrier y = if y = x then u.carrier else s.carrier y := by
    unfold Plant.carrier
    rw [unit]
    split <;> rfl
  have transition : v.transition = s.transition := by rw [hv]; rfl
  have quiesce : v.QuiesceOpen := by
    intro t ht phase
    rw [transition] at ht
    have before := (settled t ht).2.1 phase
    simp only [Plant.quiesced, List.all_eq_false] at before ⊢
    obtain ⟨y, member, loud⟩ := before
    refine ⟨y, member, ?_⟩
    rw [carrier]
    split
    · unfold Carrier.quiet
      rw [into.state]
      rcases CarrierState.measured_iff.1 measured with h | h | h <;> rw [h] <;> simp
    · exact loud
  have pending : v.restoreCheck.pendingList = [] := by
    rw [Work.restoreCheck_field Plant.pendingList (fun _ _ _ _ _ _ _ _ _ => rfl) v, hv]
    exact empty
  rw [Work.quiesceCheck_open quiesce, Work.examinePending_of_empty pending] at tick
  have left := State.event_left (s := s) tick
  have field {α : Type} (g : Plant → α)
      (hs : ∀ (p : Plant) list m e, g { p with scanList := list, measurement := m, lastEntry := e } = g p)
      (hg : ∀ (p : Plant) transition consent defer writing queue image last holds,
        g { p with transition := transition, consentTimer := consent, deferTimer := defer, writing := writing, writeQueue := queue,
                   imageRecord := image, lastRecord := last, retryHold := holds } = g p) :
      g (s.event (Work.tickRamp x)).toPlant = g v.toPlant := (left.field g hs).trans (Work.restoreCheck_field g hg v)
  have stations := field Plant.stations (fun _ _ _ _ => rfl) fun _ _ _ _ _ _ _ _ _ => rfl
  have mine : (s.event (Work.tickRamp x)).stations.get x = u.toStationUnit := by rw [stations, unit, if_pos rfl]
  have mineCarrier : (s.event (Work.tickRamp x)).carrier x = u.carrier := congrArg StationUnit.carrier mine
  refine ⟨s.event (Work.tickRamp x), rfl, ?_, ?_, ?_, ?_, ?_, ?_, ?_, ?_, fun reduced => ?_, fun normal => ?_, fun verifying => ?_,
    fun t ht owner phase => ?_, fun t ht apart quiet => ?_⟩
  · rw [mineCarrier, into.state]
  · rw [mineCarrier, into.level, hr]
  · rw [mineCarrier, into.ramp, hr]
  · rw [mineCarrier]
    unfold Carrier.rfInhibit
    rw [into.state]
    rcases CarrierState.measured_iff.1 measured with h | h | h <;> rw [h] <;> rfl
  · refine (congrArg StationUnit.activePattern mine).trans (into.activePattern.trans ?_)
    rw [hr, hw]
    rfl
  · rw [stations, unit, if_neg (by cases x <;> decide)]
  · rw [field Plant.contactors (fun _ _ _ _ => rfl) fun _ _ _ _ _ _ _ _ _ => rfl, hv]
    rfl
  · refine State.stayTurns_of (w := v.restoreCheck) ?_ ?_ ?_ ?_ ?_
    · rw [State.event_toPlant, tick]
    · rw [Work.restoreCheck_field Plant.stations fun _ _ _ _ _ _ _ _ _ => rfl, unit, if_pos rfl, into.scanStay, hr, hw]
      exact Nat.succ_ne_self _
    · rw [Work.restoreCheck_field Plant.measurement fun _ _ _ _ _ _ _ _ _ => rfl, hv]; rfl
    · rw [Work.restoreCheck_field Plant.scanList fun _ _ _ _ _ _ _ _ _ => rfl, hv]; rfl
    · rw [Work.restoreCheck_field Plant.lastEntry fun _ _ _ _ _ _ _ _ _ => rfl, hv]; rfl
  · rw [mineCarrier]
    exact into.reduced reduced
  · rw [mineCarrier]
    refine ⟨(into.normal normal).1, fun out => ((into.normal normal).2 ?_).trans ?_⟩
    · rw [hr, hw]
      exact out
    · rw [hc]
      rfl
  · obtain ⟨passes, channels, timer⟩ := into.verifying verifying
    rw [mineCarrier, mine]
    refine ⟨passes, (timer q ?_).trans ?_, fun i => ?_⟩
    · rw [hr, hw]
      exact active
    · rw [hc]
      rfl
    · rw [channels]
      simp [Channel.emptied, Channel.reset]
  · have reached := Work.restoreCheck_reached (w := v) (transition.trans ht) phase
      (by rw [carrier, if_pos owner, into.state]; exact measured)
    rw [left.transition, reached, carrier, if_pos owner, into.state]
  · rw [left.transition]
    have rests : v.restoreCheck = v := by
      refine Work.restoreCheck_open fun t' ht' => ?_
      rw [transition, ht] at ht'
      cases ht'
      rw [carrier]
      split
      · next owner => exact ⟨fun h => absurd h (apart.resolve_left (not_not.2 owner)),
          fun h => absurd h (quiet.resolve_left (not_not.2 owner))⟩
      · exact (settled t ht).2.2
    rw [rests, transition]

end Machine
end Sys2Proof

/-! PROOFS. The lower to reduce (R81), and the verify timer that brings one (R124). -/
namespace Sys2Proof
namespace Machine

/-- A lower to reduce in VERIFYING or NORMAL, from a level at the fault power or above: the record is REDUCED at once, or on the
ramp, and the CARRIER_STATE notice stands first. -/
theorem StationWork.lowerToReduce_eq {c : Ctx} {w : StationWork} {q : PatternNo} (active : w.activePattern = some q)
    (lit : w.carrier.state = .verifying ∨ w.carrier.state = .normal)
    (high : (pattern c.image c.station q).fault ≤ w.carrier.level) :
    ∃ r more,
      let reduced := (pattern c.image c.station q).fault = w.carrier.level
      let state : CarrierState := if reduced then .reduced else .lowering
      let ramp := if reduced then none else some ⟨(pattern c.image c.station q).fault, .reduce, q⟩
      w.lowerToReduce c = { w with
        carrier := r
        scanStay := if reduced then w.scanStay else w.scanStay + 1
        out := w.out ++ .carrierState state w.carrier.level (some q) ramp w.carrier.muteConfirmed
          (w.carrier.rfPresent == some true) :: more } ∧
      r.state = state ∧ r.level = w.carrier.level ∧ r.ramp = ramp ∧ r.verifyTimer = w.carrier.leave.verifyTimer ∧
      r.passCount = w.carrier.leave.passCount ∧ r.holdTimer = w.carrier.leave.holdTimer ∧ more.length ≤ 1 := by
  have record : w.activeRecord c = (q, pattern c.image c.station q) := StationWork.activeRecord_of_active active
  have mute : w.carrier.leave.muteConfirmed = w.carrier.muteConfirmed := by
    unfold Carrier.leave
    rcases lit with h | h <;> rw [h]
  have commanded : w.lowerToReduce c = w.rampTo ⟨(pattern c.image c.station q).fault, .reduce, q⟩ c := by
    unfold StationWork.lowerToReduce
    rw [record]
  dsimp only
  by_cases reduced : (pattern c.image c.station q).fault = w.carrier.level
  · simp only [if_pos reduced]
    obtain ⟨notified, out, eq⟩ := StationWork.enterState_reduced (c := c) (w := { w with carrier := { w.carrier with ramp := none } })
    have completed : w.lowerToReduce c =
        ({ w with carrier := { w.carrier with ramp := none } } : StationWork).enterState .reduced c := by
      rw [commanded]
      unfold StationWork.rampTo
      rw [if_pos reduced]
      rfl
    obtain ⟨l, posted, few⟩ :=
      StationWork.enterState_posted .reduced c { w with carrier := { w.carrier with ramp := none } }
    have told : StationWork.told .reduced { w with carrier := { w.carrier with ramp := none } } =
        [.carrierState .reduced w.carrier.level (some q) none w.carrier.muteConfirmed (w.carrier.rfPresent == some true)] := by
      unfold StationWork.told
      rw [if_neg (by rcases lit with h | h <;> simp [h]), ← active, ← mute, Carrier.leave_ramp]
    have stays : stayChanges w.carrier.state .reduced = false := by rcases lit with h | h <;> rw [h] <;> rfl
    rw [told] at eq
    simp only [Carrier.leave_ramp, stays] at eq
    rw [eq] at posted
    have all := List.append_cancel_left posted
    rw [← all] at few
    simp only [List.length_append, List.length_singleton] at few
    exact ⟨_, out, completed.trans eq, rfl, Carrier.leave_level _, rfl, rfl, rfl, rfl, by omega⟩
  · simp only [if_neg reduced]
    have below : (pattern c.image c.station q).fault < w.carrier.level := Nat.lt_of_le_of_ne high reduced
    have down : (⟨(pattern c.image c.station q).fault, .reduce, q⟩ : Ramp).direction w.carrier.level = .lowering := if_pos below
    have turned : stayChanges w.carrier.state .lowering = true := by rcases lit with h | h <;> rw [h] <;> rfl
    have begun := StationWork.rampTo_begins (c := c) (w := w) (ramp := ⟨(pattern c.image c.station q).fault, .reduce, q⟩) reduced
    rw [down, if_pos turned, if_neg (by rcases lit with h | h <;> simp [h]), mute, Carrier.leave_rfPresent] at begun
    rw [← active]
    exact ⟨w.carrier.onRamp _, [], commanded.trans begun, down, Carrier.leave_level _, rfl, rfl, rfl, rfl, by simp⟩

/-- Notices posted to one station are all its own. -/
theorem filter_own (x : Station) (out : List Notice) :
    (((out.map fun n => (x, n)).filter fun p : Station × Notice => p.1 = x).map fun p : Station × Notice => p.2) = out := by
  rw [List.filter_eq_self.2 (by simp), List.map_map]
  exact List.map_id _

/-! ### The verify timer (R124) -/

/-- Settles O32: VERIFY_FAILED and the lower to reduce, which ends the transition of a requester in CONFIRM. -/
theorem verifyTimerExpires : Obligations.VerifyTimerExpires := by
  intro x due q s running
  refine ⟨fun other => congrArg Host.Outcome.next (State.event_idle (if_neg other)), ?_⟩
  intro verifying active alone record r high reduced ramp
  obtain ⟨c, hc⟩ : ∃ c, c = (s.work.reach due).toPlant.ctx x := ⟨_, rfl⟩
  obtain ⟨w, hw⟩ : ∃ w : StationWork, w = { s.stations.get x with
    carrier := { s.carrier x with verifyTimer := none, passCount := 0 }
    out := [.verifyFailed (some q) r.passCount record.verifyCount r.lastStatus] } := ⟨_, rfl⟩
  have unit_active : (s.stations.get x).activePattern = some q := active
  have failed : StationWork.verifyFailed c { toStationUnit := s.stations.get x, out := [] } = w.lowerToReduce c := by
    unfold StationWork.verifyFailed
    rw [StationWork.activeRecord_of_active (q := q) unit_active, hw, hc]
    unfold StationWork.post
    simp only [unit_active]
    rfl
  have leave : (w.carrier.leave).verifyTimer = none ∧ w.carrier.leave.passCount = 0 := by
    rw [hw]
    constructor <;> simp [Carrier.leave, verifying]
  obtain ⟨r', more, eq, h1, h2, h3, h4, h5, -, few⟩ := StationWork.lowerToReduce_eq (c := c) (w := w) (q := q)
    (by rw [hw]; exact active) (.inl (by rw [hw]; exact verifying)) (by rw [hw, hc]; exact high)
  obtain ⟨u, hu⟩ : ∃ u, u = w.lowerToReduce c := ⟨_, rfl⟩
  rw [← hu] at eq failed
  have level : w.carrier.level = r.level := by rw [hw]
  have mute : w.carrier.muteConfirmed = r.muteConfirmed := by rw [hw]
  have rf : w.carrier.rfPresent = r.rfPresent := by rw [hw]
  have same : pattern c.image c.station q = record := by rw [hc]; rfl
  rw [same, level] at h1 h3
  rw [same, level, mute, rf] at eq
  have carrier : u.carrier = r' := by rw [eq]
  obtain ⟨v, hv⟩ : ∃ v : Work, v = { s.work.reach due with
      stations := s.stations.set x u.toStationUnit, posts := u.out.map fun n => (x, n) } := ⟨_, rfl⟩
  have stepped : (s.work.reach due).onStation x StationWork.verifyFailed = v := by
    rw [Work.onStation_of (u := u) (by rw [← failed, hc]; rfl), hv]
    rfl
  have unit (y : Station) : v.stations.get y = if y = x then u.toStationUnit else s.stations.get y := by
    rw [hv]
    by_cases hy : y = x
    · subst hy
      rw [if_pos rfl, Pair.get_set_self]
    · rw [if_neg hy, Pair.get_set_of_ne _ _ hy]
  have pattern_ (y : Station) : v.active y = s.active y := by
    unfold Plant.active
    rw [unit]
    split
    · next hy => rw [eq, hw, hy]
    · rfl
  have transition : v.transition = s.transition := by rw [hv]; rfl
  have notices : v.noticesTo x = .verifyFailed (some q) r.passCount record.verifyCount r.lastStatus ::
      .carrierState (if reduced then .reduced else .lowering) r.level (some q) (if reduced then none else some ramp)
        r.muteConfirmed (r.rfPresent == some true) :: more := by
    have mine : v.noticesTo x = u.out := by
      rw [hv]
      exact filter_own x u.out
    rw [mine, eq, hw]
    rfl
  obtain ⟨z, hz⟩ : ∃ z, z = (s.work.reach due).verifyExpiry x := ⟨_, rfl⟩
  have expired : (if (s.work.carrier x).state = .verifying then s.work.whenDue (s.work.carrier x).verifyTimer (Work.verifyExpiry x)
      else s.work) = z := by
    rw [if_pos (show (s.work.carrier x).state = .verifying from verifying),
      show (s.work.carrier x).verifyTimer = some due from running, hz]
    rfl
  have goes_on (apart : ∀ t, s.transition = some t → ¬(t.station = x ∧ t.phase = .confirm)) : z = v := by
    rw [hz]
    unfold Work.verifyExpiry
    dsimp only
    rw [stepped, transition]
    split
    · rfl
    · next t ht => exact if_neg fun h => apart t ht ⟨h.2, h.1⟩
  have ends {t : Transition} (ht : s.transition = some t) (owner : t.station = x) (phase : t.phase = .confirm) :
      z = v.endTransition (t.result.getD .completedReduced) := by
    rw [hz]
    unfold Work.verifyExpiry
    dsimp only
    rw [stepped, transition, ht]
    dsimp only
    rw [if_pos ⟨phase, owner⟩]
    exact Work.examinePending_ended (transition.trans ht) (by rw [hv]; exact alone t ht owner phase)
  have frame : z.stations = v.stations ∧ z.contactors = v.contactors ∧ z.elapsed = v.elapsed ∧
      (∃ more, z.noticesTo x = v.noticesTo x ++ more ∧ more.length ≤ 1) := by
    by_cases confirm : ∃ t, s.transition = some t ∧ t.station = x ∧ t.phase = .confirm
    · obtain ⟨t, ht, owner, phase⟩ := confirm
      have told := Work.endTransition_noticesTo (result := t.result.getD .completedReduced) (transition.trans ht) x
      rw [← ends ht owner phase, if_pos (owner ▸ t.station_informed)] at told
      refine ⟨?_, ?_, ?_, _, told, le_rfl⟩ <;> rw [ends ht owner phase, Work.endTransition_eq _ _ t (transition.trans ht)]
    · rw [goes_on fun t ht h => confirm ⟨t, ht, h⟩]
      exact ⟨rfl, rfl, rfl, [], (List.append_nil _).symm, by simp⟩
  obtain ⟨stations, contactors, elapsed, rest, posted, brief⟩ := frame
  have left := State.event_left (f := fun w => if (w.carrier x).state = .verifying then
    w.whenDue (w.carrier x).verifyTimer (Work.verifyExpiry x) else w) (s := s) expired
  obtain ⟨y, hy⟩ : ∃ y, y = s.event fun w => if (w.carrier x).state = .verifying then
    w.whenDue (w.carrier x).verifyTimer (Work.verifyExpiry x) else w := ⟨_, rfl⟩
  rw [← hy] at left
  have mine : y.carrier x = r' := by
    rw [left.carrier]
    unfold Plant.carrier
    rw [stations, unit, if_pos rfl]
    exact carrier
  refine ⟨y, by rw [hy]; rfl, ?_, ?_, ?_, ?_, ?_, ?_, ?_, ?_, fun quiet => ?_, fun apart => ?_, fun t ht owner phase => ⟨?_, fun quiet => ?_⟩⟩
  · rw [mine, h1]
  · rw [mine, h2, level]
  · rw [mine, h3]
  · rw [mine, h4, leave.1]
  · rw [mine, h5, leave.2]
  · rw [left.active, ← pattern_]
    unfold Plant.active
    rw [stations]
  · rw [left.field Plant.elapsed fun _ _ _ _ => rfl, elapsed, hv]
    rfl
  · rw [left.contactors, contactors, hv]
    rfl
  · rw [left.notices (by rw [quiet, posted, notices]; simp only [List.length_append, List.length_cons, List.length_nil]; omega),
      quiet, posted, notices]
    rfl
  · rw [left.transition, goes_on apart, transition]
  · rw [left.transition, ends ht owner phase]
    exact (Work.endTransition_idle _ _).1
  · rw [ends ht owner phase] at left
    have final := State.ended_last (transition.trans ht) left
      (by rw [owner, quiet, notices]; simp only [List.length_cons, List.length_nil]; omega)
    have patterns (p : Station) : y.active p = s.active p := by
      rw [left.active, ← pattern_]
      unfold Plant.active
      rw [← ends ht owner phase, stations]
    rw [owner, patterns, patterns] at final
    exact final

end Machine
end Sys2Proof

/-! PROOFS. The level change (R28, R80): PLAN with a map that the positions satisfy, and what it leaves of the requester. -/
namespace Sys2Proof
namespace Machine

/-! ### PLAN of a level change (R27, R28) -/

/-- A map that the positions satisfy has no contactor to move. -/
theorem Plant.moveList_satisfied {p : Plant} {x : Station} {q : PatternNo}
    (h : satisfied p.activeImage p.contactors x q = true) : p.moveList x q = [] := by
  refine List.eq_nil_iff_forall_not_mem.2 fun e he => ?_
  obtain ⟨mapped, position, elsewhere, -⟩ := Plant.mem_moveList.1 he
  unfold satisfied at h
  have := List.all_eq_true.1 h e.contactor (List.mem_finRange _)
  rw [mapped] at this
  have stands : p.contactors[e.contactor].position = some e.toPos := by simpa using this
  exact elsewhere (position.trans stands)

/-- The record of a transition planned as a level change. -/
def Plant.levelling (p : Plant) (t : Transition) : Transition :=
  { t with moves := [], entries := p.stationEntries t.station ⟨false, false⟩ }

theorem Work.plan_levels {t : Transition} {w : Work}
    (way : ¬(w.active t.station = some t.target ∧ (w.carrier t.station).onItsWay = true))
    (fits : satisfied w.activeImage w.contactors t.station t.target = true)
    (clear : w.conflicts t.station t.target = false) :
    w.plan t = Work.beginLevelChange (w.levelling t) { w with transition := some (w.levelling t) } := by
  rw [Work.plan_forms way, Plant.moveList_satisfied fits]
  unfold Work.planMoves
  have free : Plant.conflicts { w.toPlant with transition := some { t with moves := [] } } t.station t.target = false := clear
  refine (if_neg (by simp [Plant.movesFailed])).trans ((if_neg ?_).trans (if_pos rfl))
  rw [free]
  exact Bool.false_ne_true

/-! ### What it leaves of the requester (R80, R116, R121) -/

/-- A station's record `u` has been brought to pattern `q` by a level change, leaving `r`. -/
structure StationUnit.Levelled (c : Ctx) (q : PatternNo) (previous : Option PatternNo) (u r : StationUnit) : Prop where
  activePattern : r.activePattern = some q
  level : r.carrier.level = u.carrier.level
  verifyRequired : r.carrier.verifyRequired = true
  state : r.carrier.state =
    if (pattern c.image c.station q).power = u.carrier.level then .verifying
    else if (pattern c.image c.station q).power < u.carrier.level then .lowering else .raising
  ramp : r.carrier.ramp =
    if (pattern c.image c.station q).power = u.carrier.level then none
    else some ⟨(pattern c.image c.station q).power, .level,
      if (pattern c.image c.station q).power < u.carrier.level then previous.getD q else q⟩
  unjudged : (pattern c.image c.station q).power ≠ u.carrier.level → r.channels = (u.patterned c (some q)).channels ∧
    r.arrayStatus = (u.patterned c (some q)).arrayStatus ∧ r.carrier.lastStatus = (u.patterned c (some q)).carrier.lastStatus
  scanStay : (pattern c.image c.station q).power = u.carrier.level ∨ u.carrier.state.measured = true →
    r.scanStay = u.scanStay + 1
  verifying : (pattern c.image c.station q).power = u.carrier.level → r.carrier.passCount = 0 ∧
    r.carrier.verifyTimer = some (c.now + Config.seconds (pattern c.image c.station q).verifyTimeout) ∧
    r.channels = Vector.replicate 5 Channel.emptied

theorem StationWork.levelChange_levelled (c : Ctx) (q : PatternNo) (previous : Option PatternNo) (u : StationUnit) :
    u.Levelled c q previous (StationWork.levelChange previous c { u.patterned c (some q) with out := [] }).toStationUnit := by
  obtain ⟨v, hv⟩ : ∃ v, v = u.patterned c (some q) := ⟨_, rfl⟩
  have active : v.activePattern = some q := hv ▸ StationUnit.patterned_activePattern c (some q) u
  have alike : u.carrier.Alike v.carrier := hv ▸ StationUnit.patterned_alike c (some q) u
  have stay : v.scanStay = u.scanStay := hv ▸ StationUnit.patterned_scanStay c (some q) u
  rw [← hv]
  obtain ⟨w, hw⟩ : ∃ w : StationWork, w = { v with carrier := { v.carrier with verifyRequired := true }, out := [] } := ⟨_, rfl⟩
  obtain ⟨ramp, hramp⟩ : ∃ ramp : Ramp, ramp = ⟨(pattern c.image c.station q).power, .level,
    if (pattern c.image c.station q).power < u.carrier.level then previous.getD q else q⟩ := ⟨_, rfl⟩
  have level : w.carrier.level = u.carrier.level := by rw [hw]; exact alike.level
  have state : w.carrier.state = u.carrier.state := by rw [hw]; exact alike.state
  have commanded : StationWork.levelChange previous c { v with out := [] } = w.rampTo ramp c := by
    unfold StationWork.levelChange
    rw [StationWork.activeRecord_of_active (q := q) active, hw, hramp]
    simp only [alike.level]
  rw [commanded]
  by_cases equal : (pattern c.image c.station q).power = u.carrier.level
  · have completed : w.rampTo ramp c =
        ({ w with carrier := { w.carrier with ramp := none } } : StationWork).enterState .verifying c := by
      unfold StationWork.rampTo
      rw [if_pos (by rw [hramp, level]; exact equal), hramp]
      rfl
    obtain ⟨status, last, notified, out, eq⟩ := StationWork.enterState_verifying (c := c) (q := q)
      (w := { w with carrier := { w.carrier with ramp := none } }) (by rw [hw]; exact active)
    rw [completed, eq]
    exact {
      activePattern := by rw [hw]; exact active
      level := (Carrier.leave_level _).trans level
      verifyRequired := (Carrier.leave_verifyRequired _).trans (by rw [hw])
      state := (if_pos equal).symm
      ramp := (Carrier.leave_ramp_eq _).trans (if_pos equal).symm
      unjudged := fun h => absurd equal h
      scanStay := fun _ => by rw [hw, ← stay]
      verifying := fun _ => ⟨rfl, rfl, rfl⟩ }
  · have begun := StationWork.rampTo_begins (c := c) (w := w) (ramp := ramp) (by rw [hramp, level]; exact equal)
    have direction : ramp.direction w.carrier.level =
        if (pattern c.image c.station q).power < u.carrier.level then .lowering else .raising := by rw [hramp, level]; rfl
    rw [begun]
    exact {
      activePattern := by rw [hw]; exact active
      level := (Carrier.leave_level _).trans level
      verifyRequired := (Carrier.leave_verifyRequired _).trans (by rw [hw])
      state := by rw [if_neg equal]; exact direction
      ramp := by rw [if_neg equal, ← hramp]; rfl
      unjudged := fun _ => by rw [← hv, hw]; exact ⟨rfl, rfl, Carrier.leave_lastStatus _⟩
      scanStay := fun h => by
        have turns : stayChanges w.carrier.state (ramp.direction w.carrier.level) = true := by
          have grounded : (ramp.direction w.carrier.level).measured = false := by rw [direction]; split <;> rfl
          simp [stayChanges, grounded, state, h.resolve_left equal]
        rw [← stay, if_pos turns, hw]
      verifying := fun h => absurd h equal }

/-! ### What it leaves of the work (R28, R45) -/

/-- A level change: the record in RESTORE or CONFIRM, the requester's unit brought to the target, and the notices of the start
ahead of the unit's own. -/
theorem Work.beginLevelChange_eq {t : Transition} {w : Work} (ht : w.transition = some t) : ∃ (unit : StationUnit) (out : List Notice),
    (w.stations.get t.station).Levelled (w.toPlant.ctx t.station) t.target t.previous unit ∧
    w.beginLevelChange t = { w with
      transition := some { t with phase :=
        if (pattern w.activeImage t.station t.target).power = (w.carrier t.station).level then .confirm else .restore }
      stations := w.stations.set t.station unit
      posts := w.posts ++ (t.informed.map fun y => (y, t.startNotice)) ++ out.map fun n => (t.station, n) } := by
  obtain ⟨c, hc⟩ : ∃ c, c = w.toPlant.ctx t.station := ⟨_, rfl⟩
  obtain ⟨r, hr⟩ : ∃ r, r = StationWork.levelChange t.previous c
    { (w.stations.get t.station).patterned c (some t.target) with out := [] } := ⟨_, rfl⟩
  have levelled := StationWork.levelChange_levelled c t.target t.previous (w.stations.get t.station)
  rw [← hr] at levelled
  obtain ⟨v, hv⟩ : ∃ v : Work, v = { w with
      transition := some { t with phase := .restore }
      stations := w.stations.set t.station r.toStationUnit
      posts := w.posts ++ (t.informed.map fun y => (y, t.startNotice)) ++ r.out.map fun n => (t.station, n) } := ⟨_, rfl⟩
  have begun : w.beginLevelChange t = v.restoreCheck := by
    unfold Work.beginLevelChange Work.onTransition
    simp only [ht, Option.map_some, Work.announceStart_eq, Work.setPattern_eq]
    refine congrArg Work.restoreCheck ?_
    rw [Work.onStation_of (u := r) (by rw [hr, hc, Pair.get_set_self]; rfl), hv]
    simp only [Pair.set_set]
  have on : v.transition = some { t with phase := .restore } := by rw [hv]
  have carrier : v.carrier t.station = r.carrier := by
    rw [hv]
    exact congrArg StationUnit.carrier (Pair.get_set_self _ _ _)
  have state : (v.carrier t.station).state = _ := (congrArg Carrier.state carrier).trans levelled.state
  refine ⟨r.toStationUnit, r.out, hc ▸ levelled, ?_⟩
  have image : c.image = w.activeImage ∧ c.station = t.station := by rw [hc]; exact ⟨rfl, rfl⟩
  rw [image.1, image.2] at state
  rw [begun]
  by_cases equal : (pattern w.activeImage t.station t.target).power = (w.carrier t.station).level
  · rw [if_pos equal]
    have verifying : (v.carrier t.station).state = .verifying := state.trans (if_pos equal)
    have confirmed : v.restoreCheck = { v with transition := some { t with phase := .confirm } } := by
      unfold Work.restoreCheck Work.onTransition
      simp only [on, verifying, Option.map_some]
    rw [confirmed, hv]
  · rw [if_neg equal]
    have grounded : (v.carrier t.station).state.measured = false := by
      rw [state, if_neg (show ¬(pattern w.activeImage t.station t.target).power = (w.stations.get t.station).carrier.level from equal)]
      split <;> rfl
    rw [Work.restoreCheck_waits on rfl grounded, hv]

/-! ### The request that starts one (R22, R25, R28) -/

theorem Plant.levelling_informed (p v : Plant) (e : PendingEntry) : (p.levelling (v.newTransition e)).informed = [e.station] := by
  obtain ⟨tag, station, target, source⟩ := e
  cases station <;> rfl

/-- Settles O12: the request is planned as a level change, and the requester's unit is brought to the target. -/
theorem levelChangeStarts : Obligations.LevelChangeStarts := by
  intro x target q s ready image number inUse idle empty noWrite way fits clear record equal lowers
  obtain ⟨t, ht⟩ : ∃ t, t = s.levelling (s.started x q) := ⟨_, rfl⟩
  obtain ⟨w, hw⟩ : ∃ w : Work, w = { s.work.accepted x with transition := some t } := ⟨_, rfl⟩
  have submitted : s.work.submit x target.toNat .manual = (w.beginLevelChange t, .accepted, some s.tagToGive) := by
    have starts := Work.submit_starts (w := s.work) number idle empty image inUse noWrite way
    rw [Work.plan_levels (t := s.work.started x q) way fits clear] at starts
    rw [hw, ht]
    exact starts
  obtain ⟨unit, out, levelled, begun⟩ := Work.beginLevelChange_eq (w := w) (t := t) (by rw [hw])
  have named : t.station = x ∧ t.target = q ∧ t.tag = s.tagToGive ∧ t.source = .manual ∧ t.previous = s.active x ∧ t.moves = [] ∧
      t.affected = ⟨false, false⟩ ∧ t.consent = .notNeeded ∧ t.result = none := by
    rw [ht]
    exact ⟨rfl, rfl, rfl, rfl, rfl, rfl, rfl, rfl, rfl⟩
  obtain ⟨station, aim, tag, source, previous, moves, affected, consent, result⟩ := named
  have informed : t.informed = [x] := by
    rw [ht]
    exact Plant.levelling_informed s.toPlant s.toPlant _
  have notice : t.startNotice = .transitionStarted s.tagToGive x q .manual 0 := by
    unfold Transition.startNotice
    rw [station, aim, tag, source, moves]
    rfl
  have context : w.toPlant.ctx x = ⟨x, s.activeImage, s.elapsed⟩ := by rw [hw]; rfl
  have before (y : Station) : w.stations.get y = s.stations.get y := by rw [hw]; rfl
  rw [station, aim, previous, context, before] at levelled
  obtain ⟨v, hv⟩ : ∃ v, v = w.beginLevelChange t := ⟨_, rfl⟩
  rw [← hv] at submitted begun
  have acted := act_patternRequest_of_submit submitted (s.ports.get x).dropped
  have posts : v.posts = [(x, .transitionStarted s.tagToGive x q .manual 0)] ++ out.map fun n => (x, n) := by
    rw [begun, informed, notice, station, hw]
    rfl
  have field {α : Type} (g : Plant → α)
      (hg : ∀ (p : Plant) list m e, g { p with scanList := list, measurement := m, lastEntry := e } = g p) :
      g (s.receiveRequest x (.patternRequest target)).toPlant = g v.toPlant := State.receiveRequest_field ready acted g hg
  have stations (y : Station) : v.stations.get y = if y = x then unit else s.stations.get y := by
    rw [begun, station, ← before]
    by_cases hy : y = x
    · subst hy
      rw [if_pos rfl, Pair.get_set_self]
    · rw [if_neg hy, Pair.get_set_of_ne _ _ hy]
  have after (y : Station) : (s.receiveRequest x (.patternRequest target)).stations.get y = if y = x then unit else s.stations.get y := by
    rw [field Plant.stations fun _ _ _ _ => rfl, stations]
  have mine : (s.receiveRequest x (.patternRequest target)).stations.get x = unit := (after x).trans (if_pos rfl)
  have carrier : (s.receiveRequest x (.patternRequest target)).carrier x = unit.carrier := congrArg StationUnit.carrier mine
  refine ⟨s.receiveRequest x (.patternRequest target), { t with phase := if equal then .confirm else .restore }, rfl,
    ?_, tag, station, aim, source, previous, moves, affected, rfl, consent, result, ?_, ?_, ?_, ?_, ?_, fun unequal => ?_,
    fun turned => ?_, fun same => ?_, ?_, ?_, ?_, ?_, ?_, ?_, ?_, ?_, fun quiet => ?_⟩
  · rw [field Plant.transition fun _ _ _ _ => rfl, begun, station, aim, hw]
    rfl
  · exact (congrArg StationUnit.activePattern mine).trans levelled.activePattern
  · rw [carrier, levelled.level]
    rfl
  · rw [carrier, levelled.verifyRequired]
  · rw [carrier, levelled.state]
    rfl
  · rw [carrier, levelled.ramp]
    rfl
  · obtain ⟨channels, status, last⟩ := levelled.unjudged unequal
    exact State.unjudged_of (c := ⟨x, s.activeImage, s.elapsed⟩) (p := some q) rfl rfl
      ((congrArg StationUnit.activePattern mine).trans levelled.activePattern) ((congrArg StationUnit.channels mine).trans channels)
      ((congrArg StationUnit.arrayStatus mine).trans status) ((congrArg Carrier.lastStatus carrier).trans last)
  · refine State.stayTurns_of (w := v) ?_ ?_ ?_ ?_ ?_
    · rw [State.receiveRequest_finish ready acted, State.placeReply, State.onPort_toPlant, State.finish_toPlant]
    · rw [stations, if_pos rfl, levelled.scanStay (turned.imp id CarrierState.measured_iff.2)]
      exact Nat.succ_ne_self _
    · rw [begun, hw]; rfl
    · rw [begun, hw]; rfl
    · rw [begun, hw]; rfl
  · obtain ⟨passes, timer, channels⟩ := levelled.verifying same
    rw [carrier, mine]
    refine ⟨passes, timer, fun i => ?_⟩
    rw [channels]
    simp [Channel.emptied, Channel.reset]
  · rw [after, if_neg (by cases x <;> decide)]
  · rw [field Plant.contactors fun _ _ _ _ => rfl, begun, hw]; rfl
  · rw [field Plant.driver fun _ _ _ _ => rfl, begun, hw]; rfl
  · rw [field Plant.pendingList fun _ _ _ _ => rfl, begun, hw]; exact empty
  · rw [field Plant.tagCounter fun _ _ _ _ => rfl, begun, hw]; rfl
  · rw [field Plant.override fun _ _ _ _ => rfl, begun, hw]; rfl
  · refine State.receiveRequest_other_port ready acted (by cases x <;> decide) fun p hp => ?_
    rw [posts] at hp
    have own : p.1 = x := by
      rcases List.mem_append.1 hp with h | h
      · rw [List.mem_singleton.1 h]
      · obtain ⟨n, -, rfl⟩ := List.mem_map.1 h
        rfl
    rw [own]
    cases x <;> decide
  · exact State.receiveRequest_reply ready acted
  · rw [State.receiveRequest_head ready acted, quiet, posts]
    simp

end Machine
end Sys2Proof

/-! PROOFS. Unexpected movement (R62 to R65): the stations whose maps it breaks, and what that means to the active transition. -/
namespace Sys2Proof
namespace Machine

/-! ### A map broken (R63) -/

/-- A station's active map, satisfied by the positions before, is not by those after. -/
def Plant.Broken (before : Plant) (after : Vector Live 16) (x : Station) : Prop :=
  ∃ q, before.active x = some q ∧ satisfied before.activeImage before.contactors x q = true ∧
    satisfied before.activeImage after x q = false

section
variable {before : Plant} {w : Work} {x : Station} (active : w.active x = before.active x)
  (image : w.activeImage = before.activeImage)
include active image

theorem Work.breakMap_of_broken (h : before.Broken w.contactors x) : (w.breakMap before x).stations.get x =
    (StationWork.goDark (w.toPlant.ctx x) (w.repatterned x none)).toStationUnit := by
  obtain ⟨q, lit, held, lost⟩ := h
  unfold Work.breakMap
  rw [active, lit]
  dsimp only
  rw [if_pos (by rw [image, held, lost]; rfl)]
  exact Work.setPattern_onStation_get _ _

theorem Work.breakMap_of_whole (h : ¬before.Broken w.contactors x) : w.breakMap before x = w := by
  unfold Work.breakMap
  split
  · rfl
  · next q lit =>
    refine if_neg fun hb => h ⟨q, active.symm.trans lit, ?_⟩
    rw [image] at hb
    simpa using hb

end

/-- What a broken map leaves of its station, if it was not DARK (R63, R82, R116). -/
theorem State.darkened_of {s u : State} {x : Station} {p : Plant} (unit : p.stations.get x = s.stations.get x)
    (image : p.activeImage = s.activeImage)
    (hu : u.stations.get x = (StationWork.goDark (p.ctx x) (p.repatterned x none)).toStationUnit) :
    u.active x = none ∧ (u.carrier x).state = .dark ∧ (u.carrier x).rfInhibit = true ∧
      ((s.carrier x).state ≠ .dark → (u.carrier x).level = 0 ∧ (u.carrier x).ramp = none ∧ (u.carrier x).muteTimer = none ∧
        (u.carrier x).verifyRequired = true ∧ s.Unjudged x u) := by
  obtain ⟨c, hc⟩ : ∃ c, c = p.ctx x := ⟨_, rfl⟩
  obtain ⟨w, hw⟩ : ∃ w, w = p.repatterned x none := ⟨_, rfl⟩
  have unit_ : w.toStationUnit = (s.stations.get x).patterned c none := by
    rw [hw, hc, ← unit]
    rfl
  have state : w.carrier.state = (s.carrier x).state :=
    (congrArg (fun v : StationUnit => v.carrier.state) unit_).trans (StationUnit.patterned_alike c none _).state
  rw [← hw, ← hc] at hu
  have carrier : u.carrier x = (StationWork.goDark c w).carrier := congrArg StationUnit.carrier hu
  obtain ⟨same, dark⟩ := StationWork.goDark_spec c w
  have active : u.active x = none := (congrArg StationUnit.activePattern hu).trans
    (same.trans ((congrArg StationUnit.activePattern unit_).trans (StationUnit.patterned_activePattern c none _)))
  refine ⟨active, by rw [carrier]; exact dark, ?_, fun lit => ?_⟩
  · unfold Carrier.rfInhibit
    rw [carrier, dark]
    rfl
  · obtain ⟨out, eq⟩ := StationWork.goDark_eq (c := c) (w := w) (by rw [state]; exact lit)
    rw [eq] at hu carrier
    rw [carrier]
    refine ⟨rfl, rfl, rfl, rfl, State.unjudged_of (c := c) (p := none) ?_ (by rw [hc]; rfl) active ?_ ?_ ?_⟩
    · rw [hc]; exact image
    · rw [hu, ← unit_]
    · rw [hu, ← unit_]
    · rw [carrier, ← unit_]
      exact Carrier.leave_lastStatus _

/-- The two stations judged one after the other, each by its own map (R63). -/
theorem Work.breakMaps_get {before : Plant} {w : Work} (stations : w.stations = before.stations)
    (image : w.activeImage = before.activeImage) (x : Station) :
    (before.Broken w.contactors x → ((w.breakMap before .A).breakMap before .B).stations.get x =
      (StationWork.goDark (w.toPlant.ctx x) (w.repatterned x none)).toStationUnit) ∧
    (¬before.Broken w.contactors x → ((w.breakMap before .A).breakMap before .B).stations.get x = before.stations.get x) := by
  obtain ⟨v, hv⟩ : ∃ v, v = w.breakMap before .A := ⟨_, rfl⟩
  have first : w.Tuned [.A] v := hv ▸ Work.breakMap_tuned before .A w
  have second := Work.breakMap_tuned before .B v
  have lit (x : Station) : w.active x = before.active x := by unfold Plant.active; rw [stations]
  rw [← hv]
  cases x with
  | A =>
    rw [second.alone (y := .A) (by simp), hv]
    exact ⟨fun h => Work.breakMap_of_broken (lit .A) image h, fun h => by rw [Work.breakMap_of_whole (lit .A) image h, stations]⟩
  | B =>
    have unit : v.stations.get .B = w.stations.get .B := first.alone (by simp)
    have contactors : v.contactors = w.contactors := first.field Plant.contactors fun _ _ => rfl
    have image' : v.activeImage = before.activeImage := (first.field Plant.activeImage fun _ _ => rfl).trans image
    have lit' : v.active .B = before.active .B := (congrArg StationUnit.activePattern unit).trans (lit .B)
    have ctx : v.toPlant.ctx .B = w.toPlant.ctx .B := first.field (fun p => p.ctx .B) fun _ _ => rfl
    have repatterned : v.repatterned .B none = w.repatterned .B none := by
      unfold Plant.repatterned
      rw [unit, ctx]
    rw [← contactors, ← ctx, ← repatterned]
    exact ⟨fun h => Work.breakMap_of_broken lit' image' h,
      fun h => by rw [Work.breakMap_of_whole lit' image' h, unit, stations]⟩

/-- A DARK station stays as it is while the affected stations are raised back. -/
theorem Work.raiseBackAll_dark {t : Transition} {w : Work} {y : Station} (dark : (w.carrier y).state = .dark) :
    (w.raiseBackAll t.affectedList).stations.get y = w.stations.get y := by
  cases affected : t.affected.get y with
  | false => exact Work.raiseBackAll_alone affected
  | true =>
    obtain ⟨v, ys, before, fresh, get⟩ := Work.raiseBackAll_at (w := w) affected
    have unit := before.alone fresh
    have still : v.raiseBack y = v := by
      unfold Work.raiseBack
      exact if_pos ((congrArg (fun u : StationUnit => u.carrier.state) unit).trans dark)
    rw [get, still, unit]

/-! ### What a disturbance means to the active transition (R34, R37, R44, R65) -/

section
variable {w : Work} {t : Transition} (ht : w.transition = some t)
include ht

theorem Work.arrayDisturbance_consentWait (phase : t.phase = .consentWait) : w.arrayDisturbance =
    (Work.post t.station.peer (.consentWithdrawn t.tag) { w with consentTimer := none, deferTimer := none }).endTransition
      .arrayDisturbed := by
  unfold Work.arrayDisturbance Work.withdrawQuery
  rw [ht]
  simp only [phase, if_true]

theorem Work.arrayDisturbance_quiesce (phase : t.phase = .quiesce) :
    w.arrayDisturbance = (w.raiseBackAll t.affectedList).endTransition .arrayDisturbed := by
  unfold Work.arrayDisturbance
  rw [ht]
  simp only [phase]

theorem Work.arrayDisturbance_moving (phase : t.phase = .switch ∨ t.phase = .reverse) :
    w.arrayDisturbance = w.disturbSwitch .arrayDisturbed := by
  unfold Work.arrayDisturbance
  rw [ht]
  rcases phase with h | h <;> simp only [h]

theorem Work.arrayDisturbance_restoring (phase : t.phase = .restore ∨ t.phase = .confirm) : w.arrayDisturbance =
    if (w.carrier t.station).state = .dark then w.endTransition (t.result.getD .arrayDisturbed) else w := by
  unfold Work.arrayDisturbance
  rw [ht]
  rcases phase with h | h <;> simp only [h]

theorem Work.arrayDisturbance_plan (phase : t.phase = .plan) : w.arrayDisturbance = w := by
  unfold Work.arrayDisturbance
  rw [ht]
  simp only [phase]

end

/-- Inputs with new levels that are unexpected movement, in a part that runs (R53, R54, R62 to R65). -/
theorem Work.debounce_moved {k : ContactorNo} {made0 made1 : Option Bool} {w v : Work} (running : w.phase = .running)
    (fresh : w.aux[k].take made0 made1 ≠ w.aux[k]) (hv : v = { w with aux := w.aux.set k (w.aux[k].take made0 made1) })
    (inUse : (contactorRecord v.activeImage k).inUse = true) (unmoved : ∀ m, v.driver = some m → m.contactor ≠ k)
    (agrees : v.contactors[k].failure ≠ .disagree) : w.debounce k made0 made1 = (v.unexpectedMovement k).examinePending := by
  rw [← Work.judgeCombination_moved inUse unmoved agrees, hv]
  unfold Work.debounce
  split
  · next h => rw [h] at running; cases running
  · next h => rw [h] at running; cases running
  · exact if_neg fresh

/-- Settles O41: the broken maps darken their stations, and the phase says what the disturbance means. -/
theorem movementBreaksMaps : Obligations.MovementBreaksMaps := by
  intro k made0 made1 s running waiting value live contactors fresh inUse unmoved agrees calm broken
  obtain ⟨v, hv⟩ : ∃ v : Work, v = { s.work with aux := s.aux.set k value } := ⟨_, rfl⟩
  obtain ⟨b, hb⟩ : ∃ b : Work, b = { v with
      contactors := contactors, posts := (s.carrierList k).map fun y => (y, .contactorFault k live .unexpected) } := ⟨_, rfl⟩
  obtain ⟨w, hw⟩ : ∃ w, w = (b.breakMap v.toPlant .A).breakMap v.toPlant .B := ⟨_, rfl⟩
  obtain ⟨z, hz⟩ : ∃ z, z = w.arrayDisturbance.examinePending := ⟨_, rfl⟩
  have debounced : s.work.debounce k made0 made1 = z := by
    have record : Live.moved v.aux[k].shows v.contactors[k] = live := by
      have shown : v.aux[k] = value := by rw [hv]; simp
      have contactor : v.contactors[k] = s.contactors[k] := by rw [hv]; rfl
      rw [contactor, shown]
      simp only [live]
      unfold Live.moved
      cases value.shows <;> rfl
    have posted : Work.postFault k .unexpected (v.onLive k (Live.moved v.aux[k].shows)) = b := by
      rw [Work.postFault_eq, Work.onLive_live, record]
      unfold Work.onLive
      rw [record, hb, hv]
      rfl
    rw [Work.debounce_moved (w := s.work) running fresh hv (by rw [hv]; exact inUse) (by rw [hv]; exact unmoved)
      (by rw [hv]; exact agrees), hz, hw]
    unfold Work.unexpectedMovement
    dsimp only
    rw [posted]
  have tuned : b.Tuned [.A, .B] w := hw ▸ (Work.breakMap_tuned v.toPlant .A b).trans (Work.breakMap_tuned v.toPlant .B _)
  have units := Work.breakMaps_get (before := v.toPlant) (w := b) (by rw [hb]) (by rw [hb]; rfl)
  rw [← hw] at units
  have on : w.transition = s.transition := by rw [tuned.field Plant.transition fun _ _ => rfl, hb, hv]; rfl
  have list : w.pendingList = s.pendingList := by rw [tuned.field Plant.pendingList fun _ _ => rfl, hb, hv]; rfl
  have set : w.contactors = contactors := by rw [tuned.field Plant.contactors fun _ _ => rfl, hb]
  have aux : w.aux = s.aux.set k value := by rw [tuned.field Plant.aux fun _ _ => rfl, hb, hv]
  have breaks (x : Station) : v.Broken b.contactors x ↔ broken x := by rw [hb, hv]; rfl
  have waits {t : Transition} (ht : s.transition = some t) (phase : t.phase = .consentWait) : z =
      (Work.post t.station.peer (.consentWithdrawn t.tag) { w with consentTimer := none, deferTimer := none }).endTransition
        .arrayDisturbed := by
    rw [hz, Work.arrayDisturbance_consentWait (on.trans ht) phase]
    exact Work.examinePending_ended (on.trans ht) (list.trans ((calm t ht).1 (.inl phase)))
  have quiets {t : Transition} (ht : s.transition = some t) (phase : t.phase = .quiesce) :
      z = (w.raiseBackAll t.affectedList).endTransition .arrayDisturbed := by
    have raised := w.raiseBackAll_tuned t.affectedList
    rw [hz, Work.arrayDisturbance_quiesce (on.trans ht) phase]
    exact Work.examinePending_ended ((raised.field Plant.transition fun _ _ => rfl).trans (on.trans ht))
      ((raised.field Plant.pendingList fun _ _ => rfl).trans (list.trans ((calm t ht).1 (.inr phase))))
  have switches {t : Transition} {m : Move} (ht : s.transition = some t) (phase : t.phase = .switch ∨ t.phase = .reverse)
      (hm : s.driver = some m) : z = { w with
        driver := some { m with stop := true }
        transition := some { t with
          result := some (t.result.getD .arrayDisturbed)
          moves := dropWaiting (some m.contactor) t.moves } } := by
    have driver : w.driver = some m := by rw [tuned.field Plant.driver fun _ _ => rfl, hb, hv]; exact hm
    rw [hz, Work.arrayDisturbance_moving (on.trans ht) phase, Work.disturbSwitch_moving (on.trans ht) driver]
    exact Work.examinePending_active _ (Option.some_ne_none _)
  have restores {t : Transition} (ht : s.transition = some t) (phase : t.phase = .restore ∨ t.phase = .confirm) :
      z = if (w.carrier t.station).state = .dark then w.endTransition (t.result.getD .arrayDisturbed) else w := by
    have empty := list.trans ((calm t ht).2.2 phase)
    rw [hz, Work.arrayDisturbance_restoring (on.trans ht) phase]
    split
    · exact Work.examinePending_ended (on.trans ht) empty
    · exact Work.examinePending_of_empty empty
  have idles (none_ : s.transition = none ∨ ∃ t, s.transition = some t ∧ t.phase = .plan) : z = w := by
    have quiet : w.arrayDisturbance = w := by
      rcases none_ with ht | ⟨t, ht, phase⟩
      · unfold Work.arrayDisturbance
        rw [on, ht]
      · exact Work.arrayDisturbance_plan (on.trans ht) phase
    rw [hz, quiet]
    refine Work.examinePending_waiting w (Plant.Waiting.congr waiting on list ?_)
    exact (tuned.field Plant.imageWritePending fun _ _ => rfl).trans (by rw [hb, hv]; rfl)
  have frame : z.contactors = w.contactors ∧ z.aux = w.aux ∧
      ((∃ t, s.transition = some t ∧ t.phase = .quiesce ∧ z.stations = (w.raiseBackAll t.affectedList).stations) ∨
        ((∀ t, s.transition = some t → t.phase ≠ .quiesce) ∧ z.stations = w.stations)) := by
    cases ht : s.transition with
    | none => rw [idles (.inl ht)]; exact ⟨rfl, rfl, .inr ⟨fun t h => (by cases h), rfl⟩⟩
    | some t =>
      have other (h : t.phase ≠ .quiesce) (u : Transition) (hu : some t = some u) : u.phase ≠ .quiesce := by
        cases hu
        exact h
      cases phase : t.phase with
      | plan => rw [idles (.inr ⟨t, ht, phase⟩)]; exact ⟨rfl, rfl, .inr ⟨other (by rw [phase]; decide), rfl⟩⟩
      | consentWait =>
        rw [waits ht phase, Work.endTransition_eq _
          (Work.post t.station.peer (.consentWithdrawn t.tag) { w with consentTimer := none, deferTimer := none }) t (on.trans ht)]
        exact ⟨rfl, rfl, .inr ⟨other (by rw [phase]; decide), rfl⟩⟩
      | quiesce =>
        have raised := w.raiseBackAll_tuned t.affectedList
        rw [quiets ht phase, Work.endTransition_eq _ _ t ((raised.field Plant.transition fun _ _ => rfl).trans (on.trans ht))]
        exact ⟨raised.field Plant.contactors fun _ _ => rfl, raised.field Plant.aux fun _ _ => rfl, .inl ⟨t, rfl, phase, rfl⟩⟩
      | switch =>
        obtain ⟨m, hm⟩ := Option.ne_none_iff_exists'.1 ((calm t ht).2.1 (.inl phase))
        rw [switches ht (.inl phase) hm]
        exact ⟨rfl, rfl, .inr ⟨other (by rw [phase]; decide), rfl⟩⟩
      | reverse =>
        obtain ⟨m, hm⟩ := Option.ne_none_iff_exists'.1 ((calm t ht).2.1 (.inr phase))
        rw [switches ht (.inr phase) hm]
        exact ⟨rfl, rfl, .inr ⟨other (by rw [phase]; decide), rfl⟩⟩
      | restore =>
        rw [restores ht (.inl phase)]
        split
        · rw [Work.endTransition_eq _ _ t (on.trans ht)]
          exact ⟨rfl, rfl, .inr ⟨other (by rw [phase]; decide), rfl⟩⟩
        · exact ⟨rfl, rfl, .inr ⟨other (by rw [phase]; decide), rfl⟩⟩
      | confirm =>
        rw [restores ht (.inr phase)]
        split
        · rw [Work.endTransition_eq _ _ t (on.trans ht)]
          exact ⟨rfl, rfl, .inr ⟨other (by rw [phase]; decide), rfl⟩⟩
        · exact ⟨rfl, rfl, .inr ⟨other (by rw [phase]; decide), rfl⟩⟩
  obtain ⟨set', aux', stations⟩ := frame
  have left := State.event_left (s := s) debounced
  obtain ⟨u, hu⟩ : ∃ u, u = s.event (Work.debounce k made0 made1) := ⟨_, rfl⟩
  rw [← hu] at left
  have darkened (x : Station) (h : broken x) : u.stations.get x =
      (StationWork.goDark (b.toPlant.ctx x) (b.repatterned x none)).toStationUnit := by
    have unit := (units x).1 ((breaks x).2 h)
    rw [← unit, left.stations]
    rcases stations with ⟨t, -, -, eq⟩ | ⟨-, eq⟩
    · rw [eq]
      refine Work.raiseBackAll_dark ?_
      unfold Plant.carrier
      rw [unit]
      exact (StationWork.goDark_spec _ _).2
    · rw [eq]
  have whole (x : Station) (h : ¬broken x) : w.stations.get x = s.stations.get x := by
    rw [(units x).2 fun hb => h ((breaks x).1 hb), hv]
    rfl
  have room (y : Station) : (w.noticesTo y).length ≤ 3 := by
    obtain ⟨l, posted, few⟩ := tuned.noticesTo y
    have faults : (b.noticesTo y).length ≤ 1 := by
      have told : b.noticesTo y = if y ∈ s.carrierList k then [.contactorFault k live .unexpected] else [] := by
        rw [hb]
        exact filter_told (StationSet.nodup_members _) _ y
      rw [told]
      split <;> simp
    have once : [Station.A, Station.B].count y ≤ 1 := by cases y <;> decide
    rw [posted, List.length_append]
    omega
  refine ⟨u, ?_, left.contactors.trans (set'.trans set), ?_, fun x h => ?_, fun x h apart => ?_, fun t ht phase => ?_,
    fun t ht phase dark => ?_, fun t m ht phase hm => ?_⟩
  · simp only [exec, execDebounceEvent, contactorOfIndex?_succ]
    rw [hu]
  · rw [left.field Plant.aux fun _ _ _ _ => rfl, aux', aux]
  · exact State.darkened_of (by rw [hb, hv]; rfl) (by rw [hb, hv]; rfl) (darkened x h)
  · rw [left.stations, ← whole x h]
    rcases stations with ⟨t, ht, phase, eq⟩ | ⟨-, eq⟩
    · rw [eq, Work.raiseBackAll_alone (apart t ht phase)]
    · rw [eq]
  · rcases phase with asking | quiescing
    · obtain ⟨a, ha⟩ : ∃ a, a = Work.post t.station.peer (.consentWithdrawn t.tag)
        { w with consentTimer := none, deferTimer := none } := ⟨_, rfl⟩
      have active : a.transition = some t := by rw [ha]; exact on.trans ht
      have ends := waits ht asking
      rw [← ha] at ends
      have patterns (y : Station) : u.active y = a.active y := by
        rw [left.active, ends, Work.endTransition_eq _ a t active]
        rfl
      have asked (y : Station) : a.noticesTo y = w.noticesTo y ++ if t.station.peer = y then [.consentWithdrawn t.tag] else [] := by
        rw [Work.noticesTo_posts (v := w) (w := a) [(t.station.peer, .consentWithdrawn t.tag)] (by rw [ha]; rfl)]
        split
        · next h => simp [h]
        · next h => simp [h]
      have told (y : Station) : z.noticesTo y = a.noticesTo y ++ if y ∈ t.informed then
          [.transitionEnded t.tag t.station t.target t.source .arrayDisturbed (a.active .A) (a.active .B)] else [] := by
        rw [ends]
        exact Work.endTransition_noticesTo active y
      have fits (y : Station) (h : (s.ports.get y).notices.length ≤ 10) :
          (u.ports.get y).notices = (s.ports.get y).notices ++ z.noticesTo y := by
        refine left.notices ?_
        have := room y
        rw [told, asked, List.length_append, List.length_append]
        split <;> split <;> simp only [List.length_singleton, List.length_nil] <;> omega
      refine ⟨?_, ?_, ?_, fun h => ?_, fun _ h => ?_, fun h => ?_⟩
      · rw [left.transition, ends]
        exact (Work.endTransition_idle _ _).1
      · rw [left.field Plant.consentTimer fun _ _ _ _ => rfl, ends, Work.endTransition_eq _ a t active]
      · rw [left.field Plant.deferTimer fun _ _ _ _ => rfl, ends, Work.endTransition_eq _ a t active]
      · rw [fits _ h, told, if_pos t.station_informed, patterns, patterns]
        simp
      · rw [fits _ h, told, asked, if_pos rfl]
        simp
      · rw [asking] at h
        cases h
    · obtain ⟨a, ha⟩ : ∃ a, a = w.raiseBackAll t.affectedList := ⟨_, rfl⟩
      have raised : w.Tuned t.affectedList a := ha ▸ w.raiseBackAll_tuned _
      have active : a.transition = some t := (raised.field Plant.transition fun _ _ => rfl).trans (on.trans ht)
      have ends := quiets ht quiescing
      rw [← ha] at ends
      have patterns (y : Station) : u.active y = a.active y := by
        rw [left.active, ends, Work.endTransition_eq _ a t active]
        rfl
      have told := Work.endTransition_noticesTo (result := .arrayDisturbed) active t.station
      rw [if_pos t.station_informed, ← ends] at told
      refine ⟨?_, ?_, ?_, fun h => ?_, fun h => ?_, fun _ y affected unbroken => ?_⟩
      · rw [left.transition, ends]
        exact (Work.endTransition_idle _ _).1
      · rw [left.field Plant.consentTimer fun _ _ _ _ => rfl, ends, Work.endTransition_eq _ a t active]
      · rw [left.field Plant.deferTimer fun _ _ _ _ => rfl, ends, Work.endTransition_eq _ a t active]
      · have few := Work.raiseBackAll_noticesTo t t.station w
        rw [← ha] at few
        have := room t.station
        rw [left.notices (by rw [told, List.length_append, List.length_singleton]; omega), told, patterns, patterns]
        simp
      · rw [quiescing] at h
        cases h
      · refine State.raisedBackAll (w := w) (on.trans ht) (whole y unbroken) ?_ affected ?_
        · rw [tuned.field Plant.activeImage fun _ _ => rfl, hb, hv]
          rfl
        · rw [left.stations, ends, Work.endTransition_eq _ a t active, ha]
  · have ends := restores ht phase
    rw [if_pos] at ends
    · rw [left.transition, ends]
      exact (Work.endTransition_idle _ _).1
    · unfold Plant.carrier
      rw [(units t.station).1 ((breaks t.station).2 dark)]
      exact (StationWork.goDark_spec _ _).2
  · have moving := switches ht phase hm
    rw [left.driver, left.transition, moving]
    exact ⟨rfl, by rw [dropWaiting_some]⟩

end Machine
end Sys2Proof

/-! PROOFS. The schedule evaluation of a minute tick that fires (R139, R141, R144). -/
namespace Sys2Proof
namespace Machine

section
variable {x : Station} {m : Memory} {r : Reading} {w : Work}

/-- A clear override stays clear (R140). -/
theorem Work.testOverride_clear {present : Recorded} (clear : w.override.get x = .clear) : w.testOverride x present = w := by
  unfold Work.testOverride Work.setOverride
  rw [clear]
  have same : w.override.set x .clear = w.override := by rw [← clear, Pair.set_get_self]
  show ({ w with override := w.override.set x .clear } : Work) = w
  rw [same]

/-- Nothing fires for a station that is not on AUTO (R141). -/
theorem Work.evaluateStation_manual (clear : w.override.get x = .clear) (manual : w.schedulePolicy.get x ≠ some .auto) :
    Work.evaluateStation m r x w = w := by
  have quiet : w.mayFire x = false := by simp [Plant.mayFire, manual]
  unfold Work.evaluateStation
  dsimp only
  rw [Work.testOverride_clear clear]
  split
  · rfl
  · exact if_neg fun h => by rw [quiet] at h; exact Bool.false_ne_true h.1

/-- A SCHEDULE request accepted behind a head that cannot start joins the tail of the list (R22 to R25). -/
theorem Work.submit_joins {q : PatternNo} (image : w.image ≠ none) (inUse : (pattern w.activeImage x q).inUse = true)
    (owns : w.owns x = false) (other : w.active x ≠ some q) (none_ : w.pendingOf x = none) (held : w.canStart = false) :
    w.submit x (q.val + 1) .schedule = ({ w with
      tagCounter := nextTag w.tagToGive
      pendingList := w.pendingList ++ [⟨w.tagToGive, x, q, .schedule⟩] }, .accepted, some w.tagToGive) := by
  have named : w.targetPattern? x (q.val + 1) = some q := Plant.targetPattern?_eq_some.2 ⟨rfl, inUse⟩
  have entered : w.acceptRequest x q .schedule = { w with
      tagCounter := nextTag w.tagToGive
      pendingList := w.pendingList ++ [⟨w.tagToGive, x, q, .schedule⟩] } := by
    have joined (v : Work) (hv : v.pendingOf x = none) (tag : Nat) :
        v.enterPending ⟨tag, x, q, .schedule⟩ = { v with pendingList := v.pendingList ++ [⟨tag, x, q, .schedule⟩] } := by
      unfold Work.enterPending
      rw [hv]
    unfold Work.acceptRequest
    dsimp only
    rw [joined { w with tagCounter := nextTag w.tagToGive } none_]
    rfl
  have checked : w.checkRequest x (q.val + 1) .schedule = (w.acceptRequest x q .schedule, .accepted, some w.tagToGive) := by
    unfold Work.checkRequest
    rw [if_neg (by simpa using image), named]
    exact (if_neg (by simpa using owns)).trans (if_neg fun h => other h.1)
  unfold Work.submit
  rw [checked, entered]
  refine Prod.ext (Work.examinePending_waiting _ (.inr ?_)) rfl
  exact held

/-- A station on AUTO whose expected pattern is not active (R138, R141). -/
theorem Work.evaluateStation_fires {q : PatternNo} {e : Fin 24} {o : Occurrence} (image : w.image ≠ none)
    (auto : w.schedulePolicy.get x = some .auto) (clear : w.override.get x = .clear) (lit : (w.carrier x).state ≠ .dark)
    (owns : w.owns x = false) (none_ : w.pendingOf x = none) (down : w.retryHold.get x = 0)
    (expected : determining m x r = some (e, o)) (target : (scheduleEntry m x e).target = q.val + 1)
    (inUse : (pattern w.activeImage x q).inUse = true) (other : w.active x ≠ some q) (held : w.canStart = false) :
    Work.evaluateStation m r x w = { w with
      tagCounter := nextTag w.tagToGive
      pendingList := w.pendingList ++ [⟨w.tagToGive, x, q, .schedule⟩]
      posts := w.posts ++ [(x, .scheduleRequest w.tagToGive q o)] } := by
  have fires : w.mayFire x = true := by simp [Plant.mayFire, auto, clear, lit, owns, none_, down]
  have unexpected : q.val + 1 ≠ patternNumber (w.active x) := by
    cases ha : w.active x with
    | none => exact Nat.succ_ne_zero _
    | some p =>
      rintro h
      have : p = q := Fin.ext (by simp only [patternNumber] at h; omega)
      exact other (this ▸ ha)
  unfold Work.evaluateStation
  dsimp only
  rw [Work.testOverride_clear clear, expected]
  dsimp only
  rw [target, if_pos ⟨fires, unexpected⟩]
  unfold Work.fire
  rw [Work.submit_joins image inUse owns other none_ held, patternOfNumber?_eq_some.2 rfl]
  rfl

end

/-- Settles O45: the tick is a minute tick, the peer is dealt with in vain, and the station's request joins the list. -/
theorem scheduleFires : Obligations.ScheduleFires := by
  intro x s m r n due e o q clock timer ticks minute image auto manual clear clearPeer lit owns none_ hold expected target
    inUse other held
  obtain ⟨w, hw⟩ : ∃ w : Work, w = { s.work with
      elapsed := max s.elapsed due, clock := some n, clockTimer := some (due + Config.seconds 1) } := ⟨_, rfl⟩
  have active : s.activeImage = m := by unfold Plant.activeImage; rw [image]; rfl
  have ticked : s.work.tickClock Reading.minuteTickNext = w.evaluate true := by
    have next : r.minuteTickNext = true := by simp [Reading.minuteTickNext, ticks, minute]
    unfold Work.tickClock
    rw [show s.work.clock = some r from clock, show s.work.clockTimer = some due from timer]
    dsimp only
    rw [if_pos next]
    unfold Work.clockTick
    rw [ticks]
    dsimp only
    rw [if_pos minute, hw]
    rfl
  have evaluated : w.evaluate true = Work.evaluateStation m n .B (Work.decreaseHold .B
      (Work.evaluateStation m n .A (w.decreaseHold .A))) := by
    unfold Work.evaluate
    rw [show w.clock = some n by rw [hw], show w.image = some m by rw [hw]; exact image]
    rfl
  obtain ⟨z, hz⟩ : ∃ z : Work, z = { w with
      retryHold := ⟨s.retryHold.a - 1, s.retryHold.b - 1⟩
      tagCounter := nextTag s.tagToGive
      pendingList := s.pendingList ++ [⟨s.tagToGive, x, q, .schedule⟩]
      posts := [(x, .scheduleRequest s.tagToGive q o)] } := ⟨_, rfl⟩
  have fired : w.evaluate true = z := by
    have fire (holds : Pair Nat) (down : holds.get x = 0) : Work.evaluateStation m n x { w with retryHold := holds } = { w with
        retryHold := holds
        tagCounter := nextTag s.tagToGive
        pendingList := s.pendingList ++ [⟨s.tagToGive, x, q, .schedule⟩]
        posts := [(x, .scheduleRequest s.tagToGive q o)] } := by
      rw [Work.evaluateStation_fires (w := { w with retryHold := holds }) (q := q) (e := e) (o := o) (by rw [hw]; simp [image])
        (by rw [hw]; exact auto) (by rw [hw]; exact clear) (by rw [hw]; exact lit) (by rw [hw]; exact owns)
        (by rw [hw]; exact none_) down expected target (by rw [hw]; exact active ▸ inUse) (by rw [hw]; exact other)
        (by rw [hw]; exact held), hw]
      rfl
    have down : (⟨s.retryHold.a - 1, s.retryHold.b - 1⟩ : Pair Nat).get x = 0 := by
      cases x <;> exact Nat.sub_eq_zero_of_le hold
    rw [evaluated]
    cases x with
    | A =>
      have first : w.decreaseHold .A = { w with retryHold := ⟨s.retryHold.a - 1, s.retryHold.b⟩ } := by rw [hw]; rfl
      rw [first, fire ⟨s.retryHold.a - 1, s.retryHold.b⟩ (Nat.sub_eq_zero_of_le hold),
        Work.evaluateStation_manual (x := .B) (by rw [hw]; exact clearPeer) (by rw [hw]; exact manual), hz]
      rfl
    | B =>
      have second : (w.decreaseHold .A).decreaseHold .B = { w with retryHold := ⟨s.retryHold.a - 1, s.retryHold.b - 1⟩ } := by
        rw [hw]; rfl
      rw [Work.evaluateStation_manual (x := .A) (w := w.decreaseHold .A) (by rw [hw]; exact clearPeer) (by rw [hw]; exact manual),
        second, fire _ down, hz]
  refine congrArg Host.Outcome.next ?_
  rw [State.event_eq _ s fun y => by rw [ticked, fired, hz, hw]; rfl, ticked, fired, hz, hw]
  rfl

end Machine
end Sys2Proof

/-! PROOFS. The retained store's events (R148, R152), and the head of the pending list that an image write held up (R25). -/
namespace Sys2Proof
namespace Machine

/-! ### The Transition Engine writes no image record (R50, R152)

Its operations hand last-state records only, so with no image write pending they leave the image record as it stands. -/

/-- Whether an image write is pending is as it was, and with none the image record too. -/
structure Plant.KeepsImage (p q : Plant) : Prop where
  pending : q.imageWritePending = p.imageWritePending
  record : p.imageWritePending = false → q.imageRecord = p.imageRecord

theorem Plant.KeepsImage.refl (p : Plant) : p.KeepsImage p := ⟨rfl, fun _ => rfl⟩

theorem Plant.KeepsImage.trans {p q r : Plant} (h : p.KeepsImage q) (k : q.KeepsImage r) : p.KeepsImage r :=
  ⟨k.pending.trans h.pending, fun none_ => (k.record (h.pending.trans none_)).trans (h.record none_)⟩

theorem Plant.KeepsImage.after {p q r : Plant} (k : q.KeepsImage r) (h : p.KeepsImage q) : p.KeepsImage r := h.trans k

theorem Work.Tuned.keepsImage {xs : List Station} {v w : Work} (h : v.Tuned xs w) : v.KeepsImage w.toPlant :=
  ⟨h.field Plant.imageWritePending fun _ _ => rfl, fun _ => h.field Plant.imageRecord fun _ _ => rfl⟩

theorem Work.handLastState_keepsImage (marker : Bool) (w : Work) : w.KeepsImage (w.handLastState marker).toPlant := by
  refine ⟨(w.handLastState_keepsRequests marker).imageWritePending, fun none_ => ?_⟩
  have waiting (content : LastState) : (queueLastState content w.writeQueue).any WriteJob.isImage = false := by
    rw [queueLastState_any]
    exact (Bool.or_eq_false_iff.1 none_).2
  unfold Work.handLastState Work.startNextWrite
  dsimp only
  split
  · next job rest hw hq =>
    have head := waiting ⟨w.active .A, w.active .B, marker⟩
    rw [hq, List.any_cons, Bool.or_eq_false_iff] at head
    cases job with
    | image bytes => exact absurd head.1 (by simp [WriteJob.isImage])
    | lastState content => rfl
  · rfl

theorem Work.endTransition_keepsImage (result : Result) (w : Work) : w.KeepsImage (w.endTransition result).toPlant := by
  cases ht : w.transition with
  | none =>
    unfold Work.endTransition
    rw [ht]
    exact .refl _
  | some t =>
    have handed := w.handLastState_keepsImage false
    refine ⟨(w.endTransition_keepsRequests result).imageWritePending, fun none_ => ?_⟩
    rw [Work.endTransition_eq result w t ht]
    exact handed.record none_

theorem Work.resolveAndEnd_keepsImage (result : Result) (w : Work) : w.KeepsImage (w.resolveAndEnd result).toPlant := by
  unfold Work.resolveAndEnd
  split
  · exact .refl _
  · next t _ =>
    exact ((Work.Tuned.foldl (fun w x => w.resolve_tuned t x) t.restoreSet w).keepsImage.trans
      (Work.handLastState_keepsImage _ _)).trans (Work.endTransition_keepsImage _ _)

theorem Work.commandMove_keepsImage (k : ContactorNo) (toPos : Side) (w : Work) :
    w.KeepsImage (w.commandMove k toPos).toPlant := by
  unfold Work.commandMove Work.attempt
  split
  · exact ⟨rfl, fun _ => rfl⟩
  · exact Plant.KeepsImage.trans (q := (Work.onTransition _ { w with driver := none }).toPlant) ⟨rfl, fun _ => rfl⟩
      (Work.resolveAndEnd_keepsImage _ _)

theorem Work.restoreCheck_keepsImage (w : Work) : w.KeepsImage w.restoreCheck.toPlant := by
  unfold Work.restoreCheck
  split
  · exact .refl _
  · split
    · exact ⟨rfl, fun _ => rfl⟩
    · exact Work.endTransition_keepsImage _ w
    · exact Work.endTransition_keepsImage _ w
    · exact Work.endTransition_keepsImage _ w
    · exact .refl _

theorem Work.switchSuccess_keepsImage (t : Transition) (w : Work) : w.KeepsImage (w.switchSuccess t).toPlant := by
  obtain ⟨v, hv⟩ : ∃ v, v = Work.onTransition (fun t => { t with phase := .restore }) (w.setPattern t.station (some t.target)) :=
    ⟨_, rfl⟩
  have restoring : w.KeepsImage v.toPlant := by rw [hv]; exact ⟨rfl, fun _ => rfl⟩
  have raised : w.switchSuccess t = (t.restoreSet.foldl (Work.raiseAfterSwitch t) v).restoreCheck := by rw [hv]; rfl
  rw [raised]
  exact (restoring.trans (Work.Tuned.foldl (Work.raiseAfterSwitch_tuned t) t.restoreSet v).keepsImage).trans
    (Work.restoreCheck_keepsImage _)

theorem Work.enterSwitch_keepsImage (t : Transition) (w : Work) : w.KeepsImage (w.enterSwitch t).toPlant := by
  have next (v : Work) : v.KeepsImage v.nextMove.toPlant := by
    unfold Work.nextMove
    split
    · exact .refl _
    · split
      · exact Work.commandMove_keepsImage _ _ v
      · exact Work.switchSuccess_keepsImage _ v
  obtain ⟨v, hv⟩ : ∃ v, v = Work.onTransition (fun t => { t with phase := .switch }) { w with stations := w.unmuted t } := ⟨_, rfl⟩
  have stopped : w.KeepsImage v.toPlant := by rw [hv]; exact ⟨rfl, fun _ => rfl⟩
  have entered : w.enterSwitch t = (v.handLastState true).nextMove := by
    unfold Work.enterSwitch
    rw [Work.stopMuteTimers_eq, hv]
  rw [entered]
  exact (stopped.trans (Work.handLastState_keepsImage true v)).trans (next _)

theorem Work.enterQuiesce_keepsImage (w : Work) : w.KeepsImage w.enterQuiesce.toPlant := by
  have check (v : Work) : v.KeepsImage v.quiesceCheck.toPlant := by
    unfold Work.quiesceCheck
    split
    · exact .refl _
    · split
      · exact Work.enterSwitch_keepsImage _ v
      · exact .refl _
  cases ht : w.transition with
  | none =>
    unfold Work.enterQuiesce
    rw [ht]
    exact .refl _
  | some t =>
    have entered : w.KeepsImage { w.toPlant with transition := some (w.quiescing t) } := ⟨rfl, fun _ => rfl⟩
    rw [Work.enterQuiesce_eq ht]
    exact (entered.trans (Work.lowered_tuned t { w with transition := some (w.quiescing t) }).keepsImage).trans (check _)

theorem Work.plan_keepsImage (t : Transition) (w : Work) : w.KeepsImage (w.plan t).toPlant := by
  have announced (u : Transition) (v : Work) : v.KeepsImage (v.announceStart u).toPlant := by
    rw [Work.announceStart_eq]
    exact ⟨rfl, fun _ => rfl⟩
  have decided (u : Transition) (v : Work) : v.KeepsImage (v.decideConsent u).toPlant := by
    unfold Work.decideConsent
    split
    · split
      · exact Work.endTransition_keepsImage _ v
      · exact (announced u v).trans ⟨rfl, fun _ => rfl⟩
      · exact (announced u v).trans (Work.enterQuiesce_keepsImage _)
    · exact (announced u v).trans (Work.enterQuiesce_keepsImage _)
  have levelled (u : Transition) {v : Work} (hu : v.transition = some u) : v.KeepsImage (v.beginLevelChange u).toPlant := by
    obtain ⟨unit, out, -, eq⟩ := Work.beginLevelChange_eq hu
    rw [eq]
    exact ⟨rfl, fun _ => rfl⟩
  have planned (u : Transition) (v : Work) : v.KeepsImage (v.planMoves u).toPlant := by
    unfold Work.planMoves
    split
    · exact Work.endTransition_keepsImage _ v
    · split
      · exact Work.endTransition_keepsImage _ v
      · split
        · exact (levelled _ rfl).after ⟨rfl, fun _ => rfl⟩
        · exact (decided _ _).after ⟨rfl, fun _ => rfl⟩
  unfold Work.plan
  split
  · exact Work.endTransition_keepsImage _ w
  · exact (planned _ _).after ⟨rfl, fun _ => rfl⟩

/-- The entries that start leave the rest of the list, the tag counter and the image record as they stand (R25). -/
theorem Work.examineFor_leaves (n : Nat) (w : Work) : (w.examineFor n).pendingList <:+ w.pendingList ∧
    (w.examineFor n).tagCounter = w.tagCounter ∧ w.KeepsImage (w.examineFor n).toPlant := by
  induction n generalizing w with
  | zero => exact ⟨List.suffix_refl _, rfl, .refl _⟩
  | succ n ih =>
    unfold Work.examineFor
    split
    · exact ⟨List.suffix_refl _, rfl, .refl _⟩
    · next e rest listed =>
      split
      · obtain ⟨v, hv⟩ : ∃ v : Work, v = { w with pendingList := rest, transition := some (w.newTransition e) } := ⟨_, rfl⟩
        have kept := v.plan_keepsRequests (w.newTransition e)
        have image := v.plan_keepsImage (w.newTransition e)
        have begun : w.KeepsImage v.toPlant := by rw [hv]; exact ⟨rfl, fun _ => rfl⟩
        obtain ⟨suffix, counter, record⟩ := ih (v.plan (w.newTransition e))
        dsimp only
        rw [← hv]
        refine ⟨?_, counter.trans (kept.tagCounter.trans (by rw [hv])), (begun.trans image).trans record⟩
        rw [kept.pendingList, show v.pendingList = rest by rw [hv]] at suffix
        rw [listed]
        exact suffix.trans (List.suffix_cons e rest)
      · exact ⟨listed ▸ List.suffix_refl _, rfl, .refl _⟩

end Machine
end Sys2Proof

/-! PROOFS. The store's events, what each leaves (R148, R152), and the head that starts at the completion of an image write. -/
namespace Sys2Proof
namespace Machine

/-! ### The write queue (R152) -/

theorem Work.startNextWrite_empty {w : Work} (h : w.writeQueue = []) : w.startNextWrite = w := by
  unfold Work.startNextWrite
  rw [h]
  cases w.writing <;> rfl

theorem Work.startNextWrite_busy {w : Work} (h : w.writing ≠ none) : w.startNextWrite = w := by
  unfold Work.startNextWrite
  cases hw : w.writing with
  | none => exact absurd hw h
  | some g => rfl

theorem Work.startNextWrite_next {w : Work} {job : WriteJob} {rest : List WriteJob} (idle : w.writing = none)
    (h : w.writeQueue = job :: rest) : w.startNextWrite = Work.startWrite job { w with writeQueue := rest } := by
  unfold Work.startNextWrite
  rw [idle, h]

/-- With no image write in the queue, the next write is of a last-state record. -/
theorem Work.startNextWrite_lastState {w : Work} (h : ∀ bytes, .image bytes ∉ w.writeQueue) : ∃ writing queue last,
    w.startNextWrite = { w with writing := writing, writeQueue := queue, lastRecord := last } := by
  unfold Work.startNextWrite
  split
  · next job rest _ hq =>
    cases job with
    | image bytes => exact absurd (hq ▸ List.mem_cons_self) (h bytes)
    | lastState content => exact ⟨_, _, _, rfl⟩
  · exact ⟨w.writing, w.writeQueue, w.lastRecord, rfl⟩

theorem Work.completeWrite_image {w : Work} {bytes : Memory} {due : Nat} (h : w.writing = some ⟨.image bytes, due⟩) :
    w.completeWrite = Work.startNextWrite { w.reach due with writing := none, imageRecord := ⟨.valid, bytes⟩ } := by
  unfold Work.completeWrite
  rw [h]

theorem Work.completeWrite_lastState {w : Work} {content : LastState} {due : Nat}
    (h : w.writing = some ⟨.lastState content, due⟩) :
    w.completeWrite = Work.startNextWrite { w.reach due with writing := none, lastRecord := .valid content } := by
  unfold Work.completeWrite
  rw [h]

/-- A last-state write already waiting takes the new content in its place. -/
theorem queueLastState_replaces {content old : LastState} {before after : List WriteJob}
    (others : ∀ d, .lastState d ∉ before ++ after) :
    queueLastState content (before ++ .lastState old :: after) = before ++ .lastState content :: after := by
  have same {l : List WriteJob} (h : ∀ d, .lastState d ∉ l) :
      l.map (fun j => if j.isImage then j else .lastState content) = l := by
    refine (List.map_congr_left fun j hj => ?_).trans (List.map_id l)
    cases j with
    | image bytes => rfl
    | lastState d => exact absurd hj (h d)
  unfold queueLastState
  rw [if_pos (by simp [WriteJob.isImage]), List.map_append, List.map_cons, same fun d h => others d (List.mem_append_left _ h),
    same fun d h => others d (List.mem_append_right _ h)]
  rfl

theorem queueLastState_joins {content : LastState} {queue : List WriteJob} (none_ : ∀ d, .lastState d ∉ queue) :
    queueLastState content queue = queue ++ [.lastState content] := by
  refine if_neg fun h => ?_
  obtain ⟨j, hj, last⟩ := List.any_eq_true.1 h
  cases j with
  | image bytes => simp [WriteJob.isImage] at last
  | lastState d => exact none_ d hj

/-- A store at work keeps a last-state record handed to it in the queue. -/
theorem Work.handLastState_busy {marker : Bool} {w : Work} (h : w.writing ≠ none) :
    w.handLastState marker = { w with
      writeQueue := queueLastState ⟨w.active .A, w.active .B, marker⟩ w.writeQueue } := by
  unfold Work.handLastState
  exact Work.startNextWrite_busy h

/-! ### The head that starts (R25) -/

/-- With a transition active no entry starts. -/
theorem Work.examineFor_active {n : Nat} {w : Work} (h : w.transition ≠ none) : w.examineFor n = w := by
  cases n with
  | zero => rfl
  | succ n =>
    unfold Work.examineFor
    split
    · rfl
    · refine if_neg ?_
      cases ht : w.transition with
      | none => exact absurd ht h
      | some t => simp [Plant.canStart, ht]

theorem Work.examinePending_starts {w : Work} {e : PendingEntry} {rest : List PendingEntry} (listed : w.pendingList = e :: rest)
    (idle : w.transition = none) (noWrite : w.imageWritePending = false) : w.examinePending = Work.examineFor rest.length
      (Work.plan (w.newTransition e) { w with pendingList := rest, transition := some (w.newTransition e) }) := by
  have start : w.canStart = true := by simp [Plant.canStart, idle, noWrite]
  unfold Work.examinePending
  rw [listed]
  simp only [List.length_cons, Work.examineFor, listed, start, if_true]

/-- Settles O47: the idle expiry, each completion, the next write, and the head that an image write held up. -/
theorem storeEvents : Obligations.StoreEvents := by
  intro s due started
  have event {f : Work → Work} {w : Work} (h : f s.work = w) (hs : w.stations = s.stations) : s.event f = s.finish w := by
    rw [State.event_eq f s fun y => by rw [h, hs], h]
  have begun {job : WriteJob} {rest : List WriteJob} {d : State} (idle : d.work.writing = none)
      (queue : d.work.writeQueue = job :: rest) : d.finish d.work.startNextWrite = started job rest d := by
    rw [Work.startNextWrite_next idle queue]
    cases job <;> rfl
  refine ⟨fun holder size expected complete held timer => ?_, fun timer => ?_, fun bytes writing => ?_, fun content writing => ?_,
    fun idle => ?_, fun marker => ?_⟩
  · have expired : s.work.whenDue s.work.loadIdleTimer Work.loadExpired = { s.work with
        elapsed := max s.elapsed due, loadSlot := .free, loadBuffer := [], loadIdleTimer := none
        posts := [(holder, .loadExpired size expected)] } := by
      rw [show s.work.loadIdleTimer = some due from timer]
      unfold Work.whenDue Work.loadExpired
      dsimp only
      rw [show (s.work.reach due).loadSlot = .held holder size expected complete from held]
      rfl
    refine congrArg Host.Outcome.next ((event (f := fun w => w.whenDue w.loadIdleTimer Work.loadExpired) expired rfl).trans ?_)
    rfl
  · refine congrArg Host.Outcome.next (State.event_idle ?_)
    rw [show s.work.loadIdleTimer = none from timer]
    rfl
  · intro done
    obtain ⟨d, hd⟩ : ∃ d : Work, d = { s.work.reach due with writing := none, imageRecord := ⟨.valid, bytes⟩ } := ⟨_, rfl⟩
    have completed : s.work.completeWrite = d.startNextWrite := by
      rw [Work.completeWrite_image (w := s.work) writing, hd]
    have kinds : s.work.writes true = true ∧ s.work.writes false = false := by
      unfold Plant.writes
      rw [show s.work.writing = _ from writing]
      exact ⟨rfl, rfl⟩
    have step {w : Work} (h : d.startNextWrite.examinePending = w) :
        (if s.work.writes true then s.work.completeWrite.examinePending else s.work) = w := by
      rw [if_pos kinds.1, completed, h]
    refine ⟨congrArg Host.Outcome.next (State.event_idle (if_neg (by rw [kinds.2]; exact Bool.false_ne_true))),
      fun quiet => ?_, fun e rest listed idle free => ?_⟩
    · obtain ⟨-, units, active, list⟩ := d.startNextWrite_frame
      have still : d.startNextWrite.examinePending = d.startNextWrite := by
        rcases quiet with empty | on
        · exact Work.examinePending_of_empty (by rw [list, hd]; exact empty)
        · exact Work.examinePending_active _ (by rw [active, hd]; exact on)
      have after : s.event (fun w => if w.writes true then w.completeWrite.examinePending else w) = s.finish d.startNextWrite :=
        event (step still) (by rw [units, hd]; rfl)
      have same : s.finish d.startNextWrite = done.finish done.work.startNextWrite := by rw [hd]; rfl
      refine ⟨fun empty => congrArg Host.Outcome.next (after.trans (same.trans ?_)),
        fun job rest queue => congrArg Host.Outcome.next (after.trans (same.trans (begun rfl queue)))⟩
      rw [Work.startNextWrite_empty (w := done.work) empty]
      rfl
    · obtain ⟨v, hv⟩ : ∃ v, v = d.startNextWrite := ⟨_, rfl⟩
      obtain ⟨t, ht⟩ : ∃ t, t = v.newTransition e := ⟨_, rfl⟩
      obtain ⟨b, hb⟩ : ∃ b : Work, b = { v with pendingList := rest, transition := some t } := ⟨_, rfl⟩
      obtain ⟨writing', queue, last, stored⟩ := Work.startNextWrite_lastState (w := d) (by rw [hd]; exact free)
      have noWrite : v.imageWritePending = false := by
        have none_ : s.writeQueue.any WriteJob.isImage = false := by
          rw [List.any_eq_false]
          intro j hj image
          cases j with
          | image bytes => exact free bytes hj
          | lastState content => simp [WriteJob.isImage] at image
        rw [hv, Work.startNextWrite_imageWritePending, hd]
        exact none_
      have starts : v.examinePending = Work.examineFor rest.length (b.plan t) := by
        rw [Work.examinePending_starts (e := e) (rest := rest) (by rw [hv, stored, hd]; exact listed)
          (by rw [hv, stored, hd]; exact idle) noWrite, hb, ht]
      obtain ⟨z, hz⟩ : ∃ z, z = v.examinePending := ⟨_, rfl⟩
      have left := State.event_left (s := s) (f := fun w => if w.writes true then w.completeWrite.examinePending else w)
        (step (w := z) (by rw [hz, hv]))
      obtain ⟨u, hu⟩ : ∃ u, u = s.event fun w => if w.writes true then w.completeWrite.examinePending else w := ⟨_, rfl⟩
      rw [← hu] at left
      have moves := v.examinePending_moves
      obtain ⟨suffix, counter, kept⟩ := Work.examineFor_leaves rest.length (b.plan t)
      have planned := b.plan_keepsRequests t
      have image := ((b.plan_keepsImage t).trans kept).record (by rw [hb]; exact noWrite)
      rw [← starts, ← hz] at suffix counter image
      refine ⟨u, by rw [hu]; rfl, ?_, ?_, ?_, ?_, ?_, fun way fits clear => ?_⟩
      · rw [left.field Plant.pendingList fun _ _ _ _ => rfl]
        rw [planned.pendingList, show b.pendingList = rest by rw [hb]] at suffix
        exact suffix
      · rw [left.field Plant.imageRecord fun _ _ _ _ => rfl, image, hb, hv, stored, hd]
      · rw [left.field Plant.elapsed fun _ _ _ _ => rfl, hz, moves.elapsed, hv, stored, hd]
        rfl
      · rw [left.field Plant.tagCounter fun _ _ _ _ => rfl, counter, planned.tagCounter, hb, hv, stored, hd]
        rfl
      · rw [left.field Plant.image fun _ _ _ _ => rfl, hz, moves.image, hv, stored, hd]
        rfl
      · have base (y : Station) : b.stations.get y = s.stations.get y := by rw [hb, hv, stored, hd]; rfl
        obtain ⟨tr, htr⟩ : ∃ tr, tr = b.levelling t := ⟨_, rfl⟩
        obtain ⟨c, hc⟩ : ∃ c : Work, c = { b with transition := some tr } := ⟨_, rfl⟩
        have named : tr.tag = e.tag ∧ tr.station = e.station ∧ tr.target = e.target ∧ tr.source = e.source ∧ tr.moves = [] := by
          rw [htr, ht]
          exact ⟨rfl, rfl, rfl, rfl, rfl⟩
        obtain ⟨tag, station, aim, source, moves_⟩ := named
        have informed : tr.informed = [e.station] := by rw [htr, ht]; exact Plant.levelling_informed b.toPlant v.toPlant e
        have levels : b.plan t = c.beginLevelChange tr := by
          rw [hc, htr]
          refine Work.plan_levels ?_ ?_ ?_
          · rw [ht, hb, hv, stored, hd]; exact way
          · rw [ht, hb, hv, stored, hd]; exact fits
          · rw [ht, hb, hv, stored, hd]; exact clear
        obtain ⟨unit, out, levelled, begun_⟩ := Work.beginLevelChange_eq (w := c) (t := tr) (by rw [hc])
        have ends : z = c.beginLevelChange tr := by
          rw [hz, starts, levels]
          exact Work.examineFor_active (by rw [begun_]; exact Option.some_ne_none _)
        rw [begun_, station] at ends
        have units (y : Station) : z.stations.get y = if y = e.station then unit else s.stations.get y := by
          rw [ends, ← base y]
          by_cases hy : y = e.station
          · rw [if_pos hy, hy]
            exact Pair.get_set_self _ _ _
          · rw [if_neg hy]
            exact (Pair.get_set_of_ne _ _ hy).trans (by rw [hc])
        have active : ∃ phase, z.transition = some { tr with phase := phase } ∧ (phase = .restore ∨ phase = .confirm) := by
          rw [ends]
          dsimp only
          split
          · exact ⟨.confirm, by rw [station], .inr rfl⟩
          · exact ⟨.restore, by rw [station], .inl rfl⟩
        obtain ⟨phase, on, restoring⟩ := active
        refine ⟨?_, ?_, ?_, ?_, fun quiet => ?_, { tr with phase := phase }, left.transition.trans on, tag, station, aim, source, moves_, restoring⟩
        · rw [left.field Plant.pendingList fun _ _ _ _ => rfl, ends, hc, hb]
        · rw [left.active]
          unfold Plant.active
          rw [units, if_pos rfl, levelled.activePattern, aim]
        · rw [left.contactors, ends, hc, hb, hv, stored, hd]
          rfl
        · rw [left.stations, units, if_neg (by cases e.station <;> decide)]
        · have notice : tr.startNotice = .transitionStarted e.tag e.station e.target e.source 0 := by
            unfold Transition.startNotice
            rw [station, aim, tag, source, moves_]
            rfl
          have posts : z.posts = [(e.station, .transitionStarted e.tag e.station e.target e.source 0)] ++
              out.map fun n => (e.station, n) := by
            rw [ends, informed, notice, hc, hb, hv, stored, hd]
            rfl
          rw [left.head, quiet]
          unfold Work.noticesTo
          rw [posts]
          simp
  · intro done
    obtain ⟨d, hd⟩ : ∃ d : Work, d = { s.work.reach due with writing := none, lastRecord := .valid content } := ⟨_, rfl⟩
    have completed : s.work.completeWrite = d.startNextWrite := by
      rw [Work.completeWrite_lastState (w := s.work) writing, hd]
    have kinds : s.work.writes true = false ∧ s.work.writes false = true := by
      unfold Plant.writes
      rw [show s.work.writing = _ from writing]
      exact ⟨rfl, rfl⟩
    have step : (if s.work.writes false then s.work.completeWrite else s.work) = d.startNextWrite := by
      rw [if_pos kinds.2, completed]
    have after : s.event (fun w => if w.writes false then w.completeWrite else w) = s.finish d.startNextWrite :=
      event step (by rw [(d.startNextWrite_frame).2.1, hd]; rfl)
    have same : s.finish d.startNextWrite = done.finish done.work.startNextWrite := by rw [hd]; rfl
    refine ⟨congrArg Host.Outcome.next (State.event_idle (if_neg (by rw [kinds.1]; exact Bool.false_ne_true))),
      fun empty => congrArg Host.Outcome.next (after.trans (same.trans ?_)),
      fun job rest queue => congrArg Host.Outcome.next (after.trans (same.trans (begun rfl queue)))⟩
    rw [Work.startNextWrite_empty (w := done.work) empty]
    rfl
  · have quiet (kind : Bool) : s.work.writes kind = false := by
      unfold Plant.writes
      rw [show s.work.writing = none from idle]
      rfl
    exact ⟨congrArg Host.Outcome.next (State.event_idle (if_neg (by rw [quiet]; exact Bool.false_ne_true))),
      congrArg Host.Outcome.next (State.event_idle (if_neg (by rw [quiet]; exact Bool.false_ne_true)))⟩
  · intro job
    refine ⟨fun idle empty => Work.handLastState_starts (w := s.work) idle empty, fun busy none_ => ?_,
      fun content before after busy queue others => ?_⟩
    · rw [Work.handLastState_busy (w := s.work) busy, queueLastState_joins (queue := s.work.writeQueue) none_]
      rfl
    rw [Work.handLastState_busy (w := s.work) busy, show s.work.writeQueue = _ from queue, queueLastState_replaces others]
    rfl

end Machine
end Sys2Proof

/-! PROOFS. The reports of a kept measurement (R99 to R113, R122, R123, R127, R131): what each leaves of the station. -/
namespace Sys2Proof
namespace Machine

/-! ### A status taken (R113, R127, R131) -/

/-- The hold timer after a report of status `st` (R127). -/
def Carrier.supervised (c : Ctx) (st : Status) (r : Carrier) : Timer :=
  if r.state = .normal then
    if st = .out then
      if r.lastStatus = .out then r.holdTimer else some (c.now + Config.seconds (settings c.image c.station).holdSeconds)
    else none
  else r.holdTimer

/-- The ARRAY_STATUS notice of a status, if the notified one differs (R131). -/
def StationWork.noticed (st : Status) (w : StationWork) : List Notice :=
  if st = w.carrier.notifiedStatus then []
  else [.arrayStatus w.activePattern st w.carrier.notifiedStatus (Vector.ofFn fun i => w.channels[i].towerStatus)]

section
variable {c : Ctx} {w : StationWork}

theorem StationWork.notifyStatus_measured (measured : w.carrier.state.measured = true) : w.notifyStatus = { w with
    carrier := { w.carrier with notifiedStatus := w.carrier.lastStatus }
    out := w.out ++ w.noticed w.carrier.lastStatus } := by
  unfold StationWork.notifyStatus StationWork.noticed
  rw [measured]
  by_cases same : w.carrier.lastStatus = w.carrier.notifiedStatus
  · rw [if_neg (by simp [same]), if_pos same, List.append_nil, same]
  · rw [if_pos (by simp [same]), if_neg same]
    rfl

theorem StationWork.superviseHold_eq (before : Status) (st : Status) :
    StationWork.superviseHold c before { w with arrayStatus := st, carrier := { w.carrier with lastStatus := st } } =
      { w with arrayStatus := st, carrier := { w.carrier with
        lastStatus := st
        holdTimer := Carrier.supervised c st { w.carrier with lastStatus := before } } } := by
  unfold StationWork.superviseHold Carrier.supervised
  dsimp only
  by_cases normal : w.carrier.state = .normal
  · rw [if_pos normal, if_pos normal]
    by_cases out : st = .out
    · rw [if_pos out, if_pos out]
      by_cases already : before = .out
      · rw [if_pos already, if_pos already]
      · rw [if_neg already, if_neg already]
    · rw [if_neg out, if_neg out]
  · rw [if_neg normal, if_neg normal]

theorem StationWork.takeStatus_measured (st : Status) (measured : w.carrier.state.measured = true) :
    w.takeStatus c st = { w with
      arrayStatus := st
      carrier := { w.carrier with lastStatus := st, notifiedStatus := st, holdTimer := w.carrier.supervised c st }
      out := w.out ++ w.noticed st } := by
  obtain ⟨v, hv⟩ : ∃ v : StationWork, v = { w with
      arrayStatus := st
      carrier := { w.carrier with lastStatus := st, holdTimer := w.carrier.supervised c st } } := ⟨_, rfl⟩
  have supervised : w.takeStatus c st = v.notifyStatus :=
    (congrArg StationWork.notifyStatus (StationWork.superviseHold_eq w.carrier.lastStatus st)).trans (by rw [hv])
  rw [supervised, StationWork.notifyStatus_measured (by rw [hv]; exact measured), hv]
  rfl

/-- A report of either kind leaves the measured records, the pattern and the scan stay. -/
structure StationWork.Reported (w r : StationWork) : Prop where
  channels : r.channels = w.channels
  reference : r.reference = w.reference
  activePattern : r.activePattern = w.activePattern
  scanStay : r.scanStay = w.scanStay

theorem StationWork.Reported.refl (w : StationWork) : w.Reported w := ⟨rfl, rfl, rfl, rfl⟩

/-- A status report (R113). -/
theorem StationWork.statusReport_measured (measured : w.carrier.state.measured = true) : w.Reported (w.statusReport c) ∧
    (w.statusReport c).carrier.state = w.carrier.state ∧ (w.statusReport c).arrayStatus = w.toStationUnit.decideStatus c ∧
    (w.toStationUnit.decideStatus c ≠ w.arrayStatus →
      (w.statusReport c).carrier.lastStatus = w.toStationUnit.decideStatus c ∧
      (w.statusReport c).carrier.holdTimer = w.carrier.supervised c (w.toStationUnit.decideStatus c)) := by
  unfold StationWork.statusReport
  dsimp only
  by_cases same : w.toStationUnit.decideStatus c = w.arrayStatus
  · rw [if_pos same]
    exact ⟨.refl w, rfl, same.symm, fun h => absurd same h⟩
  · rw [if_neg same, StationWork.takeStatus_measured _ measured]
    exact ⟨⟨rfl, rfl, rfl, rfl⟩, rfl, rfl, fun _ => ⟨rfl, rfl⟩⟩

/-! ### An evaluation report (R113, R122, R123) -/

/-- NORMAL entered with the notified status the last one: no ARRAY_STATUS is posted. -/
theorem StationWork.enterState_normal_told (settled : w.carrier.lastStatus = w.carrier.notifiedStatus) :
    ∃ hold, w.enterState .normal c = { w with
      carrier := { w.carrier.leave with state := .normal, verifyRequired := false, holdTimer := hold }
      scanStay := if stayChanges w.carrier.state .normal then w.scanStay + 1 else w.scanStay
      out := w.out ++ w.told .normal } := by
  have told := StationWork.enterState_told (c := c) (w := w) (new := .normal) rfl
  have quiet (v : StationWork) (h : v.carrier.lastStatus = v.carrier.notifiedStatus) : v.notifyStatus = v := by
    unfold StationWork.notifyStatus
    exact if_neg (by simp [h])
  have last : (w.carrier.leave.enter c .normal).lastStatus = w.carrier.lastStatus := w.carrier.leave_lastStatus
  have kept : (w.carrier.leave.enter c .normal).notifiedStatus = w.carrier.notifiedStatus := by
    show w.carrier.leave.notifiedStatus = _
    cases hs : w.carrier.state <;> simp [Carrier.leave, hs]
  have same := last.trans (settled.trans kept.symm)
  rw [told]
  unfold StationWork.settleIn
  by_cases out : w.carrier.lastStatus = .out
  · refine ⟨some (c.now + Config.seconds (settings c.image c.station).holdSeconds), ?_⟩
    exact (quiet _ (by rw [if_pos (last.trans out)]; exact same)).trans (if_pos (last.trans out))
  · refine ⟨w.carrier.leave.holdTimer, ?_⟩
    have elsewhere : ¬(w.carrier.leave.enter c .normal).lastStatus = .out := fun h => out (last.symm.trans h)
    exact (quiet _ (by rw [if_neg elsewhere]; exact same)).trans (if_neg elsewhere)

/-- What an evaluation makes of the pass count (R122). -/
def Carrier.passes (st : Status) (r : Carrier) : Nat := passCountAfter st r.passCount

/-- The notices of a verification that has succeeded (R123). -/
def StationWork.verifiedNotices (c : Ctx) (w : StationWork) : List Notice :=
  [.carrierState .normal w.carrier.level w.activePattern none w.carrier.muteConfirmed (w.carrier.rfPresent == some true),
    .verified w.activePattern (w.activeRecord c).2.verifyCount ((c.now - w.carrier.verifyEntered) / Config.seconds 1)]

/-- What an evaluation report leaves of the station's statuses and its verification. -/
structure StationWork.Evaluated (c : Ctx) (st : Status) (w r : StationWork) : Prop where
  reported : w.Reported r
  arrayStatus : r.arrayStatus = st
  lastStatus : r.carrier.lastStatus = st
  notifiedStatus : r.carrier.notifiedStatus = st
  other : w.carrier.state ≠ .verifying → r.carrier.state = w.carrier.state ∧ r.carrier.holdTimer = w.carrier.supervised c st ∧
    r.out = w.out ++ w.noticed st
  continued : w.carrier.state = .verifying → w.carrier.passes st < (w.activeRecord c).2.verifyCount →
    r.carrier.state = .verifying ∧ r.carrier.passCount = w.carrier.passes st ∧ r.carrier.verifyTimer = w.carrier.verifyTimer ∧
    r.out = w.out ++ w.noticed st
  succeeded : w.carrier.state = .verifying → (w.activeRecord c).2.verifyCount ≤ w.carrier.passes st →
    r.carrier.state = .normal ∧ r.carrier.passCount = 0 ∧ r.carrier.verifyTimer = none ∧ r.carrier.verifyRequired = false ∧
    r.out = w.out ++ w.noticed st ++ w.verifiedNotices c

theorem StationWork.evaluationReport_evaluated (measured : w.carrier.state.measured = true) :
    w.Evaluated c (w.toStationUnit.decideStatus c) (w.evaluationReport c) := by
  obtain ⟨st, hst⟩ : ∃ st, st = w.toStationUnit.decideStatus c := ⟨_, rfl⟩
  obtain ⟨v, hv⟩ : ∃ v, v = w.takeStatus c st := ⟨_, rfl⟩
  have taken := hv.trans (StationWork.takeStatus_measured st measured)
  have report : w.evaluationReport c = if v.carrier.state = .verifying then
      if (w.activeRecord c).2.verifyCount ≤ passCountAfter st v.carrier.passCount then
        StationWork.verified c { v with carrier := { v.carrier with passCount := passCountAfter st v.carrier.passCount } }
      else { v with carrier := { v.carrier with passCount := passCountAfter st v.carrier.passCount } }
    else v := by
    have record : ({ v with carrier := { v.carrier with passCount := passCountAfter st v.carrier.passCount } } :
        StationWork).activeRecord c = w.activeRecord c := by rw [taken]; rfl
    unfold StationWork.evaluationReport
    dsimp only
    rw [← hst, ← hv, record]
  rw [← hst, report]
  have state : v.carrier.state = w.carrier.state := by rw [taken]
  have count : passCountAfter st v.carrier.passCount = w.carrier.passes st := by rw [taken]; rfl
  rw [count, state]
  by_cases verifying : w.carrier.state = .verifying
  · rw [if_pos verifying]
    by_cases enough : (w.activeRecord c).2.verifyCount ≤ w.carrier.passes st
    · rw [if_pos enough]
      obtain ⟨y, hy⟩ : ∃ y : StationWork, y = { v with carrier := { v.carrier with passCount := w.carrier.passes st } } := ⟨_, rfl⟩
      obtain ⟨hold, entered⟩ := StationWork.enterState_normal_told (c := c) (w := y) (by rw [hy, taken])
      have there : y.carrier.state = .verifying := by rw [hy]; exact state.trans verifying
      have pattern_ : y.activePattern = w.activePattern := by rw [hy, taken]
      have leave : y.carrier.leave = { y.carrier with passCount := 0, verifyTimer := none } := by
        unfold Carrier.leave
        split
        · rfl
        all_goals simp_all
      have told : y.told .normal =
          [.carrierState .normal w.carrier.level w.activePattern none w.carrier.muteConfirmed (w.carrier.rfPresent == some true)] := by
        unfold StationWork.told
        rw [if_neg (by rw [there]; decide), leave, pattern_, hy, taken]
      have record' : y.activeRecord c = w.activeRecord c := by rw [hy, taken]; rfl
      have stays : stayChanges y.carrier.state .normal = false := by rw [there]; rfl
      have done : StationWork.verified c y = { y with
          carrier := { y.carrier with
            passCount := 0, verifyTimer := none, state := .normal, verifyRequired := false, holdTimer := hold }
          out := w.out ++ w.noticed st ++ w.verifiedNotices c } := by
        unfold StationWork.verified
        rw [entered, told, leave, record', if_neg (by rw [stays]; exact Bool.false_ne_true),
          pattern_]
        unfold StationWork.post StationWork.verifiedNotices
        rw [hy, taken]
        simp only [List.append_assoc, List.cons_append, List.nil_append]
      rw [← hy, done]
      exact {
        reported := by rw [hy, taken]; exact ⟨rfl, rfl, rfl, rfl⟩
        arrayStatus := by rw [hy, taken]
        lastStatus := by rw [hy, taken]
        notifiedStatus := by rw [hy, taken]
        other := fun h => absurd verifying h
        continued := fun _ few => absurd enough (Nat.not_le_of_lt few)
        succeeded := fun _ _ => ⟨rfl, rfl, rfl, rfl, rfl⟩ }
    · rw [if_neg enough, taken]
      exact {
        reported := ⟨rfl, rfl, rfl, rfl⟩
        arrayStatus := rfl
        lastStatus := rfl
        notifiedStatus := rfl
        other := fun h => absurd verifying h
        continued := fun _ _ => ⟨verifying, rfl, rfl, rfl⟩
        succeeded := fun _ many => absurd many enough }
  · rw [if_neg verifying, taken]
    exact {
      reported := ⟨rfl, rfl, rfl, rfl⟩
      arrayStatus := rfl
      lastStatus := rfl
      notifiedStatus := rfl
      other := fun _ => ⟨rfl, rfl, rfl⟩
      continued := fun h => absurd h verifying
      succeeded := fun h => absurd h verifying }

end

end Machine
end Sys2Proof

/-! PROOFS. A kept measurement (R99 to R112): the window it joins, the figures it brings, and the array status. -/
namespace Sys2Proof
namespace Machine

/-! ### The worst of some statuses (R112) -/

theorem Status.rank_injective {s t : Status} (h : s.rank = t.rank) : s = t := by
  cases s <;> cases t <;> simp_all [Status.rank]

theorem Status.rank_worse (s t : Status) : (s.worse t).rank = max s.rank t.rank ∧ (s.worse t = s ∨ s.worse t = t) := by
  unfold Status.worse
  split
  · next h => exact ⟨(max_eq_right (Nat.le_of_lt h)).symm, .inr rfl⟩
  · next h => exact ⟨(max_eq_left (Nat.le_of_not_lt h)).symm, .inl rfl⟩

/-- The worst of some statuses is one of them, or the one begun with, and no better than any. -/
theorem foldl_worse_spec {α : Type} (f : α → Status) (l : List α) (s : Status) :
    let worst := l.foldl (fun (worst : Status) a => worst.worse (f a)) s
    (worst = s ∨ ∃ a ∈ l, f a = worst) ∧ s.rank ≤ worst.rank ∧ ∀ a ∈ l, (f a).rank ≤ worst.rank := by
  induction l generalizing s with
  | nil => exact ⟨.inl rfl, le_rfl, fun a h => by cases h⟩
  | cons a l ih =>
    obtain ⟨one, least, all⟩ := ih (s.worse (f a))
    obtain ⟨rank, which⟩ := s.rank_worse (f a)
    rw [rank] at least
    refine ⟨?_, (le_max_left _ _).trans least, fun b hb => ?_⟩
    · rcases one with h | ⟨b, hb, h⟩
      · rcases which with k | k
        · exact .inl (h.trans k)
        · exact .inr ⟨a, List.mem_cons_self, (h.trans k).symm⟩
      · exact .inr ⟨b, List.mem_cons_of_mem a hb, h⟩
    · rcases List.mem_cons.1 hb with rfl | hb
      · exact (le_max_right _ _).trans least
      · exact all b hb

/-- The worst of some statuses, by what stands among them (R112). -/
theorem foldl_worse_iff {α : Type} (f : α → Status) (l : List α) :
    let worst := l.foldl (fun (worst : Status) a => worst.worse (f a)) .inTolerance
    let among (s : Status) : Prop := ∃ a ∈ l, f a = s
    (worst = .out ↔ among .out) ∧ (worst = .unknown ↔ ¬among .out ∧ among .unknown) ∧
      (worst = .advisory ↔ ¬among .out ∧ ¬among .unknown ∧ among .advisory) := by
  intro worst among
  obtain ⟨one, -, all⟩ := foldl_worse_spec f l .inTolerance
  have least {s : Status} (h : among s) : s.rank ≤ worst.rank := by
    obtain ⟨a, ha, rfl⟩ := h
    exact all a ha
  have there {s : Status} (h : worst = s) (hs : s ≠ .inTolerance) : among s := by
    rcases one with k | k
    · exact absurd (h.symm.trans k) hs
    · rw [← h]
      exact k
  have above {s t : Status} (h : among s) (k : worst = t) : s.rank ≤ t.rank := k ▸ least h
  refine ⟨⟨fun h => there h (by decide), fun h => ?_⟩, ⟨fun h => ⟨fun k => ?_, there h (by decide)⟩, fun ⟨no, h⟩ => ?_⟩,
    ⟨fun h => ⟨fun k => ?_, fun k => ?_, there h (by decide)⟩, fun ⟨no, none_, h⟩ => ?_⟩⟩
  · have := least h
    cases hw : worst with
    | out => rfl
    | unknown => rw [hw] at this; exact absurd this (by decide)
    | inTolerance => rw [hw] at this; exact absurd this (by decide)
    | advisory => rw [hw] at this; exact absurd this (by decide)
  · exact absurd (above k h) (by decide)
  · have := least h
    cases hw : worst with
    | unknown => rfl
    | out => exact absurd (there hw (by decide)) no
    | inTolerance => rw [hw] at this; exact absurd this (by decide)
    | advisory => rw [hw] at this; exact absurd this (by decide)
  · exact absurd (above k h) (by decide)
  · exact absurd (above k h) (by decide)
  · have := least h
    cases hw : worst with
    | advisory => rfl
    | out => exact absurd (there hw (by decide)) no
    | unknown => exact absurd (there hw (by decide)) none_
    | inTolerance => rw [hw] at this; exact absurd this (by decide)

/-! ### A channel judged (R107, R110, R111) -/

theorem Figures.towerStatus_figuresOf (t : TowerParameters) (advisory : Nat) (samples : List Sample) :
    let f := figuresOf t advisory samples
    f.towerStatus = if f.ratioStatus = .out ∨ f.phaseStatus = .out then .out
      else if f.ratioStatus = .advisory ∨ f.phaseStatus = .advisory then .advisory else .inTolerance := by
  intro f
  have known (deviation : Int) (tolerance advisory : Nat) : quantityStatus deviation tolerance advisory ≠ .unknown := by
    unfold quantityStatus
    split
    · decide
    · split <;> decide
  have ratio : f.ratioStatus ≠ .unknown := known _ _ _
  have phase : f.phaseStatus ≠ .unknown := known _ _ _
  unfold Figures.towerStatus Status.worse
  cases hr : f.ratioStatus <;> cases hp : f.phaseStatus <;> simp_all [Status.rank]

section
variable {t : TowerParameters} {advisory window : Nat} {ch : Channel}

theorem Channel.evaluated_kept : (ch.evaluated t advisory window).window = ch.window ∧
    (ch.evaluated t advisory window).stale = ch.stale ∧ (ch.evaluated t advisory window).staleTimer = ch.staleTimer := by
  unfold Channel.evaluated
  split <;> exact ⟨rfl, rfl, rfl⟩

/-- The figures of a channel with samples, of the newest of them. -/
theorem Channel.evaluated_figures (h : ch.window ≠ []) :
    (ch.evaluated t advisory window).figures = some (figuresOf t advisory (ch.window.reverse.take window).reverse) ∧
    (ch.evaluated t advisory window).towerStatus =
      (figuresOf t advisory (ch.window.reverse.take window).reverse).towerStatus := by
  have newest : ch.window.drop (ch.window.length - min ch.window.length window) = (ch.window.reverse.take window).reverse := by
    rw [List.take_reverse, List.reverse_reverse]
    congr 1
    omega
  unfold Channel.evaluated
  split
  · next empty => exact absurd empty h
  · rw [newest]
    exact ⟨rfl, rfl⟩

theorem Channel.evaluated_empty (h : ch.window = []) :
    (ch.evaluated t advisory window).figures = none ∧ (ch.evaluated t advisory window).towerStatus = .unknown := by
  unfold Channel.evaluated
  rw [h]
  exact ⟨rfl, rfl⟩

end

/-! ### The sorting of a measurement (R99) -/

theorem sorting_noReference {reference floor period delay : Nat} (h : reference < floor) :
    sorting reference floor period delay = .noReference := if_pos h

theorem sorting_valid {reference floor period delay : Nat} (present : floor ≤ reference)
    (phase : 6080 ≤ period ∧ period ≤ 6720 ∧ delay < period) : sorting reference floor period delay = .valid := by
  unfold sorting
  rw [if_neg (Nat.not_lt_of_le present), if_neg (by omega)]

theorem sorting_phaseInvalid {reference floor period delay : Nat} (present : floor ≤ reference)
    (phase : ¬(6080 ≤ period ∧ period ≤ 6720 ∧ delay < period)) : sorting reference floor period delay = .phaseInvalid := by
  unfold sorting
  rw [if_neg (Nat.not_lt_of_le present), if_pos (by omega)]

/-! ### What a kept measurement leaves (R99 to R107) -/

/-- The towers judged afresh: each monitored channel from its own window, and no other record. -/
theorem StationWork.judgeTowers_eq (c : Ctx) (w : StationWork) : ∃ channels, w.judgeTowers c = { w with channels := channels } ∧
    (∀ j : TowerNo, channels[j].window = w.channels[j].window ∧ channels[j].stale = w.channels[j].stale ∧
      channels[j].staleTimer = w.channels[j].staleTimer) ∧
    ∀ q, w.activePattern = some q → ∀ j : TowerNo, channels[j] =
      if j.val + 2 ≤ (pattern c.image c.station q).towers then
        w.channels[j].evaluated (towerParameters c.image c.station q j) (pattern c.image c.station q).advisory
          (pattern c.image c.station q).window
      else w.channels[j] := by
  unfold StationWork.judgeTowers
  cases active : w.activePattern with
  | none => exact ⟨w.channels, by show w = _; rw [← active], fun j => ⟨rfl, rfl, rfl⟩, fun q h => by cases h⟩
  | some p =>
    refine ⟨_, rfl, fun j => ?_, fun q h j => ?_⟩
    · simp only [Fin.getElem_fin, Vector.getElem_ofFn]
      split
      · exact Channel.evaluated_kept
      · exact ⟨rfl, rfl, rfl⟩
    · cases h
      simp only [Fin.getElem_fin, Vector.getElem_ofFn]

section
variable {c : Ctx} {w : StationWork} {m : Measurement} {reference tower period delay : Nat}

/-- The sample of a valid measurement (R104 to R106). -/
def Measurement.sample (m : Measurement) (reference tower period delay : Nat) : Sample :=
  ⟨sampleRatio (correctedAmplitude reference m.referenceTrim) (correctedAmplitude tower m.towerTrim), samplePhase period delay⟩

/-- The station's channels with a sample taken (R106). -/
def StationUnit.sampled (c : Ctx) (m : Measurement) (sample : Sample) (u : StationUnit) : Vector Channel 5 :=
  u.channels.set m.entry.tower
    (u.channels[m.entry.tower].withSample sample (c.now + Config.seconds (settings c.image c.station).staleTime))

theorem StationUnit.sampled_get (c : Ctx) (m : Measurement) (sample : Sample) (u : StationUnit) (j : TowerNo) :
    (u.sampled c m sample)[j] = if j = m.entry.tower then
      u.channels[j].withSample sample (c.now + Config.seconds (settings c.image c.station).staleTime) else u.channels[j] := by
  unfold StationUnit.sampled
  by_cases h : j = m.entry.tower
  · rw [if_pos h, h]
    simp
  · rw [if_neg h]
    have : (m.entry.tower : Nat) ≠ j := fun he => h (Fin.ext he.symm)
    simp [Vector.getElem_set_ne, this]

/-- A measurement that is no valid sample: the reference record, and a status report (R99, R100). -/
theorem StationWork.keptMeasurement_invalid (h : sorting (correctedAmplitude reference m.referenceTrim) m.floor period delay ≠ .valid) :
    w.keptMeasurement m reference tower period delay c = StationWork.statusReport c { w with
      reference := ⟨correctedAmplitude reference m.referenceTrim,
        decide (m.floor ≤ correctedAmplitude reference m.referenceTrim)⟩ } := by
  unfold StationWork.keptMeasurement
  dsimp only
  split
  · rfl
  · rfl
  · next valid => exact absurd valid h

/-- A valid sample: the reference record, the window, the towers judged, and an evaluation (R101, R106, R107). -/
theorem StationWork.keptMeasurement_valid (h : sorting (correctedAmplitude reference m.referenceTrim) m.floor period delay = .valid) :
    w.keptMeasurement m reference tower period delay c = StationWork.evaluationReport c (StationWork.judgeTowers c { w with
      reference := ⟨correctedAmplitude reference m.referenceTrim,
        decide (m.floor ≤ correctedAmplitude reference m.referenceTrim)⟩
      channels := w.sampled c m (m.sample reference tower period delay) }) := by
  unfold StationWork.keptMeasurement
  simp only [h]
  rfl

end

end Machine
end Sys2Proof

/-! PROOFS. MEASUREMENT_COMPLETION (R98 to R112, R122, R123, R127, R131): a kept measurement, and the scan that goes on. -/
namespace Sys2Proof
namespace Machine

/-! ### What a kept measurement leaves of every station (R98 to R107) -/

/-- The measurement is a valid sample (R99). -/
def Measurement.Valid (m : Measurement) (reference period delay : Nat) : Prop :=
  m.floor ≤ correctedAmplitude reference m.referenceTrim ∧ 6080 ≤ period ∧ period ≤ 6720 ∧ delay < period

section
variable {c : Ctx} {w : StationWork} {m : Measurement} {reference tower period delay : Nat}

/-- A kept measurement writes the reference record, and its sample joins its own window alone (R100, R106). -/
structure StationWork.Sampled (m : Measurement) (reference tower period delay : Nat) (w r : StationWork) : Prop where
  written : r.reference = ⟨correctedAmplitude reference m.referenceTrim,
    decide (m.floor ≤ correctedAmplitude reference m.referenceTrim)⟩
  activePattern : r.activePattern = w.activePattern
  scanStay : r.scanStay = w.scanStay
  joined : m.Valid reference period delay → r.channels[m.entry.tower].window =
    (let grown := w.channels[m.entry.tower].window ++ [m.sample reference tower period delay]
     if 8 < grown.length then grown.tail else grown)
  other : ∀ j : TowerNo, ¬(j = m.entry.tower ∧ m.Valid reference period delay) → r.channels[j].window = w.channels[j].window

theorem sorting_valid_iff : sorting (correctedAmplitude reference m.referenceTrim) m.floor period delay = .valid ↔
    m.Valid reference period delay := by
  unfold Measurement.Valid
  constructor
  · intro h
    by_contra no
    by_cases present : m.floor ≤ correctedAmplitude reference m.referenceTrim
    · rw [sorting_phaseInvalid present fun h => no ⟨present, h⟩] at h
      cases h
    · rw [sorting_noReference (Nat.lt_of_not_le present)] at h
      cases h
  · rintro ⟨present, phase⟩
    exact sorting_valid present phase

/-- The station as a valid sample's evaluation finds it: the towers judged with the sample in its window. -/
structure StationWork.Judged (c : Ctx) (m : Measurement) (reference tower period delay : Nat) (w y : StationWork) : Prop where
  eq : y = { w with
    reference := ⟨correctedAmplitude reference m.referenceTrim, decide (m.floor ≤ correctedAmplitude reference m.referenceTrim)⟩
    channels := y.channels }
  samples : ∀ j : TowerNo, y.channels[j].window = (w.sampled c m (m.sample reference tower period delay))[j].window ∧
    y.channels[j].stale = (w.sampled c m (m.sample reference tower period delay))[j].stale ∧
    y.channels[j].staleTimer = (w.sampled c m (m.sample reference tower period delay))[j].staleTimer
  judged : ∀ q, w.activePattern = some q → ∀ j : TowerNo, y.channels[j] =
    if j.val + 2 ≤ (pattern c.image c.station q).towers then
      (w.sampled c m (m.sample reference tower period delay))[j].evaluated (towerParameters c.image c.station q j)
        (pattern c.image c.station q).advisory (pattern c.image c.station q).window
    else (w.sampled c m (m.sample reference tower period delay))[j]

theorem StationWork.keptMeasurement_judged (valid : m.Valid reference period delay) : ∃ y : StationWork,
    w.Judged c m reference tower period delay y ∧
    w.keptMeasurement m reference tower period delay c = y.evaluationReport c := by
  obtain ⟨channels, eq, kept, judged⟩ := StationWork.judgeTowers_eq c { w with
    reference := ⟨correctedAmplitude reference m.referenceTrim, decide (m.floor ≤ correctedAmplitude reference m.referenceTrim)⟩
    channels := w.sampled c m (m.sample reference tower period delay) }
  refine ⟨_, ⟨?_, ?_, ?_⟩, StationWork.keptMeasurement_valid (sorting_valid_iff.2 valid)⟩
  all_goals rw [eq]
  · exact kept
  · exact judged

theorem StationWork.keptMeasurement_sampled (measured : w.carrier.state.measured = true) :
    w.Sampled m reference tower period delay (w.keptMeasurement m reference tower period delay c) := by
  by_cases valid : m.Valid reference period delay
  · obtain ⟨y, judged, report⟩ := StationWork.keptMeasurement_judged (c := c) (w := w) (tower := tower) valid
    have there : y.carrier.state.measured = true := by rw [judged.eq]; exact measured
    have reported := (StationWork.evaluationReport_evaluated (c := c) there).reported
    rw [report]
    refine ⟨?_, ?_, ?_, fun _ => ?_, fun j other => ?_⟩
    · rw [reported.reference, judged.eq]
    · rw [reported.activePattern, judged.eq]
    · rw [reported.scanStay, judged.eq]
    · rw [reported.channels, (judged.samples _).1, StationUnit.sampled_get, if_pos rfl]
      rfl
    · rw [reported.channels, (judged.samples j).1, StationUnit.sampled_get, if_neg fun h => other ⟨h, valid⟩]
  · rw [StationWork.keptMeasurement_invalid fun h => valid (sorting_valid_iff.1 h)]
    have reported := (StationWork.statusReport_measured (c := c) (w := { w with
      reference := ⟨correctedAmplitude reference m.referenceTrim,
        decide (m.floor ≤ correctedAmplitude reference m.referenceTrim)⟩ }) measured).1
    exact ⟨reported.reference, reported.activePattern, reported.scanStay, fun h => absurd h valid,
      fun j _ => by rw [reported.channels]⟩

/-- The windows after a kept measurement, channel by channel (R106). -/
theorem StationWork.Sampled.windows {r : StationWork} (h : w.Sampled m reference tower period delay r) :
    r.channels.toList.map (fun c => c.window) = w.channels.toList.mapIdx fun j c =>
      if j = m.entry.tower.val ∧ m.floor ≤ correctedAmplitude reference m.referenceTrim ∧ 6080 ≤ period ∧ period ≤ 6720 ∧
          delay < period then
        (let grown := c.window ++ [m.sample reference tower period delay]
         if 8 < grown.length then grown.tail else grown)
      else c.window := by
  refine List.ext_getElem (by simp) fun n hn _ => ?_
  rw [List.length_map, Vector.length_toList] at hn
  simp only [List.getElem_map, List.getElem_mapIdx, Vector.getElem_toList]
  by_cases mine : n = m.entry.tower.val ∧ m.floor ≤ correctedAmplitude reference m.referenceTrim ∧ 6080 ≤ period ∧ period ≤ 6720 ∧
      delay < period
  · rw [if_pos mine]
    obtain ⟨rfl, valid⟩ := mine
    exact h.joined valid
  · rw [if_neg mine]
    exact h.other ⟨n, hn⟩ fun ⟨at_, valid⟩ => mine ⟨congrArg Fin.val at_, valid⟩

/-- A NO_REF measurement: the array status is UNKNOWN (R99, R100, R112, R127). -/
theorem StationWork.keptMeasurement_absent (measured : w.carrier.state.measured = true)
    (absent : correctedAmplitude reference m.referenceTrim < m.floor) :
    let r := w.keptMeasurement m reference tower period delay c
    r.arrayStatus = .unknown ∧ (w.arrayStatus ≠ .unknown → r.carrier.lastStatus = .unknown ∧
      (w.carrier.state = .normal → r.carrier.holdTimer = none)) := by
  intro r
  obtain ⟨y, hy⟩ : ∃ y : StationWork, y = { w with
      reference := ⟨correctedAmplitude reference m.referenceTrim,
        decide (m.floor ≤ correctedAmplitude reference m.referenceTrim)⟩ } := ⟨_, rfl⟩
  have hr : r = y.statusReport c := by
    rw [hy]
    exact StationWork.keptMeasurement_invalid (by rw [sorting_noReference absent]; decide)
  have unknown : y.toStationUnit.decideStatus c = .unknown := by
    unfold StationUnit.decideStatus
    have no : y.reference.present = false := by rw [hy]; exact decide_eq_false (Nat.not_le_of_lt absent)
    rw [no]
    split <;> rfl
  obtain ⟨-, -, status, changed⟩ := StationWork.statusReport_measured (c := c) (w := y) (by rw [hy]; exact measured)
  rw [unknown, ← hr] at status changed
  refine ⟨status, fun other => ?_⟩
  obtain ⟨last, hold⟩ := changed fun same => other (by rw [hy] at same; exact same.symm)
  refine ⟨last, fun normal => ?_⟩
  rw [hold, hy]
  unfold Carrier.supervised
  rw [if_pos normal, if_neg (by decide)]

/-! ### What a valid sample leaves (R106, R107, R111, R112) -/

section
variable {y r : StationWork} (judged : w.Judged c m reference tower period delay y) (reported : y.Reported r)
include judged reported

/-- The sampled channel's stale flag and timer, and every other's (R106). -/
theorem StationWork.Judged.stale : r.channels[m.entry.tower].stale = false ∧
    r.channels[m.entry.tower].staleTimer = some (c.now + Config.seconds (settings c.image c.station).staleTime) ∧
    ∀ j : TowerNo, j ≠ m.entry.tower → r.channels[j].stale = w.channels[j].stale ∧
      r.channels[j].staleTimer = w.channels[j].staleTimer := by
  rw [reported.channels]
  refine ⟨?_, ?_, fun j other => ⟨?_, ?_⟩⟩
  · rw [(judged.samples _).2.1, StationUnit.sampled_get, if_pos rfl]
    rfl
  · rw [(judged.samples _).2.2, StationUnit.sampled_get, if_pos rfl]
    rfl
  · rw [(judged.samples j).2.1, StationUnit.sampled_get, if_neg other]
  · rw [(judged.samples j).2.2, StationUnit.sampled_get, if_neg other]

/-- The figures and the status of each tower (R107, R111). -/
theorem StationWork.Judged.figures {q : PatternNo} (active : w.activePattern = some q) (j : TowerNo) :
    let ch := r.channels[j]
    let record := pattern c.image c.station q
    let f := figuresOf (towerParameters c.image c.station q j) record.advisory (ch.window.reverse.take record.window).reverse
    (j.val + 2 ≤ record.towers → ch.window ≠ [] → ch.figures = some f ∧
      ch.towerStatus = if f.ratioStatus = .out ∨ f.phaseStatus = .out then .out
        else if f.ratioStatus = .advisory ∨ f.phaseStatus = .advisory then .advisory else .inTolerance) ∧
    (j.val + 2 ≤ record.towers → ch.window = [] → ch.figures = none ∧ ch.towerStatus = .unknown) ∧
    (record.towers < j.val + 2 → ch.figures = w.channels[j].figures ∧ ch.towerStatus = w.channels[j].towerStatus) := by
  intro ch record f
  have own : ch = y.channels[j] := by
    show r.channels[j] = _
    rw [reported.channels]
  have window : ch.window = (w.sampled c m (m.sample reference tower period delay))[j].window := by
    rw [own, (judged.samples j).1]
  have evaluated := judged.judged q active j
  rw [← own] at evaluated
  refine ⟨fun monitored some_ => ?_, fun monitored empty => ?_, fun beyond => ?_⟩
  · rw [if_pos monitored] at evaluated
    obtain ⟨figures, status⟩ := Channel.evaluated_figures (t := towerParameters c.image c.station q j)
      (advisory := record.advisory) (window := record.window) (window ▸ some_)
    rw [← window] at figures status
    refine ⟨(congrArg Channel.figures evaluated).trans figures, ?_⟩
    exact ((congrArg Channel.towerStatus evaluated).trans status).trans (Figures.towerStatus_figuresOf _ _ _)
  · rw [if_pos monitored] at evaluated
    obtain ⟨figures, status⟩ := Channel.evaluated_empty (t := towerParameters c.image c.station q j)
      (advisory := record.advisory) (window := record.window) (window ▸ empty)
    exact ⟨(congrArg Channel.figures evaluated).trans figures, (congrArg Channel.towerStatus evaluated).trans status⟩
  · rw [if_neg (Nat.not_le_of_lt beyond), StationUnit.sampled_get] at evaluated
    rw [evaluated]
    split <;> exact ⟨rfl, rfl⟩

/-- The status decided is the worst of the towers' (R112). -/
theorem StationWork.Judged.status (present : m.floor ≤ correctedAmplitude reference m.referenceTrim) {q : PatternNo}
    (active : w.activePattern = some q) :
    let st := y.toStationUnit.decideStatus c
    let among (s : Status) : Prop := ∃ j : TowerNo, j.val + 2 ≤ (pattern c.image c.station q).towers ∧ r.channels[j].towerStatus = s
    (st = .out ↔ among .out) ∧ (st = .unknown ↔ ¬among .out ∧ among .unknown) ∧
      (st = .advisory ↔ ¬among .out ∧ ¬among .unknown ∧ among .advisory) := by
  have worst : y.toStationUnit.decideStatus c = (monitoredTowers c.image c.station q).foldl
      (fun (worst : Status) i => worst.worse y.channels[i].towerStatus) .inTolerance := by
    unfold StationUnit.decideStatus
    have pattern_ : y.activePattern = some q := by rw [judged.eq]; exact active
    have there : y.reference.present = true := by rw [judged.eq]; exact decide_eq_true present
    rw [pattern_, there]
    rfl
  have iff := foldl_worse_iff (fun i : TowerNo => y.channels[i].towerStatus) (monitoredTowers c.image c.station q)
  simp only [mem_monitoredTowers] at iff
  rw [worst, reported.channels]
  exact iff

/-- The statuses, the hold timer, the verification and the notices that a valid sample's evaluation leaves (R113, R122, R123,
R127, R131). -/
theorem StationWork.Judged.told {q : PatternNo} (active : w.activePattern = some q) (silent : w.out = [])
    (evaluated : y.Evaluated c r.arrayStatus r) :
    let record := pattern c.image c.station q
    let passes := w.carrier.passes r.arrayStatus
    let noticed : List Notice := if r.arrayStatus = w.carrier.notifiedStatus then [] else
      [.arrayStatus (some q) r.arrayStatus w.carrier.notifiedStatus (Vector.ofFn fun j : TowerNo => r.channels[j].towerStatus)]
    (w.carrier.state ≠ .verifying → r.carrier.holdTimer = w.carrier.supervised c r.arrayStatus ∧ r.out = noticed) ∧
    (w.carrier.state = .verifying →
      (passes < record.verifyCount → r.carrier.state = .verifying ∧ r.carrier.passCount = passes ∧
        r.carrier.verifyTimer = w.carrier.verifyTimer) ∧
      (record.verifyCount ≤ passes → r.carrier.state = .normal ∧ r.carrier.passCount = 0 ∧ r.carrier.verifyTimer = none ∧
        r.carrier.verifyRequired = false ∧ r.out = noticed ++
          [.carrierState .normal w.carrier.level (some q) none w.carrier.muteConfirmed (w.carrier.rfPresent == some true),
            .verified (some q) record.verifyCount ((c.now - w.carrier.verifyEntered) / Config.seconds 1)])) := by
  intro record passes noticed
  have own : y.carrier = w.carrier := by rw [judged.eq]
  have on : y.activePattern = some q := by rw [judged.eq]; exact active
  have empty : y.out = [] := by rw [judged.eq]; exact silent
  have towers : y.noticed r.arrayStatus = noticed := by
    unfold StationWork.noticed
    rw [own, on, ← reported.channels]
  obtain ⟨-, -, -, -, other, continued, succeeded⟩ := evaluated
  rw [own, empty, towers, List.nil_append] at other
  rw [own, StationWork.activeRecord_of_active on] at continued
  unfold StationWork.verifiedNotices at succeeded
  rw [own, on, empty, towers, List.nil_append, StationWork.activeRecord_of_active on] at succeeded
  refine ⟨fun h => ?_, fun h => ⟨fun few => ?_, succeeded h⟩⟩
  · obtain ⟨-, hold, out⟩ := other h
    exact ⟨hold, out⟩
  · obtain ⟨state, count, timer, -⟩ := continued h few
    exact ⟨state, count, timer⟩

end

end

/-! ### The event (R96, R98) -/

/-- An event whose work ends with the scan list recomputed, no measurement in progress. -/
theorem State.event_restarts {f : Work → Work} {s : State} {z : Work} (hz : f s.work = z.recomputeScan)
    (idle : z.measurement = none) (last : z.lastEntry = s.lastEntry)
    (stays : ∀ y, (z.stations.get y).scanStay = (s.stations.get y).scanStay) :
    State.Left z s (s.event f) ∧ (s.event f).ScanRestarts s.lastEntry := by
  have posts : z.recomputeScan.posts = z.posts := by
    unfold Work.recomputeScan
    dsimp only
    split <;> rfl
  have left := State.event_left hz
  have kept (y : Station) : ((f s.work).stations.get y).scanStay = (s.stations.get y).scanStay := by
    rw [hz, Work.recomputeScan_field Plant.stations fun _ _ _ _ => rfl]
    exact stays y
  refine ⟨⟨fun g hg => (left.field g hg).trans (Work.recomputeScan_field g hg z), by rw [left.ports, posts]⟩, ?_⟩
  rw [← last]
  refine Work.recomputeScan_restarts idle ?_
  rw [State.event_eq f s kept, hz, State.finish_toPlant]

/-- A measurement that completes, kept or not (R98). -/
theorem Work.measured_due {rawReference rawTower : Nat} {crossings towerCrossings : List Nat} {w : Work} {m : Measurement}
    (running : w.measurement = some m) : w.measured rawReference rawTower crossings towerCrossings =
      (if ({ w.reach m.due with measurement := none } : Work).keeps m then
        (Work.onStation m.entry.station (StationWork.keptMeasurement m (converterCode rawReference) (converterCode rawTower)
          (periodCount crossings) (delayCount crossings towerCrossings))
          { w.reach m.due with measurement := none }).restoreCheck.examinePending
      else { w.reach m.due with measurement := none }).recomputeScan := by
  unfold Work.measured
  rw [running]
  rfl

/-- A requester of CONFIRM that reaches NORMAL ends the transition (R46). -/
theorem Work.restoreCheck_confirmed {t : Transition} {w : Work} (ht : w.transition = some t) (phase : t.phase = .confirm)
    (h : (w.carrier t.station).state = .normal) : w.restoreCheck = w.endTransition (t.result.getD .completed) := by
  unfold Work.restoreCheck
  rw [ht]
  dsimp only
  rw [phase, h]

/-- Settles O42: a measurement dropped, or kept with what its sorting brings, and the next one begun. -/
theorem measurementCompletes : Obligations.MeasurementCompletes := by
  intro rawReference rawTower crossings towerCrossings s
  refine ⟨fun idle => congrArg Host.Outcome.next (State.event_idle ?_), fun m running empty => ?_⟩
  · unfold Work.measured
    rw [show s.work.measurement = none from idle]
  intro x i now kept reference tower period delay phaseOk
  obtain ⟨w, hw⟩ : ∃ w : Work, w = { s.work.reach m.due with measurement := none } := ⟨_, rfl⟩
  have due := Work.measured_due (rawReference := rawReference) (rawTower := rawTower) (crossings := crossings)
    (towerCrossings := towerCrossings) (w := s.work) running
  rw [← hw] at due
  have keeps : w.keeps m = true ↔ kept := by
    unfold Plant.keeps
    rw [hw, Bool.and_eq_true, beq_iff_eq]
    rfl
  obtain ⟨u, hu⟩ : ∃ u, u = s.event (Work.measured rawReference rawTower crossings towerCrossings) := ⟨_, rfl⟩
  have happens : exec (.measurementCompletion rawReference rawTower crossings towerCrossings) s = .next u := by rw [hu]; rfl
  by_cases hk : kept
  · obtain ⟨c, hc⟩ : ∃ c : Ctx, c = ⟨x, s.activeImage, now⟩ := ⟨_, rfl⟩
    obtain ⟨b, hb⟩ : ∃ b : StationWork, b = { toStationUnit := s.stations.get x, out := [] } := ⟨_, rfl⟩
    obtain ⟨r, hr⟩ : ∃ r, r = b.keptMeasurement m (converterCode rawReference) (converterCode rawTower) period delay c := ⟨_, rfl⟩
    obtain ⟨v, hv⟩ : ∃ v : Work, v = { w with
        stations := s.stations.set x r.toStationUnit, posts := r.out.map fun n => (x, n) } := ⟨_, rfl⟩
    have measured : b.carrier.state.measured = true := by rw [hb]; exact hk.1
    have sampled : b.Sampled m (converterCode rawReference) (converterCode rawTower) period delay r :=
      hr ▸ StationWork.keptMeasurement_sampled measured
    have stepped : w.onStation x (StationWork.keptMeasurement m (converterCode rawReference) (converterCode rawTower) period delay) = v := by
      rw [Work.onStation_of (u := r) (by rw [hr, hb, hc, hw]; rfl), hv, hw]
      rfl
    have unit (y : Station) : v.stations.get y = if y = x then r.toStationUnit else s.stations.get y := by
      rw [hv]
      by_cases hy : y = x
      · rw [if_pos hy, hy]
        exact Pair.get_set_self _ _ _
      · rw [if_neg hy]
        exact Pair.get_set_of_ne _ _ hy
    have transition : v.transition = s.transition := by rw [hv, hw]; rfl
    have field {α : Type} (g : Plant → α) (hg : ∀ (p : Plant) transition consent defer writing queue image last holds,
        g { p with transition := transition, consentTimer := consent, deferTimer := defer, writing := writing, writeQueue := queue,
                   imageRecord := image, lastRecord := last, retryHold := holds } = g p) :
        g v.restoreCheck.toPlant = g v.toPlant := Work.restoreCheck_field g hg v
    have still : v.restoreCheck.examinePending = v.restoreCheck := by
      refine Work.examinePending_of_empty ?_
      rw [field Plant.pendingList fun _ _ _ _ _ _ _ _ _ => rfl, hv, hw]
      exact empty
    rw [if_pos (keeps.2 hk), stepped, still] at due
    have units := field Plant.stations fun _ _ _ _ _ _ _ _ _ => rfl
    obtain ⟨left, restarts⟩ := State.event_restarts due
      (by rw [field Plant.measurement fun _ _ _ _ _ _ _ _ _ => rfl, hv, hw])
      (by rw [field Plant.lastEntry fun _ _ _ _ _ _ _ _ _ => rfl, hv, hw]; rfl) fun y => by
        rw [units, unit]
        split
        · next hy => rw [sampled.scanStay, hb, hy]
        · rfl
    rw [← hu] at left restarts
    have stations (y : Station) : u.stations.get y = if y = x then r.toStationUnit else s.stations.get y := by
      rw [left.stations, units, unit]
    have mine : u.stations.get x = r.toStationUnit := (stations x).trans (if_pos rfl)
    have carrier : u.carrier x = r.carrier := congrArg StationUnit.carrier mine
    have same (y : Station) : v.stations.get y = u.stations.get y := (unit y).trans (stations y).symm
    have beforehand (y : Station) : v.active y = u.active y := congrArg StationUnit.activePattern (same y)
    have patterns (y : Station) : u.active y = s.active y := by
      unfold Plant.active
      rw [stations]
      split
      · next hy => rw [sampled.activePattern, hb, hy]
      · rfl
    refine ⟨u, happens, ?_, ?_, ?_, patterns, ?_, restarts, fun h => absurd hk h, fun _ => ⟨?_, ?_⟩, fun _ absent => ?_,
      fun _ present phase => ?_, fun settled goes_on => ?_⟩
    · rw [left.field Plant.elapsed fun _ _ _ _ => rfl, field Plant.elapsed fun _ _ _ _ _ _ _ _ _ => rfl, hv, hw]
      rfl
    · rw [left.contactors, field Plant.contactors fun _ _ _ _ _ _ _ _ _ => rfl, hv, hw]
      rfl
    · rw [stations, if_neg (by cases x <;> decide)]
    · rw [left.field Plant.activeImage fun _ _ _ _ => rfl, field Plant.activeImage fun _ _ _ _ _ _ _ _ _ => rfl, hv, hw]
      rfl
    · rw [mine]
      exact sampled.written
    · rw [mine]
      exact sampled.windows.trans (by rw [hb]; rfl)
    · rw [mine, carrier]
      have unknown := StationWork.keptMeasurement_absent (c := c) (w := b) (tower := converterCode rawTower) (period := period)
        (delay := delay) measured absent
      rw [hb] at unknown
      rw [hr, hb]
      exact unknown
    · obtain ⟨y, judged, report⟩ := StationWork.keptMeasurement_judged (c := c) (w := b) (m := m)
        (reference := converterCode rawReference) (tower := converterCode rawTower) (period := period) (delay := delay)
        ⟨present, phase⟩
      obtain ⟨st, hst⟩ : ∃ st, st = y.toStationUnit.decideStatus c := ⟨_, rfl⟩
      have evaluated : y.Evaluated c st r := by
        rw [hr, report, hst]
        exact StationWork.evaluationReport_evaluated (by rw [judged.eq]; exact measured)
      have told := evaluated.arrayStatus
      subst told
      have there : b.toStationUnit = s.stations.get x := by rw [hb]
      obtain ⟨fresh, timer, others⟩ := judged.stale evaluated.reported
      rw [there] at others
      rw [hc] at timer
      rw [mine, carrier]
      refine ⟨fresh, timer, others, fun q active => ?_⟩
      have on : b.activePattern = some q := by rw [hb]; exact active
      have figures := judged.figures evaluated.reported on
      have status := judged.status evaluated.reported present on
      rw [← hst] at status
      obtain ⟨out, unknown, advisory⟩ := status
      have mine : b.carrier = s.carrier x := by rw [hb]; rfl
      obtain ⟨other, verified⟩ := judged.told evaluated.reported on (by rw [hb]) evaluated
      rw [mine, hc] at other verified
      have posted : v.noticesTo x = r.out := by rw [hv]; exact filter_own x r.out
      rw [there, hc] at figures
      rw [hc] at out unknown advisory
      refine ⟨figures, out, unknown, advisory, evaluated.lastStatus, evaluated.notifiedStatus, fun normal => ?_,
        fun idle elsewhere clear => ?_, fun verifying => ?_⟩
      · rw [(other (by rw [normal]; decide)).1]
        unfold Carrier.supervised
        rw [if_pos normal]
        exact ⟨fun out fresh => by rw [if_pos out, if_neg fresh], fun out already => by rw [if_pos out, if_pos already],
          fun elsewhere => if_neg elsewhere⟩
      · obtain ⟨-, told⟩ := other elsewhere
        rw [Work.restoreCheck_of_idle (transition.trans idle)] at left
        rw [left.notices (by rw [clear, posted, told]; split <;> simp), clear, posted, told]
        rfl
      · intro passes
        obtain ⟨continued, succeeded⟩ := verified verifying
        refine ⟨continued, fun enough => ?_⟩
        obtain ⟨state, count, stopped, required, told⟩ := succeeded enough
        have few : r.out.length ≤ 3 := by rw [told]; split <;> simp
        refine ⟨state, count, stopped, required, ?_⟩
        intro news
        have queued : r.out = news := told
        refine ⟨fun clear idle => ?_, fun t moving owner confirm => ?_⟩
        · rw [Work.restoreCheck_of_idle (transition.trans idle)] at left
          rw [left.notices (by rw [clear, posted]; simp; omega), clear, posted, queued]
          rfl
        · have ended : v.restoreCheck = v.endTransition (t.result.getD .completed) :=
            Work.restoreCheck_confirmed (transition.trans moving) confirm (by
              rw [owner]
              show (v.stations.get x).carrier.state = _
              rw [unit, if_pos rfl]
              exact state)
          rw [ended] at left
          refine ⟨left.transition.trans (Work.endTransition_idle _ v).1, fun clear => ?_⟩
          have last := Work.endTransition_noticesTo (result := t.result.getD .completed) (transition.trans moving) x
          rw [if_pos (owner ▸ t.station_informed), posted, queued, owner,
            (beforehand .A).trans (patterns .A), (beforehand .B).trans (patterns .B)] at last
          rw [left.notices (by rw [clear, last, List.length_append, ← queued]; simp; omega), clear, last]
          rfl
    · rw [left.transition, Work.restoreCheck_open, transition]
      intro t active
      rw [transition] at active
      obtain ⟨-, -, restore, confirm⟩ := settled t active
      have own (y : Station) : v.carrier y = u.carrier y := congrArg StationUnit.carrier (same y)
      rw [own]
      by_cases owner : t.station = x
      · refine ⟨fun phase => ?_, fun phase normal => goes_on t active ⟨owner, phase, owner ▸ normal⟩⟩
        have unmeasured := restore phase
        rw [owner] at unmeasured
        exact absurd (hk.1.symm.trans unmeasured) (by decide)
      · have untouched : u.carrier t.station = s.carrier t.station :=
          congrArg StationUnit.carrier ((stations t.station).trans (if_neg owner))
        rw [untouched]
        exact ⟨restore, confirm⟩
  · rw [if_neg (fun h => hk (keeps.1 h))] at due
    obtain ⟨left, restarts⟩ := State.event_restarts due (by rw [hw]) (by rw [hw]; rfl) fun y => by rw [hw]; rfl
    rw [← hu] at left restarts
    have stations : u.stations = s.stations := left.stations.trans (by rw [hw]; rfl)
    have transition : u.transition = s.transition := left.transition.trans (by rw [hw]; rfl)
    exact ⟨u, happens, (left.field Plant.elapsed fun _ _ _ _ => rfl).trans (by rw [hw]; rfl),
      left.contactors.trans (by rw [hw]; rfl), by rw [stations], fun y => by unfold Plant.active; rw [stations],
      (left.field Plant.activeImage fun _ _ _ _ => rfl).trans (by rw [hw]; rfl), restarts, fun _ => ⟨by rw [stations], transition⟩,
      fun h => absurd h hk, fun h => absurd h hk, fun h => absurd h hk, fun _ _ => transition⟩

end Machine
end Sys2Proof

/-! PROOFS. What the operations of the Transition Engine leave of the drive (R38, R41, R55 to R57): most leave the coil driver and
the live contactor records as they are, and one that commands a move begins a pulse behind a CHECK that passes, or none. -/
namespace Sys2Proof
namespace Machine

/-! ### Operations that leave the drive alone -/

/-- The coil driver and the live contactor records are as they were. -/
structure Plant.KeepsDrive (p q : Plant) : Prop where
  driver : q.driver = p.driver
  contactors : q.contactors = p.contactors

theorem Plant.KeepsDrive.refl (p : Plant) : p.KeepsDrive p := ⟨rfl, rfl⟩

theorem Plant.KeepsDrive.trans {p q r : Plant} (h : p.KeepsDrive q) (k : q.KeepsDrive r) : p.KeepsDrive r :=
  ⟨k.driver.trans h.driver, k.contactors.trans h.contactors⟩

/-- Carrier commands do not reach the drive. -/
theorem Work.Tuned.keepsDrive {xs : List Station} {v w : Work} (h : v.Tuned xs w) : v.KeepsDrive w.toPlant :=
  ⟨h.field Plant.driver fun _ _ => rfl, h.field Plant.contactors fun _ _ => rfl⟩

theorem Work.postAll_keepsDrive (xs : List Station) (n : Notice) (w : Work) : w.KeepsDrive (w.postAll xs n).toPlant := by
  rw [Work.postAll_toPlant]
  exact .refl _

theorem Work.handLastState_keepsDrive (marker : Bool) (w : Work) : w.KeepsDrive (w.handLastState marker).toPlant := by
  rw [Work.handLastState_eq]
  exact ⟨rfl, rfl⟩

theorem Work.endTransition_keepsDrive (result : Result) (w : Work) : w.KeepsDrive (w.endTransition result).toPlant := by
  cases ht : w.transition with
  | none =>
    unfold Work.endTransition
    rw [ht]
    exact .refl _
  | some t =>
    obtain ⟨driver, contactors, -, -⟩ := Work.endTransition_frame result ht
    exact ⟨driver, contactors⟩

theorem Work.resolveAndEnd_keepsDrive (result : Result) (w : Work) : w.KeepsDrive (w.resolveAndEnd result).toPlant := by
  obtain ⟨driver, contactors, -, -⟩ := w.resolveAndEnd_frame result
  exact ⟨driver, contactors⟩

theorem Work.restoreCheck_keepsDrive (w : Work) : w.KeepsDrive w.restoreCheck.toPlant := by
  unfold Work.restoreCheck
  split
  · exact .refl _
  · split
    · exact ⟨rfl, rfl⟩
    · exact w.endTransition_keepsDrive _
    · exact w.endTransition_keepsDrive _
    · exact w.endTransition_keepsDrive _
    · exact .refl _

theorem Work.switchSuccess_keepsDrive (t : Transition) (w : Work) : w.KeepsDrive (w.switchSuccess t).toPlant := by
  have raised (v : Work) : v.KeepsDrive (t.restoreSet.foldl
      (fun w x => if x = t.station then w.onStation x StationWork.raiseToFull else w.raiseBack x) v).toPlant := by
    refine (Work.Tuned.foldl (fun w x => ?_) t.restoreSet v).keepsDrive
    split
    · exact Work.onStation_tuned w (StationWork.rampTo_posted _ _ _)
    · exact w.raiseBack_tuned x
  have restoring : w.KeepsDrive
      (Work.onTransition (fun t => { t with phase := .restore }) (w.setPattern t.station (some t.target))).toPlant := ⟨rfl, rfl⟩
  exact (restoring.trans (raised _)).trans (Work.restoreCheck_keepsDrive _)

theorem Work.reversalComplete_keepsDrive (t : Transition) (w : Work) : w.KeepsDrive (w.reversalComplete t).toPlant := by
  have brought (v : Work) : v.KeepsDrive (t.restoreSet.foldl (fun w x => w.endReversalFor t x) v).toPlant :=
    (Work.Tuned.foldl (fun w x => w.endReversalFor_tuned t x) t.restoreSet v).keepsDrive
  have restoring : w.KeepsDrive
      (Work.onTransition (fun u => { u with phase := .restore, result := some t.reversalResult }) w).toPlant := ⟨rfl, rfl⟩
  unfold Work.reversalComplete
  dsimp only
  split
  · exact ((brought w).trans (Work.handLastState_keepsDrive _ _)).trans (Work.endTransition_keepsDrive _ _)
  · split
    · exact (restoring.trans (brought _)).trans (Work.endTransition_keepsDrive _ _)
    · exact (restoring.trans (brought _)).trans (Work.restoreCheck_keepsDrive _)

theorem Work.beginLevelChange_keepsDrive (t : Transition) (w : Work) : w.KeepsDrive (w.beginLevelChange t).toPlant := by
  have announced : w.KeepsDrive
      (Work.announceStart t (Work.onTransition (fun t => { t with phase := .restore }) w)).toPlant :=
    Plant.KeepsDrive.trans (q := (Work.onTransition _ w).toPlant) ⟨rfl, rfl⟩ (Work.postAll_keepsDrive _ _ _)
  have changed (v : Work) : v.KeepsDrive
      ((v.setPattern t.station (some t.target)).onStation t.station (StationWork.levelChange t.previous)).toPlant := ⟨rfl, rfl⟩
  exact (announced.trans (changed _)).trans (Work.restoreCheck_keepsDrive _)

theorem Work.raiseBackAll_keepsDrive (xs : List Station) (w : Work) : w.KeepsDrive (w.raiseBackAll xs).toPlant :=
  (w.raiseBackAll_tuned xs).keepsDrive

theorem Work.withdrawQuery_keepsDrive (t : Transition) (w : Work) : w.KeepsDrive (w.withdrawQuery t).toPlant := by
  unfold Work.withdrawQuery
  split <;> exact ⟨rfl, rfl⟩

/-! ### Moves commanded -/

/-- A contactor's record is as it was, or the contactor is not FAILED and its pulse has begun (R57, R58). -/
def Live.Pulsed (l l' : Live) : Prop := l' = l ∨ l.state ≠ .failed ∧ l' = { l with state := .pulsing }

theorem Live.Pulsed.trans {l l' l'' : Live} (h : l.Pulsed l') (k : l'.Pulsed l'') : l.Pulsed l'' := by
  rcases h with rfl | ⟨sound, rfl⟩
  · exact k
  · rcases k with rfl | ⟨-, rfl⟩ <;> exact .inr ⟨sound, rfl⟩

/-- A FAILED contactor gets no pulse (R57). -/
theorem Live.Pulsed.failed {l l' : Live} (h : l.Pulsed l') (hf : l.state = .failed) : l' = l :=
  h.resolve_right fun k => k.1 hf

/-- A pulse leaves the position and the failure, and is no failure itself. -/
theorem Live.Pulsed.sound {l l' : Live} (h : l.Pulsed l') (hf : l.state ≠ .failed) :
    l'.position = l.position ∧ l'.failure = l.failure ∧ l'.state ≠ .failed := by
  rcases h with rfl | ⟨-, rfl⟩
  · exact ⟨rfl, rfl, hf⟩
  · exact ⟨rfl, rfl, by simp⟩

/-- From one part to the other pulses have begun, and nothing else has happened to a contactor's record. -/
def Plant.Pulses (p q : Plant) : Prop := ∀ k : ContactorNo, Live.Pulsed p.contactors[k] q.contactors[k]

theorem Plant.Pulses.refl (p : Plant) : p.Pulses p := fun _ => .inl rfl

theorem Plant.Pulses.trans {p q r : Plant} (h : p.Pulses q) (k : q.Pulses r) : p.Pulses r := fun i => (h i).trans (k i)

theorem Plant.KeepsDrive.pulses {p q : Plant} (h : p.KeepsDrive q) : p.Pulses q := fun k => .inl (by rw [h.contactors])

/-- The active transition is within its switch or its reversal (R38, R41). -/
def Plant.InSwitch (p : Plant) : Prop := ∃ t, p.transition = some t ∧ (t.phase = .switch ∨ t.phase = .reverse)

/-- With no move held there is nothing to keep cold. -/
theorem Plant.Cold.of_unheld {p : Plant} (h : p.driver = none) : p.Cold :=
  ⟨fun hd => absurd h hd, fun m hm => by rw [h] at hm; cases hm⟩

/-- A move is held in SWITCH and REVERSE alone. -/
theorem Plant.Cold.unheld {p : Plant} (h : p.Cold) (ht : ¬p.InSwitch) : p.driver = none :=
  Classical.byContradiction fun hd => ht (h.switching hd)

/-- What an operation that commands at most one move does to the drive: it begins pulses of contactors that are not FAILED, and
from a drive that holds no move it leaves cold switching (R55, R57). -/
structure Work.Commands (v w : Work) : Prop where
  live : v.Pulses w.toPlant
  cold : v.driver = none → w.Cold

theorem Plant.KeepsDrive.commands {v w : Work} (h : v.KeepsDrive w.toPlant) : v.Commands w :=
  ⟨h.pulses, fun hd => .of_unheld (h.driver.trans hd)⟩

theorem Plant.KeepsDrive.andCommands {u v w : Work} (h : u.KeepsDrive v.toPlant) (k : v.Commands w) : u.Commands w :=
  ⟨h.pulses.trans k.live, fun hd => k.cold (h.driver.trans hd)⟩

/-- An attempt pulses its own contactor, when the CHECK passes, and no other (R57). -/
theorem Work.attempt_live (move : Move) (w : Work) : w.Pulses (w.attempt move).toPlant := by
  intro k
  by_cases passes : w.checkPasses move.contactor = true
  · rw [Work.attempt_begins passes]
    simp only [Plant.checkPasses, Bool.and_eq_true, bne_iff_ne] at passes
    by_cases hk : k = move.contactor
    · subst hk
      exact .inr ⟨passes.1, Vector.set_live_self _ _ _⟩
    · exact .inl (Vector.set_live_of_ne _ _ hk)
  · unfold Work.attempt
    rw [if_neg passes]
    exact .inl (by rw [w.moveRefused_frame.2.1])

/-- An attempt in SWITCH or REVERSE leaves cold switching: its CHECK passes over inhibited stations alone (R57). -/
theorem Work.attempt_cold (move : Move) {w : Work} (h : w.InSwitch) : (w.attempt move).Cold := by
  by_cases passes : w.checkPasses move.contactor = true
  · rw [Work.attempt_begins passes]
    refine ⟨fun _ => h, fun m hm x hx => ?_⟩
    obtain rfl := Option.some.inj hm
    simp only [Plant.checkPasses, Bool.and_eq_true, List.all_eq_true] at passes
    exact (passes.2 x (StationSet.mem_members.2 hx)).1
  · unfold Work.attempt
    rw [if_neg passes]
    exact .of_unheld w.moveRefused_frame.1

theorem Work.commandMove_commands (k : ContactorNo) (toPos : Side) {w : Work} (h : w.InSwitch) :
    w.Commands (w.commandMove k toPos) :=
  ⟨w.attempt_live _, fun _ => Work.attempt_cold _ h⟩

theorem Work.moveRefused_commands (w : Work) : w.Commands w.moveRefused := by
  obtain ⟨unheld, contactors, -, -⟩ := w.moveRefused_frame
  exact ⟨fun k => .inl (by rw [contactors]), fun _ => .of_unheld unheld⟩

theorem Work.nextMove_commands {w : Work} (h : w.InSwitch) : w.Commands w.nextMove := by
  unfold Work.nextMove
  split
  · exact (Plant.KeepsDrive.refl _).commands
  · next t _ =>
    split
    · exact Work.commandMove_commands _ _ h
    · exact (w.switchSuccess_keepsDrive t).commands

theorem Work.nextReversal_commands {w : Work} (h : w.InSwitch) : w.Commands w.nextReversal := by
  unfold Work.nextReversal
  split
  · exact (Plant.KeepsDrive.refl _).commands
  · next t _ =>
    split
    · exact Work.commandMove_commands _ _ h
    · exact (w.reversalComplete_keepsDrive t).commands

theorem Work.beginReverse_commands (cause : ReversalCause) {w : Work} {t : Transition} (ht : w.transition = some t) :
    w.Commands (w.beginReverse cause) := by
  have reversing : Plant.InSwitch (Work.onTransition
      (fun t => { t with phase := .reverse, cause := some cause, moves := dropWaiting none t.moves }) w).toPlant :=
    ⟨t.reversing cause, by rw [Work.onTransition_transition, ht]; rfl, .inr rfl⟩
  exact Plant.KeepsDrive.andCommands (v := Work.onTransition _ w) ⟨rfl, rfl⟩ (Work.nextReversal_commands reversing)

theorem Work.afterSwitchMove_commands (o : MoveOutcome) {w : Work} {t : Transition} (ht : w.transition = some t)
    (hp : t.phase = .switch) : w.Commands (w.afterSwitchMove t o) := by
  unfold Work.afterSwitchMove
  split
  · exact Work.beginReverse_commands _ ht
  · exact Work.beginReverse_commands _ ht
  · exact Work.beginReverse_commands _ ht
  · split
    · exact Work.beginReverse_commands _ ht
    · exact Work.nextMove_commands ⟨t, ht, .inl hp⟩
  · exact w.moveRefused_commands

theorem Work.afterReversal_commands (o : MoveOutcome) {w : Work} {t : Transition} (ht : w.transition = some t)
    (hp : t.phase = .reverse) : w.Commands (w.afterReversal o) := by
  unfold Work.afterReversal
  split
  · exact Work.nextReversal_commands ⟨t, ht, .inr hp⟩
  · exact (w.resolveAndEnd_keepsDrive _).commands
  · exact (w.resolveAndEnd_keepsDrive _).commands
  · exact w.moveRefused_commands
  · exact w.moveRefused_commands

/-- An outcome is handed over with no move held (R60). -/
theorem Work.moveOutcome_commands (k : ContactorNo) (o : MoveOutcome) (w : Work) :
    Work.Commands { w with driver := none } (w.moveOutcome k o) := by
  have written : Plant.KeepsDrive { w.toPlant with driver := none }
      (Work.writeMoveOutcome k o { w with driver := none }).toPlant := ⟨rfl, rfl⟩
  refine Plant.KeepsDrive.andCommands (u := { w with driver := none }) written ?_
  unfold Work.moveOutcome
  dsimp only
  split
  · exact (Plant.KeepsDrive.refl _).commands
  · next t ht =>
    split
    · exact (Work.resolveAndEnd_keepsDrive _ _).commands
    · next hp => exact Work.afterSwitchMove_commands o ht hp
    · next hp => exact Work.afterReversal_commands o ht hp
    · exact (Plant.KeepsDrive.refl _).commands

/-! ### QUIESCE, PLAN and the pending list -/

theorem Work.enterSwitch_commands {w : Work} {t : Transition} (ht : w.transition = some t) :
    w.Commands (w.enterSwitch t) := by
  have stopped : w.Tuned t.affectedList (t.affectedList.foldl (fun w x => w.onStation x StationWork.stopMuteTimer) w) :=
    Work.Tuned.foldl (fun w _ => Work.onStation_tuned w ⟨[], rfl, by simp⟩) _ w
  obtain ⟨v, hv⟩ : ∃ v : Work, v = Work.onTransition (fun t => { t with phase := .switch })
      (t.affectedList.foldl (fun w x => w.onStation x StationWork.stopMuteTimer) w) := ⟨_, rfl⟩
  have switching : v.transition = some { t with phase := .switch } := by
    rw [hv, Work.onTransition_transition, stopped.field Plant.transition fun _ _ => rfl, ht]
    rfl
  have left : w.KeepsDrive v.toPlant := hv ▸ stopped.keepsDrive.trans ⟨rfl, rfl⟩
  unfold Work.enterSwitch
  dsimp only
  rw [← hv]
  exact (left.trans (Work.handLastState_keepsDrive true v)).andCommands
    (Work.nextMove_commands ⟨_, (Work.handLastState_stations true v).2.trans switching, .inl rfl⟩)

theorem Work.quiesceCheck_commands (w : Work) : w.Commands w.quiesceCheck := by
  unfold Work.quiesceCheck
  split
  · exact (Plant.KeepsDrive.refl _).commands
  · next t ht =>
    split
    · exact Work.enterSwitch_commands ht
    · exact (Plant.KeepsDrive.refl _).commands

theorem Work.enterQuiesce_commands (w : Work) : w.Commands w.enterQuiesce := by
  cases ht : w.transition with
  | none =>
    unfold Work.enterQuiesce
    rw [ht]
    exact (Plant.KeepsDrive.refl _).commands
  | some t =>
    rw [Work.enterQuiesce_eq ht]
    have entered : w.KeepsDrive { w.toPlant with transition := some (w.quiescing t) } := ⟨rfl, rfl⟩
    exact (entered.trans (Work.lowered_tuned t { w with transition := some (w.quiescing t) }).keepsDrive).andCommands
      (Work.quiesceCheck_commands _)

theorem Work.decideConsent_commands (t : Transition) (w : Work) : w.Commands (w.decideConsent t) := by
  have announced : w.KeepsDrive (w.announceStart t).toPlant := w.postAll_keepsDrive _ _
  unfold Work.decideConsent
  split
  · split
    · exact (w.endTransition_keepsDrive _).commands
    · exact announced.andCommands (Plant.KeepsDrive.commands (w := Work.askConsent t _) ⟨rfl, rfl⟩)
    · exact announced.andCommands (Work.enterQuiesce_commands _)
  · exact announced.andCommands (Work.enterQuiesce_commands _)

theorem Work.planMoves_commands (t : Transition) (w : Work) : w.Commands (w.planMoves t) := by
  have recorded (u : Transition) : w.KeepsDrive { w.toPlant with transition := some u } := ⟨rfl, rfl⟩
  unfold Work.planMoves
  split
  · exact (w.endTransition_keepsDrive _).commands
  · split
    · exact (w.endTransition_keepsDrive _).commands
    · split
      · exact Plant.KeepsDrive.andCommands (v := { w with transition := _ }) (recorded _)
          (Work.beginLevelChange_keepsDrive _ _).commands
      · exact Plant.KeepsDrive.andCommands (v := { w with transition := _ }) (recorded _) (Work.decideConsent_commands _ _)

theorem Work.plan_commands (t : Transition) (w : Work) : w.Commands (w.plan t) := by
  have recorded (u : Transition) : w.KeepsDrive { w.toPlant with transition := some u } := ⟨rfl, rfl⟩
  unfold Work.plan
  split
  · exact (w.endTransition_keepsDrive _).commands
  · exact Plant.KeepsDrive.andCommands (v := { w with transition := _ }) (recorded _) (Work.planMoves_commands _ _)

/-- The start of a head, as the drive sees it (R25). -/
theorem Work.start_commands (t : Transition) (rest : List PendingEntry) (w : Work) :
    w.Commands (Work.plan t { w with pendingList := rest, transition := some t }) := by
  have started : w.KeepsDrive { w.toPlant with pendingList := rest, transition := some t } := ⟨rfl, rfl⟩
  exact Plant.KeepsDrive.andCommands (v := { w with pendingList := rest, transition := some t }) started (Work.plan_commands _ _)

theorem Work.examineFor_live (n : Nat) (w : Work) : w.Pulses (w.examineFor n).toPlant := by
  induction n generalizing w with
  | zero => exact .refl _
  | succ n ih =>
    unfold Work.examineFor
    split
    · exact .refl _
    · split
      · exact (Work.start_commands _ _ w).live.trans (ih _)
      · exact .refl _

theorem Work.examinePending_live (w : Work) : w.Pulses w.examinePending.toPlant := w.examineFor_live _

theorem Plant.canStart_idle {p : Plant} (h : p.canStart = true) : p.transition = none := by
  simp only [Plant.canStart, Bool.and_eq_true, Option.isNone_iff_eq_none] at h
  exact h.1

theorem Plant.not_inSwitch_of_idle {p : Plant} (h : p.transition = none) : ¬p.InSwitch := by
  rintro ⟨t, ht, -⟩
  rw [h] at ht
  cases ht

/-- A head starts behind no active transition, and so behind no move held (R25). -/
theorem Work.examineFor_cold (n : Nat) {w : Work} (h : w.Cold) : (w.examineFor n).Cold := by
  induction n generalizing w with
  | zero => exact h
  | succ n ih =>
    unfold Work.examineFor
    split
    · exact h
    · split
      · next hc =>
        exact ih ((Work.start_commands _ _ w).cold (h.unheld (Plant.not_inSwitch_of_idle (Plant.canStart_idle hc))))
      · exact h

theorem Work.examinePending_cold {w : Work} (h : w.Cold) : w.examinePending.Cold := Work.examineFor_cold _ h

end Machine
end Sys2Proof

/-! PROOFS. The end of a settle reads the contacts (R59): the live record it leaves, whatever the Transition Engine then
commands. -/
namespace Sys2Proof
namespace Machine

/-- Behind the reading of an attempt the Transition Engine acts alone, and begins pulses at most (R59, R60). -/
theorem Work.endSettle_reads {m : Move} {w : Work} (hd : w.driver = some m) (hp : m.phase = .settling) {o : Option MoveOutcome}
    (ho : attemptEnd m w.aux[m.contactor].shows (contactorRecord w.activeImage m.contactor).retries = o) :
    Moves (w.attemptRead m o) w.endSettle ∧ (w.attemptRead m o).Pulses w.endSettle.toPlant := by
  cases o with
  | none =>
    rw [Work.endSettle_again hd hp ho]
    exact ⟨Work.attempt_moves _ _, Work.attempt_live _ _⟩
  | some o =>
    rw [Work.endSettle_ended hd hp ho]
    obtain ⟨v, hv⟩ : ∃ v, v = if o = .stuck ∨ o = .disagree then (w.attemptRead m (some o)).postFault m.contactor .move
      else w.attemptRead m (some o) := ⟨_, rfl⟩
    have posted : Moves (w.attemptRead m (some o)) v ∧ (w.attemptRead m (some o)).KeepsDrive v.toPlant := by
      rw [hv]
      split
      · exact ⟨Work.postFault_moves _ _ _, Work.postAll_keepsDrive _ _ _⟩
      · exact ⟨.refl, .refl _⟩
    rw [← hv]
    exact ⟨posted.1.trans (Work.moveOutcome_moves _ _ _), posted.2.pulses.trans (Work.moveOutcome_commands _ _ v).live⟩

/-- Settles O35: the record of the attempt is `Live.afterAttempt`, and a pulse that may begin behind it leaves a FAILED record as
it is, and the position and the failure of any other. -/
theorem attemptIsRead : Obligations.AttemptIsRead := by
  intro s
  refine ⟨fun unsettled waiting => congrArg Host.Outcome.next (State.event_idle ?_), fun m moving settling => ?_⟩
  · have still : s.work.endSettle = s.work := by
      unfold Work.endSettle
      split
      · rfl
      · next m hm => exact if_neg (unsettled m hm)
    rw [still]
    exact Work.examinePending_waiting _ waiting
  · intro k was
    obtain ⟨o, ho⟩ : ∃ o, attemptEnd m s.aux[k].shows (contactorRecord s.activeImage k).retries = o := ⟨_, rfl⟩
    obtain ⟨moves, pulses⟩ := Work.endSettle_reads (w := s.work) moving settling ho
    have event : Moves (s.work.attemptRead m o) s.work.endSettle.examinePending :=
      moves.trans (Work.examinePending_moves _)
    obtain ⟨t, ht⟩ : ∃ t, t = s.event fun w => w.endSettle.examinePending := ⟨_, rfl⟩
    have left {α : Type} (g : Plant → α)
        (hg : ∀ (p : Plant) list m e, g { p with scanList := list, measurement := m, lastEntry := e } = g p) :
        g t.toPlant = g s.work.endSettle.examinePending.toPlant := ht ▸ State.event_field g hg _ s
    have read : Live.Pulsed (was.afterAttempt m o) t.contactors[k] := by
      have := pulses.trans (Work.examinePending_live _) k
      rwa [← left (fun p => p.contactors) fun _ _ _ _ => rfl,
        show (s.work.attemptRead m o).contactors[k] = was.afterAttempt m o from Vector.set_live_self _ _ _] at this
    refine ⟨t, by rw [ht]; rfl, (left Plant.elapsed fun _ _ _ _ => rfl).trans event.elapsed,
      (left Plant.aux fun _ _ _ _ => rfl).trans event.aux, (left Plant.image fun _ _ _ _ => rfl).trans event.image,
      fun shown => ?_, fun shown retry => ?_, fun shown last => ?_, fun shown => ?_⟩
    · rw [shown, attemptEnd_moved] at ho
      subst ho
      exact read.sound (by simp [Live.afterAttempt])
    · rw [shown, attemptEnd_retry retry] at ho
      have idle : was.afterAttempt m o = { was with state := .idle, failure := .noFailure } := by
        rw [← ho]
        cases m.stop <;> rfl
      rw [idle] at read
      exact read.sound (by simp)
    · rw [shown, attemptEnd_stuck (Nat.not_le.2 last)] at ho
      subst ho
      exact read.failed rfl
    · rw [shown] at ho
      subst ho
      exact read.failed rfl

end Machine
end Sys2Proof

/-! PROOFS. Cold switching (R57, R58, R60): what each operation keeps of it. Out of SWITCH and REVERSE no move is held, so there
is nothing to keep; within them a station carried by the moving contactor is inhibited, and nothing raises it while the move is
held. -/
namespace Sys2Proof
namespace Machine

/-! ### The properties an operation passes through -/

/-- A change that leaves the transition, the image and the carriers, and the move held but for its phase, its stop flag and its
time. -/
theorem Plant.Cold.congr {p p' : Plant} (h : p.Cold)
    (hd : p'.driver.map (fun m => m.contactor) = p.driver.map (fun m => m.contactor)) (ht : p'.transition = p.transition)
    (hi : p'.image = p.image) (hs : p'.stations = p.stations) : p'.Cold := by
  refine ⟨fun held => ?_, fun m' hm' x hx => ?_⟩
  · rw [ht]
    refine h.switching fun hn => held ?_
    rw [hn] at hd
    exact Option.map_eq_none_iff.1 hd
  · rw [hm'] at hd
    obtain ⟨m, hm, same⟩ := Option.map_eq_some_iff.1 hd.symm
    change m.contactor = m'.contactor at same
    unfold Plant.activeImage at hx
    rw [hi, ← same] at hx
    unfold Plant.carrier
    rw [hs]
    exact h.inhibited m hm x hx

/-- A change of the record that leaves its phase. -/
theorem Work.onTransition_cold {f : Transition → Transition} {w : Work} (hf : ∀ t, (f t).phase = t.phase) (h : w.Cold) :
    (w.onTransition f).Cold := by
  refine ⟨fun held => ?_, h.inhibited⟩
  obtain ⟨t, ht, hp⟩ := h.switching held
  exact ⟨f t, by rw [Work.onTransition_transition, ht]; rfl, by rw [hf]; exact hp⟩

/-- An operation of a station's units, by what it does to RF inhibit. -/
theorem Work.onStation_cold_of (x : Station) (f : Ctx → StationWork → StationWork) {w : Work} (h : w.Cold)
    (hf : (w.carrier x).rfInhibit = true → ((w.onStation x f).carrier x).rfInhibit = true) : (w.onStation x f).Cold := by
  refine ⟨h.switching, fun m hm y hy => ?_⟩
  have before := h.inhibited m hm y hy
  by_cases hyx : y = x
  · subst hyx
    exact hf before
  · rw [Work.onStation_carrier, if_neg hyx]
    exact before

/-- An operation of a station's units that leaves RF inhibit asserted where it was. -/
def KeepsInhibit (f : Ctx → StationWork → StationWork) : Prop :=
  ∀ c w, w.carrier.rfInhibit = true → (f c w).carrier.rfInhibit = true

theorem Work.onStation_cold (x : Station) {f : Ctx → StationWork → StationWork} {w : Work} (hf : KeepsInhibit f)
    (h : w.Cold) : (w.onStation x f).Cold :=
  Work.onStation_cold_of x f h fun hi => by
    rw [Work.onStation_carrier, if_pos rfl]
    exact hf _ _ hi

/-- A station on the air is not carried by a moving contactor, and may do what it will. -/
theorem Work.onStation_cold_of_on_air (x : Station) (f : Ctx → StationWork → StationWork) {w : Work} (h : w.Cold)
    (hx : (w.carrier x).rfInhibit = false) : (w.onStation x f).Cold :=
  Work.onStation_cold_of x f h fun hi => by rw [hx] at hi; cases hi

/-- An operation that leaves the carrier state leaves RF inhibit. -/
theorem KeepsInhibit.of_state {f : Ctx → StationWork → StationWork}
    (hf : ∀ c w, (f c w).carrier.state = w.carrier.state) : KeepsInhibit f := fun c w h => by
  unfold Carrier.rfInhibit
  rw [hf]
  exact h

/-- A ramp is stepped on the air alone (R74). -/
theorem StationWork.rampTick_keepsInhibit : KeepsInhibit StationWork.rampTick := by
  intro c w h
  unfold StationWork.rampTick
  split
  · exact h
  · split
    · next hs => rcases hs with hs | hs <;> simp [Carrier.rfInhibit, hs, CarrierState.inhibited] at h
    · exact h

theorem StationWork.goDark_keepsInhibit : KeepsInhibit StationWork.goDark := fun c w _ => by
  unfold Carrier.rfInhibit
  rw [(StationWork.goDark_spec c w).2]
  rfl

/-- Out of SWITCH and REVERSE no move is held. -/
theorem Plant.Cold.unheld_of_phase {p : Plant} {t : Transition} (h : p.Cold) (ht : p.transition = some t)
    (hp : t.phase ≠ .switch ∧ t.phase ≠ .reverse) : p.driver = none :=
  h.unheld fun ⟨u, hu, hs⟩ => by
    obtain rfl := Option.some.inj (ht.symm.trans hu)
    exact hs.elim hp.1 hp.2

/-! ### The Transition Engine -/

/-- What leaves the drive alone out of a switch leaves no move held. -/
theorem Plant.KeepsDrive.cold {p q : Plant} (h : p.KeepsDrive q) (hd : p.driver = none) : q.Cold :=
  .of_unheld (h.driver.trans hd)

theorem Work.endTransition_cold (result : Result) {w : Work} (hd : w.driver = none) : (w.endTransition result).Cold :=
  (w.endTransition_keepsDrive result).cold hd

/-- QUIESCE is left for SWITCH with no move held before (R36). -/
theorem Work.quiesceCheck_cold {w : Work} (h : w.Cold) : w.quiesceCheck.Cold := by
  cases hd : w.driver with
  | none => exact (Work.quiesceCheck_commands w).cold hd
  | some m =>
    obtain ⟨t, ht, hp⟩ := h.switching (by rw [hd]; simp)
    unfold Work.quiesceCheck
    rw [ht]
    dsimp only
    rw [if_neg fun hq => by rcases hp with hp | hp <;> simp [hp] at hq]
    exact h

/-- RESTORE and CONFIRM, of which the check speaks, hold no move (R45). -/
theorem Work.restoreCheck_cold {w : Work} (h : w.Cold) : w.restoreCheck.Cold := by
  cases hd : w.driver with
  | none => exact w.restoreCheck_keepsDrive.cold hd
  | some m =>
    obtain ⟨t, ht, hp⟩ := h.switching (by rw [hd]; simp)
    unfold Work.restoreCheck
    rw [ht]
    rcases hp with hp | hp <;> simp only [hp] <;> exact h

theorem Work.postAll_cold (xs : List Station) (n : Notice) {w : Work} (h : w.Cold) : (w.postAll xs n).Cold := by
  rw [Work.postAll_toPlant]
  exact h

theorem Work.endPending_cold (e : PendingEntry) (result : Result) {w : Work} (h : w.Cold) : (w.endPending e result).Cold := by
  unfold Work.endPending Work.reportEnd
  split <;> exact h.congr rfl rfl rfl rfl

theorem Work.dropPending_cold (x : Station) (result : Result) {w : Work} (h : w.Cold) : (w.dropPending x result).Cold := by
  unfold Work.dropPending
  split
  · exact h
  · exact Work.endPending_cold _ _ (h.congr rfl rfl rfl rfl)

theorem Work.enterPending_cold (e : PendingEntry) {w : Work} (h : w.Cold) : (w.enterPending e).Cold := by
  unfold Work.enterPending
  split
  · exact Work.endPending_cold _ _ (h.congr rfl rfl rfl rfl)
  · exact h.congr rfl rfl rfl rfl

theorem Work.acceptRequest_cold (x : Station) (target : PatternNo) (source : Source) {w : Work} (h : w.Cold) :
    (w.acceptRequest x target source).Cold := by
  have entered (e : PendingEntry) (tag : Nat) : (Work.enterPending e { w with tagCounter := tag }).Cold :=
    Work.enterPending_cold e (h.congr rfl rfl rfl rfl)
  unfold Work.acceptRequest
  dsimp only
  split
  · exact (entered _ _).congr rfl rfl rfl rfl
  · exact entered _ _

theorem Work.submit_cold (x : Station) (target : Nat) (source : Source) {w : Work} (h : w.Cold) :
    (w.submit x target source).1.Cold := by
  refine Work.examinePending_cold ?_
  unfold Work.checkRequest
  split
  · exact h
  · split
    · exact h
    · split_ifs
      · exact h
      · exact Work.dropPending_cold x _ h
      · exact Work.acceptRequest_cold x _ _ h

/-- A consent reply is taken in CONSENT_WAIT, with no move held (R31, R32). -/
theorem Work.consentReply_cold (x : Station) (tag answer : Nat) {w : Work} (h : w.Cold) :
    (w.consentReply x tag answer).1.Cold := by
  have granted (hd : w.driver = none) : w.takeGrant.Cold := by
    have taken : w.KeepsDrive (Work.onTransition (fun t => { t with consent := .granted })
        { w with consentTimer := none, deferTimer := none }).toPlant := ⟨rfl, rfl⟩
    exact (taken.andCommands (Work.enterQuiesce_commands _)).cold hd
  have deferred (t : Transition) (hd : w.driver = none) : (w.takeDefer x t).Cold := by
    unfold Work.takeDefer
    split
    · exact h
    · dsimp only
      split
      · exact Work.endTransition_cold _ hd
      · exact .of_unheld hd
  unfold Work.consentReply
  split
  · exact h
  · split
    · exact h
    · next t ht =>
      have unheld : w.driver = none := by
        unfold Plant.queryTo at ht
        split at ht
        · next u hu =>
          split at ht
          · next waits => exact h.unheld_of_phase hu (by simp [waits.1])
          · cases ht
        · cases ht
      split
      · exact h
      · refine Work.examinePending_cold ?_
        split
        · exact granted unheld
        · exact deferred t unheld

/-- A move stopped is held still (R56). -/
theorem Work.stopDriver_cold {w : Work} (h : w.Cold) : w.stopDriver.Cold :=
  h.congr (by rw [Work.stopDriver_driver, Option.map_map]; rfl) rfl rfl rfl

/-- A withdraw in SWITCH stops the move held, or reverses with none held (R48). -/
theorem Work.withdrawInSwitch_cold {t : Transition} {w : Work} (ht : w.transition = some t) (h : w.Cold) :
    (w.withdrawInSwitch t).1.Cold := by
  unfold Work.withdrawInSwitch
  split
  · exact h
  · split
    · exact h
    · dsimp only
      cases hd : w.driver with
      | none =>
        refine (Work.beginReverse_commands (t := { t with
          withdrawTaken := true, moves := dropWaiting none t.moves }) .withdraw ?_).cold ?_
        · rw [Work.onTransition_transition]
          show w.transition.map _ = _
          rw [ht]
          rfl
        · rw [Work.onTransition_driver, Work.stopDriver_driver, hd]
          rfl
      | some m =>
        exact Work.onTransition_cold (fun _ => rfl) (Work.stopDriver_cold h)

theorem Work.withdraw_cold (x : Station) {w : Work} (h : w.Cold) : (w.withdraw x).1.Cold := by
  have active {t : Transition} (ht : w.transition = some t) : (w.withdrawActive t).1.Cold := by
    unfold Work.withdrawActive
    split
    · next hp =>
      exact ((w.withdrawQuery_keepsDrive t).trans (Work.endTransition_keepsDrive _ _)).cold
        (h.unheld_of_phase ht (by simp [hp]))
    · next hp =>
      exact ((w.raiseBackAll_keepsDrive _).trans (Work.endTransition_keepsDrive _ _)).cold
        (h.unheld_of_phase ht (by simp [hp]))
    · exact Work.withdrawInSwitch_cold ht h
    all_goals exact h
  unfold Work.withdraw
  split
  · exact Work.dropPending_cold x _ h
  · split
    · next t ht =>
      split
      · exact Work.examinePending_cold (active ht)
      · exact h
    · exact h

/-- A disturbance stops the move held, or resolves with none held (R43, R44). -/
theorem Work.disturbSwitch_cold (result : Result) {w : Work} (h : w.Cold) : (w.disturbSwitch result).Cold := by
  unfold Work.disturbSwitch
  dsimp only
  split
  · exact Work.onTransition_cold (fun _ => rfl) (Work.stopDriver_cold h)
  · next hn =>
    have unheld : w.driver = none := by simpa using hn
    refine (Work.resolveAndEnd_keepsDrive _ _).cold ?_
    rw [Work.onTransition_driver, Work.stopDriver_driver, unheld]
    rfl

theorem Work.rfDisturbance_cold (x : Station) {w : Work} (h : w.Cold) : (w.rfDisturbance x).Cold := by
  unfold Work.rfDisturbance
  split
  · exact h
  · split
    · exact Work.disturbSwitch_cold _ h
    · exact h

/-- Of the phases an array disturbance ends, none holds a move (R37, R44, R46). -/
theorem Work.arrayDisturbance_cold {w : Work} (h : w.Cold) : w.arrayDisturbance.Cold := by
  unfold Work.arrayDisturbance
  split
  · exact h
  · next t ht =>
    have unheld (hp : t.phase ≠ .switch ∧ t.phase ≠ .reverse) : w.driver = none := h.unheld_of_phase ht hp
    split
    · next hp =>
      exact ((w.withdrawQuery_keepsDrive t).trans (Work.endTransition_keepsDrive _ _)).cold
        (unheld (by simp [hp]))
    · next hp =>
      exact ((w.raiseBackAll_keepsDrive _).trans (Work.endTransition_keepsDrive _ _)).cold (unheld (by simp [hp]))
    · exact Work.disturbSwitch_cold _ h
    · exact Work.disturbSwitch_cold _ h
    · next hp =>
      split
      · exact Work.endTransition_cold _ (unheld (by simp [hp]))
      · exact h
    · next hp =>
      split
      · exact Work.endTransition_cold _ (unheld (by simp [hp]))
      · exact h
    · exact h

/-! ### The drive and the schedule -/

theorem Work.breakMap_cold (before : Plant) (x : Station) {w : Work} (h : w.Cold) : (w.breakMap before x).Cold := by
  unfold Work.breakMap
  split
  · exact h
  · split
    · exact Work.onStation_cold x StationWork.goDark_keepsInhibit
        (Work.onStation_cold x (.of_state (StationWork.setPattern_state none)) h)
    · exact h

theorem Work.judgeCombination_cold (k : ContactorNo) {w : Work} (h : w.Cold) : (w.judgeCombination k).Cold := by
  unfold Work.judgeCombination
  split_ifs
  · exact h.congr rfl rfl rfl rfl
  · exact h
  · exact h
  · have posted : Plant.Cold ((w.onLive k (Live.moved w.aux[k].shows)).postFault k .unexpected).toPlant :=
      Work.postAll_cold _ _ (w := w.onLive k (Live.moved w.aux[k].shows)) (h.congr rfl rfl rfl rfl)
    exact Work.arrayDisturbance_cold (Work.breakMap_cold _ .B (Work.breakMap_cold _ .A posted))

theorem Work.release_cold (x : Station) (index : Nat) {w : Work} (h : w.Cold) : (w.release x index).1.Cold := by
  have carried (k : ContactorNo) : (w.carryRelease k).1.Cold := by
    unfold Work.carryRelease
    split
    · exact h
    · next side _ =>
      split
      · exact Work.postAll_cold _ _ (w := w.onLive k fun _ => ⟨some side, .idle, .noFailure⟩) (h.congr rfl rfl rfl rfl)
      · exact h
  unfold Work.release
  split
  · exact h
  · next k _ =>
    split_ifs
    · exact h
    · exact h
    · exact h
    · exact h
    · exact carried k

theorem Work.evaluate_cold (minuteTick : Bool) {w : Work} (h : w.Cold) : (w.evaluate minuteTick).Cold := by
  have fired (x : Station) (target : Nat) (o : Occurrence) {w : Work} (h : w.Cold) : (w.fire x target o).Cold := by
    unfold Work.fire
    dsimp only
    split
    · exact (Work.submit_cold x target _ h).congr rfl rfl rfl rfl
    · exact Work.submit_cold x target _ h
  have evaluated (m : Memory) (r : Reading) (x : Station) {w : Work} (h : w.Cold) : (Work.evaluateStation m r x w).Cold := by
    have tested (present : Recorded) : (w.testOverride x present).Cold := h.congr rfl rfl rfl rfl
    unfold Work.evaluateStation
    dsimp only
    split
    · exact tested _
    · split
      · exact fired _ _ _ (tested _)
      · exact tested _
  have deal (m : Memory) (r : Reading) (x : Station) {w : Work} (h : w.Cold) :
      (Work.evaluateStation m r x (if minuteTick then w.decreaseHold x else w)).Cold := by
    refine evaluated m r x ?_
    split
    · exact h.congr rfl rfl rfl rfl
    · exact h
  unfold Work.evaluate
  split
  · exact deal _ _ .B (deal _ _ .A h)
  · exact h

/-- The end of a pulse leaves the move held (R58). -/
theorem Work.endPulse_cold {w : Work} (h : w.Cold) : w.endPulse.Cold := by
  unfold Work.endPulse
  split
  · exact h
  · next m hm =>
    split
    · exact h.congr (by rw [hm]; rfl) rfl rfl rfl
    · exact h

/-- The end of a settle makes the CHECK again, or hands the outcome over with no move held (R59, R60). -/
theorem Work.endSettle_cold {w : Work} (h : w.Cold) : w.endSettle.Cold := by
  cases hd : w.driver with
  | none =>
    unfold Work.endSettle
    rw [hd]
    exact h
  | some m =>
    by_cases hp : m.phase = .settling
    · cases ho : attemptEnd m w.aux[m.contactor].shows (contactorRecord w.activeImage m.contactor).retries with
      | none =>
        rw [Work.endSettle_again hd hp ho]
        exact Work.attempt_cold _ (h.switching (by rw [hd]; simp))
      | some o =>
        rw [Work.endSettle_ended hd hp ho]
        exact (Work.moveOutcome_commands _ _ _).cold rfl
    · unfold Work.endSettle
      simp only [hd, if_neg hp]
      exact h

theorem Work.debounce_cold (k : ContactorNo) (made0 made1 : Option Bool) {w : Work} (h : w.Cold) :
    (w.debounce k made0 made1).Cold := by
  unfold Work.debounce
  dsimp only
  split
  · exact h
  · exact h.congr rfl rfl rfl rfl
  · split
    · exact h
    · exact Work.examinePending_cold (Work.judgeCombination_cold k
        (w := { w with aux := w.aux.set k (w.aux[k].take made0 made1) }) (h.congr rfl rfl rfl rfl))

end Machine
end Sys2Proof

/-! PROOFS. ColdSwitchingKept: the events of the blocks, the requests, the resets and start-up (R57, R153, R154). -/
namespace Sys2Proof
namespace Machine

/-! ### The events of the carriers -/

theorem Work.recomputeScan_cold {w : Work} (h : w.Cold) : w.recomputeScan.Cold := by
  unfold Work.recomputeScan
  dsimp only
  split <;> exact h.congr rfl rfl rfl rfl

theorem State.event_cold (f : Work → Work) (s : State) (hf : (f s.work).Cold) : (s.event f).Cold := by
  rw [State.event_toPlant]
  unfold Work.settleScan
  split
  · exact Work.recomputeScan_cold hf
  · exact hf

theorem Work.whenDue_cold (t : Timer) (f : Work → Work) {w : Work} (h : w.Cold)
    (hf : ∀ due, (w.reach due).Cold → (f (w.reach due)).Cold) : (w.whenDue t f).Cold := by
  unfold Work.whenDue
  split
  · exact h
  · next due => exact hf due (h.congr rfl rfl rfl rfl)

theorem Work.rfPresent_cold (x : Station) (active : Bool) {w : Work} (h : w.Cold) : (w.rfPresent x active).Cold := by
  have taken : (w.onStation x fun _ u => { u with carrier := u.carrier.takeRfPresent active }).Cold :=
    Work.onStation_cold x (.of_state fun _ _ => rfl) h
  have noticed {v : Work} (hv : v.Cold) : (v.noticeRf x).Cold := by
    unfold Work.noticeRf
    split
    · exact Work.onStation_cold x (.of_state fun _ _ => rfl) (w := v.post x _) (hv.congr rfl rfl rfl rfl)
    · exact hv
  unfold Work.rfPresent
  split
  · exact h
  · exact taken
  · split
    · exact h
    · unfold Work.rfEvent
      dsimp only
      split
      · exact Work.examinePending_cold (Work.rfDisturbance_cold x (noticed taken))
      · exact Work.examinePending_cold (Work.quiesceCheck_cold taken)

/-- The mute timer ends QUIESCE with no move held (R36). -/
theorem Work.muteExpiry_cold (x : Station) {w : Work} (h : w.Cold) : (w.muteExpiry x).Cold := by
  have stopped : (w.onStation x StationWork.stopMuteTimer).Cold := Work.onStation_cold x (.of_state fun _ _ => rfl) h
  unfold Work.muteExpiry
  dsimp only
  split
  · exact stopped
  · next t ht =>
    split
    · next hq =>
      exact Work.examinePending_cold (((Work.raiseBackAll_keepsDrive _ _).trans
        (Work.endTransition_keepsDrive _ _)).cold (stopped.unheld_of_phase ht (by simp [hq.1])))
    · exact stopped

theorem Work.tickRamp_cold (x : Station) {w : Work} (h : w.Cold) : (w.tickRamp x).Cold := by
  unfold Work.tickRamp
  split
  · exact h
  · next due _ =>
    have ticked : KeepsInhibit fun c u =>
        StationWork.rampTick c { u with carrier := { u.carrier with rampTimer := some (due + Config.rampTick) } } :=
      fun c _ hu => StationWork.rampTick_keepsInhibit c _ hu
    exact Work.examinePending_cold (Work.restoreCheck_cold (Work.quiesceCheck_cold
      (Work.onStation_cold x ticked (w := w.reach due) (h.congr rfl rfl rfl rfl))))

/-- The verify timer runs out on the air, and ends CONFIRM with no move held (R46, R124). -/
theorem Work.verifyExpiry_cold (x : Station) {w : Work} (h : w.Cold) (hv : (w.carrier x).state = .verifying) :
    (w.verifyExpiry x).Cold := by
  have failed : (w.onStation x StationWork.verifyFailed).Cold :=
    Work.onStation_cold_of_on_air x _ h (by simp [Carrier.rfInhibit, hv, CarrierState.inhibited])
  unfold Work.verifyExpiry
  dsimp only
  split
  · exact failed
  · next t ht =>
    split
    · next hc =>
      exact Work.examinePending_cold (Work.endTransition_cold _ (failed.unheld_of_phase ht (by simp [hc.1])))
    · exact failed

/-- A measurement is kept of a station on the air (R98). -/
theorem Work.keptMeasurement_cold (m : Measurement) (r t q d : Nat) {u : Work} (h : u.Cold) :
    (if u.keeps m then
      (u.onStation m.entry.station (StationWork.keptMeasurement m r t q d)).restoreCheck.examinePending else u).Cold := by
  split
  · next kept =>
    simp only [Plant.keeps, Bool.and_eq_true] at kept
    have on_air : (u.carrier m.entry.station).rfInhibit = false := by
      have measured := kept.1
      unfold Carrier.rfInhibit
      cases hs : (u.carrier m.entry.station).state
      case held | dark =>
        rw [hs] at measured
        cases measured
      all_goals rfl
    exact Work.examinePending_cold (Work.restoreCheck_cold (Work.onStation_cold_of_on_air _ _ h on_air))
  · exact h

theorem Work.measured_cold (r t : Nat) (q d : List Nat) {w : Work} (h : w.Cold) : (w.measured r t q d).Cold := by
  unfold Work.measured
  split
  · exact h
  · next m _ =>
    have finished : Plant.Cold { (w.reach m.due).toPlant with measurement := none } := h.congr rfl rfl rfl rfl
    exact Work.recomputeScan_cold
      (Work.keptMeasurement_cold m _ _ _ _ (u := { w.reach m.due with measurement := none }) finished)

/-! ### The clock and the store -/

theorem Work.tickClock_cold (admits : Reading → Bool) {w : Work} (h : w.Cold) : (w.tickClock admits).Cold := by
  unfold Work.tickClock
  split
  · next r due _ _ =>
    split
    · unfold Work.clockTick
      split
      · exact h.congr rfl rfl rfl rfl
      · next n _ =>
        have on : Plant.Cold { (w.reach due).toPlant with clock := some n, clockTimer := some (due + Config.seconds 1) } :=
          h.congr rfl rfl rfl rfl
        dsimp only
        split
        · exact Work.evaluate_cold true (w :=
            { w.reach due with clock := some n, clockTimer := some (due + Config.seconds 1) }) on
        · exact on
    · exact h
  · exact h

theorem Work.startNextWrite_cold {w : Work} (h : w.Cold) : w.startNextWrite.Cold := by
  unfold Work.startNextWrite
  split
  · unfold Work.startWrite
    dsimp only
    split <;> exact h.congr rfl rfl rfl rfl
  · exact h

theorem Work.completeWrite_cold {w : Work} (h : w.Cold) : w.completeWrite.Cold := by
  unfold Work.completeWrite
  split
  · exact h
  · dsimp only
    refine Work.startNextWrite_cold ?_
    split <;> exact h.congr rfl rfl rfl rfl

theorem Work.loadExpired_cold {w : Work} (h : w.Cold) : w.loadExpired.Cold := by
  unfold Work.loadExpired
  split <;> exact h.congr rfl rfl rfl rfl

theorem Work.storePortReset_cold (x : Station) {w : Work} (h : w.Cold) : (w.storePortReset x).Cold := by
  unfold Work.storePortReset
  dsimp only
  split <;> exact h.congr rfl rfl rfl rfl

/-- A commit, which changes the image, is made with no move held (R149). -/
theorem Work.commit_cold (x : Station) {w : Work} (hd : w.driver = none) : (w.commit x).Cold := by
  have activated : ((w.activate w.loadBuffer).firstDefaults w.image w.loadBuffer).driver = none := by
    unfold Work.firstDefaults
    split <;> exact hd
  unfold Work.commit
  refine Work.evaluate_cold _ (Work.postAll_cold _ _ ?_)
  generalize (w.activate w.loadBuffer).firstDefaults w.image w.loadBuffer = v at activated ⊢
  exact Work.startNextWrite_cold (.of_unheld activated)

/-! ### Requests -/

theorem act_cold (x : Station) (dropped : Nat) (r : Request) {w : Work} (h : w.Cold) : (act x dropped r w).1.Cold := by
  cases r with
  | patternRequest target => exact Work.submit_cold x _ _ h
  | withdraw => exact Work.withdraw_cold x h
  | consentReply tag answer => exact Work.consentReply_cold x _ _ h
  | contactorRelease index => exact Work.release_cold x _ h
  | statusQuery => exact h
  | monitorQuery => exact h
  | contactorQuery => exact h
  | readbackBlock index => exact h
  | consentPolicy policy =>
    rw [act_consentPolicy]
    repeat' split
    all_goals exact h.congr rfl rfl rfl rfl
  | schedulePolicy policy =>
    rw [act_schedulePolicy]
    repeat' split
    all_goals exact h.congr rfl rfl rfl rfl
  | clockSet year day hour minute second =>
    simp only [act, actClockSet, Work.setClock]
    split
    · exact Work.evaluate_cold false (Work.postAll_cold _ _ (h.congr rfl rfl rfl rfl))
    · exact h
  | clockQuery =>
    simp only [act, actClockQuery]
    split <;> exact h
  | loadOpen size =>
    simp only [act, actLoadOpen, Work.loadOpen]
    repeat' split
    all_goals exact h.congr rfl rfl rfl rfl
  | loadBlock index data =>
    simp only [act, actLoadBlock, Work.loadBlock]
    repeat' split
    all_goals exact h.congr rfl rfl rfl rfl
  | loadCommit =>
    simp only [act, actLoadCommit, Work.loadCommit]
    split
    · split
      · exact h
      · split
        · exact h
        · next busy =>
          have idle : w.transition = none := by
            simp only [Bool.or_eq_true, not_or, Bool.not_eq_true, Option.isSome_eq_false_iff, Option.isNone_iff_eq_none] at busy
            exact busy.1.1
          split
          · exact h
          · split
            · exact h
            · exact Work.commit_cold x (h.unheld (Plant.not_inSwitch_of_idle idle))
    · exact h
  | loadCancel =>
    simp only [act, actLoadCancel, Work.loadCancel]
    split <;> exact h.congr rfl rfl rfl rfl
  | readbackOpen size =>
    simp only [act, actReadbackOpen, Work.readbackOpen]
    split <;> exact h.congr rfl rfl rfl rfl

theorem cold_linkKept : LinkKept fun s => s.Cold :=
  linkKept_of_plant (P := Plant.Cold) fun x body s h _ => by
    unfold State.handOn
    split
    · exact State.event_cold _ s (act_cold x _ _ h)
    · exact h

/-! ### Resets and start-up -/

theorem State.wholeReset_cold (kind : ResetKind) (s : State) : (s.wholeReset kind).Cold := .of_unheld rfl

/-- Start-up, which changes the image, finds no move held (R153, R154). -/
theorem Work.startUp_cold (kind : ResetKind) {w : Work} (hd : w.driver = none) : (Work.startUp kind w).Cold := by
  have read : w.readRecords.driver = none := hd
  unfold Work.startUp
  generalize w.readRecords = v at read ⊢
  refine Work.evaluate_cold false (.of_unheld ?_)
  split
  · unfold Work.startConfigured
    dsimp only
    generalize (v.activate v.imageRecord.bytes).startChoices v.lastRecord = choices
    have carried (u : Work) : u.KeepsDrive (u.carryBoth choices).toPlant :=
      (Work.carryResolved_tuned .A choices.a u).keepsDrive.trans (Work.carryResolved_tuned .B choices.b _).keepsDrive
    rw [(carried _).driver]
    unfold Work.announceStartUp
    rw [Work.postAll_toPlant]
    exact (Work.handLastState_keepsDrive false ((v.activate v.imageRecord.bytes).setBoth choices)).driver.trans read
  · unfold Work.startUnconfigured Work.announceStartUp
    rw [Work.postAll_toPlant]
    exact read

/-! ### Commands and steps -/

theorem Work.noConsent_cold {w : Work} {c : ConsentState} (h : w.Cold) (hc : w.awaitsConsent c = true) (due : Nat) :
    (w.reach due).noConsent.Cold := by
  refine Work.examinePending_cold (Work.endTransition_cold _ ?_)
  show w.driver = none
  unfold Plant.awaitsConsent at hc
  split at hc
  · next t ht =>
    simp only [Bool.and_eq_true, beq_iff_eq] at hc
    exact h.unheld_of_phase ht (by simp [hc.1])
  · cases hc

/-- Every command keeps cold switching, where a part that is not in service holds no move. -/
theorem exec_cold (c : Instr) (s t : State) (he : exec c s = .next t) (h : s.Cold)
    (out : s.phase ≠ .running → s.driver = none) : t.Cold := by
  have event (f : Work → Work) (hf : (f s.work).Cold) : (s.event f).Cold := State.event_cold f s hf
  have L := cold_linkKept
  have cold : s.work.Cold := h
  cases c <;> simp only [exec] at he
  case powerOn => cases he; exact State.wholeReset_cold _ s
  case resetLine => cases he; exact State.wholeReset_cold _ s
  case resetEnd =>
    unfold execResetEnd at he
    cases he
    split
    · next kind hp => exact .of_unheld (out (by rw [hp]; simp))
    · exact h
    · exact h
  case startUp =>
    unfold execStartUp at he
    cases he
    split
    · next kind hp =>
      have started : (s.event fun w => w.whenDue w.startUpTimer (Work.startUp kind)).Cold :=
        event _ (Work.whenDue_cold _ _ cold fun due _ => Work.startUp_cold kind (w := s.work.reach due) (out (by rw [hp]; simp)))
      exact State.resumeBoth_kept L started (started.congr rfl rfl rfl rfl)
    · exact h
    · exact h
  case consentWaitTimerExpiry =>
    cases he
    refine event _ ?_
    split
    · next hc => exact Work.whenDue_cold _ _ cold fun due _ => Work.noConsent_cold cold hc due
    · exact cold
  case deferTimerExpiry =>
    cases he
    refine event _ ?_
    split
    · next hc => exact Work.whenDue_cold _ _ cold fun due _ => Work.noConsent_cold cold hc due
    · exact cold
  case muteTimerExpiry x =>
    cases he
    exact event _ (Work.whenDue_cold _ _ cold fun _ hw => Work.muteExpiry_cold x hw)
  case rampTick x => cases he; exact event _ (Work.tickRamp_cold x cold)
  case pulseTimeEnd => cases he; exact event _ (Work.endPulse_cold cold)
  case settleTimeEnd => cases he; exact event _ (Work.examinePending_cold (Work.endSettle_cold cold))
  case debounceEvent =>
    unfold execDebounceEvent at he
    split at he
    · cases he
    · cases he
      exact event _ (Work.debounce_cold _ _ _ cold)
  case rfPresentEvent x active => cases he; exact event _ (Work.rfPresent_cold x active cold)
  case measurementCompletion => cases he; exact event _ (Work.measured_cold _ _ _ _ cold)
  case verifyTimerExpiry x =>
    cases he
    refine event _ ?_
    split
    · next hv => exact Work.whenDue_cold _ _ cold fun _ hw => Work.verifyExpiry_cold x hw hv
    · exact cold
  case outOfToleranceHoldExpiry x =>
    cases he
    refine event _ ?_
    split
    · next hn =>
      refine Work.whenDue_cold _ _ cold fun due hw => Work.onStation_cold_of_on_air x _ hw ?_
      show (s.carrier x).state.inhibited = false
      rw [show (s.carrier x).state = .normal from hn]
      rfl
    · exact cold
  case staleTimerExpiry x tower =>
    unfold execStaleTimerExpiry at he
    split at he
    · cases he
    · next i _ =>
      cases he
      exact event _ (Work.whenDue_cold _ _ cold fun _ hw =>
        Work.onStation_cold x (.of_state fun c w => (StationWork.staleExpiry_quietness i c w).1) hw)
  case siteClockTick => cases he; exact event _ (Work.tickClock_cold _ cold)
  case minuteTick => cases he; exact event _ (Work.tickClock_cold _ cold)
  case loadIdleTimerExpiry =>
    cases he
    exact event _ (Work.whenDue_cold _ _ cold fun _ hw => Work.loadExpired_cold hw)
  case imageWriteCompletion =>
    cases he
    refine event _ ?_
    split
    · exact Work.examinePending_cold (Work.completeWrite_cold cold)
    · exact cold
  case lastStateWriteCompletion =>
    cases he
    refine event _ ?_
    split
    · exact Work.completeWrite_cold cold
    · exact cold
  case characterReceived x b stopLow => cases he; exact L.receiveChar x b stopLow s h
  case gapTimerExpiry x =>
    unfold execGapTimerExpiry at he
    cases he
    split
    · exact h
    · exact h.congr rfl rfl rfl rfl
  case breakEvent x =>
    unfold execBreak at he
    cases he
    split
    · exact event _ (Work.storePortReset_cold x cold)
    · exact h
  case characterTransmitted x =>
    unfold execCharacterTransmitted at he
    cases he
    split
    · exact h
    · exact L.resume x _ (h.congr rfl rfl rfl rfl)
  case frameTransmissionStart x =>
    unfold execFrameTransmissionStart at he
    cases he
    split <;> exact h
  case lineReturnHigh x => cases he; exact h
  case powerReferencePeriodStart x =>
    cases he
    refine event _ ?_
    unfold Work.tickPeriod
    split
    · exact cold
    · next due _ =>
      exact Work.onStation_cold x (.of_state fun _ _ => rfl) (w := s.work.reach due) (cold.congr rfl rfl rfl rfl)
  all_goals (cases he; exact L.receiveFrame _ _ s h)

/-- Settles O59: every command keeps cold switching, a part out of service holding no move. -/
theorem coldSwitchingKept : Obligations.ColdSwitchingKept := by
  intro s t held cold he
  unfold step at he
  split at he
  · cases he
    exact cold.congr rfl rfl rfl rfl
  · next c rest _ => exact exec_cold c { s with pending := rest } t he cold fun hp => (held hp).driver

end Machine
end Sys2Proof

/-! PROOFS. CONTACTOR RELEASE (R66, R67): the checks in their order, and what a release leaves. -/
namespace Sys2Proof
namespace Machine

section
variable {k : ContactorNo} {w : Work}

/-- Without a single position shown there is no release (R67). -/
theorem Work.carryRelease_unshown (hs : w.aux[k].shows = none) : w.carryRelease k = (w, .stillFailed) := by
  unfold Work.carryRelease
  rw [hs]

/-- A FAILED contactor is IDLE where it shows, and CONTACTOR_FAULT goes to each of its stations (R67). -/
theorem Work.carryRelease_mends {side : Side} (hs : w.aux[k].shows = some side) (hf : w.contactors[k].state = .failed) :
    w.carryRelease k =
      ({ w with
          contactors := w.contactors.set k ⟨some side, .idle, .noFailure⟩
          posts := w.posts ++ (carrierSet w.activeImage k).members.map fun y =>
            (y, .contactorFault k ⟨some side, .idle, .noFailure⟩ .release) }, .accepted) := by
  unfold Work.carryRelease Work.postFault
  simp only [hs, if_pos hf]
  rw [Work.postAll_eq, show (w.onLive k fun _ => ⟨some side, .idle, .noFailure⟩).contactors[k] =
    ⟨some side, .idle, .noFailure⟩ from Vector.set_live_self _ _ _]
  rfl

/-- A release of a contactor that is not FAILED changes nothing (R67). -/
theorem Work.carryRelease_sound {side : Side} (hs : w.aux[k].shows = some side) (hf : w.contactors[k].state ≠ .failed) :
    w.carryRelease k = (w, .accepted) := by
  unfold Work.carryRelease
  simp only [hs, if_neg hf]

end

/-- The checks of a CONTACTOR RELEASE, by the state as it stands (R66). -/
theorem act_contactorRelease {index : Byte} {k : ContactorNo} (hk : index.toNat = k.val + 1) (x : Station) (dropped : Nat)
    (w : Work) :
    act x dropped (.contactorRelease index) w =
      if w.image = none then (w, .plain .notConfigured)
      else if (contactorRecord w.activeImage k).inUse = false then (w, .plain .badArg)
      else if carries w.activeImage k x = false then (w, .plain .notOwner)
      else if w.transition ≠ none then (w, .plain .busy)
      else ((w.carryRelease k).1, .plain (w.carryRelease k).2) := by
  simp only [act, actContactorRelease, Work.release, hk, contactorOfIndex?_succ, Option.isNone_iff_eq_none,
    Option.isSome_iff_ne_none]
  split_ifs <;> rfl

/-- Settles O4: the checks decide by the state, and a release leaves its work's record and notices and the reply. -/
theorem contactorReleased : Obligations.ContactorReleased := by
  intro x index s h
  constructor
  · intro outside
    have none_ : contactorOfIndex? index.toNat = none :=
      contactorOfIndex?_eq_none (outside.imp_left fun h0 => by rw [h0]; rfl)
    have ha : act x (s.ports.get x).dropped (.contactorRelease index) s.work = (s.work, .plain .badArg) := by
      simp only [act, actContactorRelease, Work.release, none_]
    exact congrArg Host.Outcome.next (State.receiveRequest_unchanged h ha)
  · intro k hk
    refine congrArg Host.Outcome.next ?_
    have ha := act_contactorRelease hk x (s.ports.get x).dropped s.work
    rw [State.work_toPlant] at ha
    split
    · next unimaged => exact State.receiveRequest_unchanged h (ha.trans (if_pos unimaged))
    next imaged =>
    rw [if_neg imaged] at ha
    split
    · next unused => exact State.receiveRequest_unchanged h (ha.trans (if_pos unused))
    next used =>
    rw [if_neg used] at ha
    split
    · next others => exact State.receiveRequest_unchanged h (ha.trans (if_pos others))
    next own =>
    rw [if_neg own] at ha
    split
    · next active => exact State.receiveRequest_unchanged h (ha.trans (if_pos active))
    next idle =>
    rw [if_neg idle] at ha
    split
    · next shown =>
      rw [Work.carryRelease_unshown shown] at ha
      exact State.receiveRequest_unchanged h ha
    · next side shown =>
      split
      · next failed =>
        rw [Work.carryRelease_mends shown failed] at ha
        exact State.receiveRequest_eq h ha fun _ => rfl
      · next sound =>
        rw [Work.carryRelease_sound shown sound] at ha
        exact State.receiveRequest_unchanged h ha

end Machine
end Sys2Proof

/-! PROOFS. START_UP with no sound image (R53, R85, R154): the inputs take their values, and the part stays UNCONFIGURED. -/
namespace Sys2Proof
namespace Machine

/-- Without a sound image start-up announces itself and does no more (R154 steps 2, 7 and 8). -/
theorem Work.startUp_unsound {kind : ResetKind} {w : Work}
    (unsound : w.imageRecord.condition ≠ .valid ∨ firstFailure w.imageRecord.bytes ≠ none) (clock : w.clock = none) :
    Work.startUp kind w = w.readRecords.startUnconfigured kind := by
  have rejected : ¬w.readRecords.imageRecord.sound = true := by
    show ¬w.imageRecord.sound = true
    simp only [ImageRecord.sound, Bool.and_eq_true, beq_iff_eq, Option.isNone_iff_eq_none, not_and_or]
    exact unsound
  unfold Work.startUp
  dsimp only
  rw [if_neg rejected]
  refine Work.evaluate_no_clock false ?_
  unfold Work.startUnconfigured Work.announceStartUp
  rw [Work.postAll_toPlant]
  exact clock

/-- Settles O22: the work of start-up is `startUnconfigured` over the records as they are read. -/
theorem startUpUnconfigured : Obligations.StartUpUnconfigured := by
  intro kind due s hp ht out inactive unheld unsound interrupted
  obtain ⟨w, hw⟩ : ∃ w, w = (s.work.reach due).readRecords := ⟨_, rfl⟩
  have run : Work.startUp kind (s.work.reach due) = w.startUnconfigured kind :=
    hw ▸ Work.startUp_unsound (w := s.work.reach due) unsound out.clock
  have told : s.lastRecord.interrupted = interrupted := by
    simp only [interrupted]
    cases s.lastRecord <;> rfl
  have started : w.startUnconfigured kind = { w with
      startUpCause := some kind
      interrupted := interrupted
      posts := [(.A, .started kind interrupted false none none), (.B, .started kind interrupted false none none)] } := by
    unfold Work.startUnconfigured Work.announceStartUp
    dsimp only
    rw [Work.postAll_eq, hw, ← told]
    have notice : Plant.startedNotice { (s.work.reach due).readRecords.toPlant with
        startUpCause := some kind, interrupted := s.lastRecord.interrupted } kind =
          .started kind s.lastRecord.interrupted false none none := by
      have unimaged : s.image.isSome = false := by rw [out.image]; rfl
      exact congr (congr (congrArg (Notice.started kind s.lastRecord.interrupted) unimaged) (inactive .A)) (inactive .B)
    exact congrArg (fun n => { (s.work.reach due).readRecords with
      startUpCause := some kind, interrupted := s.lastRecord.interrupted, posts := [(.A, n), (.B, n)] }) notice
  refine ⟨w.aux, w.contactors, ?_, fun k => ⟨by rw [hw]; exact Work.readRecords_aux _ k, ?_⟩⟩
  · rw [exec_startUp_eq hp ht unheld (run.trans started) fun x => by rw [hw]; cases x <;> rfl, State.finish_eq, hw]
    rfl
  · rw [hw, Work.readRecords_aux, Work.readRecords_live]
    unfold Aux.unusedLive Aux.shows Aux.settled
    cases (s.work.reach due).aux[k].made0.getD false <;> cases (s.work.reach due).aux[k].made1.getD false <;> rfl

end Machine
end Sys2Proof

/-! PROOFS. The four queries (R70, R118, R135, R166): each record laid out byte by byte from the state as it stands. -/
namespace Sys2Proof
namespace Machine

/-- Settles O2: a query's block leaves its work as it was, and each field of its record carries the field's code. -/
theorem queriesChangeNothing : Obligations.QueriesChangeNothing := by
  intro x s h two signed yes number tag state status consent schedule phase owner query cause label statusRecord towers tower
    monitorRecord contactor
  have number_eq (q : Option PatternNo) : patternCode q = number q := by cases q <;> rfl
  have status_eq (v : Status) : statusCode v = status v := rfl
  have statusLaid : s.work.statusRecord x (s.ports.get x).dropped = statusRecord := by
    have state_eq : carrierCode (s.carrier x).state = state := rfl
    have consent_eq : ((s.consentPolicy.get x).map consentCode).getD 0xFF = consent := by
      simp only [consent]
      rcases s.consentPolicy.get x with _ | _ | _ | _ <;> rfl
    have schedule_eq : ((s.schedulePolicy.get x).map scheduleCode).getD 0xFF = schedule := by
      simp only [schedule]
      rcases s.schedulePolicy.get x with _ | _ | _ <;> rfl
    have phase_eq : (s.transition.map fun t => phaseCode t.phase).getD 0 = phase := by
      simp only [phase]
      cases s.transition with
      | none => rfl
      | some t => rfl
    have owner_eq : (s.transition.map fun t => stationCode t.station).getD 0 = owner := by
      simp only [owner]
      cases s.transition with
      | none => rfl
      | some t => rfl
    have query_eq : (s.queryTo x).map (fun t => t.tag) = query := by
      simp only [query, Plant.queryTo]
      cases s.transition with
      | none => rfl
      | some t =>
        dsimp only
        split <;> rfl
    have cause_eq : (s.startUpCause.map resetCode).getD 0 = cause := by
      simp only [cause]
      rcases s.startUpCause with _ | _ | _ <;> rfl
    have rf_eq : flagByte ((s.carrier x).rfPresent == some true) = yes (decide ((s.carrier x).rfPresent = some true)) := by
      rcases (s.carrier x).rfPresent with _ | _ | _ <;> rfl
    have override_eq : flagByte (s.override.get x != .clear) = yes (decide (s.override.get x ≠ .clear)) := by
      cases s.override.get x <;> rfl
    unfold Plant.statusRecord
    simp only [State.work_toPlant, number_eq, status_eq, state_eq, consent_eq, schedule_eq, phase_eq, owner_eq, query_eq,
      cause_eq, rf_eq, override_eq]
    simp only [statusRecord, label]
    cases s.active x <;> rfl
  have monitorLaid : s.work.monitorRecord x = monitorRecord := by
    have tower_eq (i : TowerNo) : towerRecord (decide (i.val + 2 ≤ towers)) (s.stations.get x).channels[i] = tower i := by
      simp only [tower, towerRecord, status_eq]
      cases decide (i.val + 2 ≤ towers) with
      | false => rfl
      | true => cases (s.stations.get x).channels[i].figures <;> rfl
    change [statusCode (s.stations.get x).arrayStatus] ++ bytes16 (s.stations.get x).reference.amplitude ++
      [flagByte (s.stations.get x).reference.present, byteOf towers] ++
      ([0, 1, 2, 3, 4] : List TowerNo).flatMap (fun i =>
        towerRecord (decide (i.val + 2 ≤ towers)) (s.stations.get x).channels[i]) = monitorRecord
    simp only [tower_eq, status_eq, List.flatMap_cons, List.flatMap_nil, List.append_nil, ← List.append_assoc]
    rfl
  have contactor_eq (k : ContactorNo) : [positionCode s.contactors[k].position, liveCode s.contactors[k].state,
      failureCode s.contactors[k].failure, stationSetCode (carrierSet s.activeImage k)] = contactor k := rfl
  have contactorsLaid : s.work.contactorEntries = (List.finRange 16).flatMap contactor :=
    congrArg (List.flatMap · (List.finRange 16)) (funext contactor_eq)
  have answered (r : Request) (reply : Reply) (ha : act x (s.ports.get x).dropped r s.work = (s.work, reply)) :
      Host.Outcome.next (s.receiveRequest x r) = (.next (s.answered x r.kind reply.code reply.data) :
        Host.Outcome State Fault Refusal) := congrArg _ (State.receiveRequest_unchanged h ha)
  refine ⟨answered .statusQuery ⟨.accepted, statusRecord⟩ ?_, answered .monitorQuery ⟨.accepted, monitorRecord⟩ ?_,
    answered .contactorQuery ⟨.accepted, (List.finRange 16).flatMap contactor⟩ ?_, ?_⟩
  · rw [← statusLaid]
    rfl
  · rw [← monitorLaid]
    rfl
  · rw [← contactorsLaid]
    rfl
  · cases hc : s.clock with
    | some r => exact answered .clockQuery ⟨.accepted, readingBytes r⟩ (by simp [act, actClockQuery, hc])
    | none => exact answered .clockQuery (.plain .clockInvalid) (by simp [act, actClockQuery, hc])

end Machine
end Sys2Proof

/-! PROOFS. The carrier records stay sound (R72, R73, R76, R83, R86, R87, R120, R127): each primitive change of the part keeps
both. -/
namespace Sys2Proof
namespace Machine

/-- What a station's own units do at an event keeps their carrier record sound. -/
theorem StationEvent.keeps {p : Plant} {x : Station} {f : Ctx → StationWork → StationWork} (h : StationEvent p x f) : Keeps f := by
  have unread {r r' : Carrier} (k : r.Sound) (alike : r.Alike r') : r'.Sound := alike.sound k
  cases h with
  | rampTick due =>
    exact fun c w k => StationWork.rampTick_keeps c _ (unread k ⟨rfl, rfl, rfl, rfl, rfl, rfl, rfl, rfl, rfl⟩)
  | period due => exact fun c w k => unread k ⟨rfl, rfl, rfl, rfl, rfl, rfl, rfl, rfl, rfl⟩
  | takeRf active => exact fun c w k => Carrier.takeRfPresent_sound active _ k
  | rfNoticed => exact fun c w k => unread k ⟨rfl, rfl, rfl, rfl, rfl, rfl, rfl, rfl, rfl⟩
  | stopMute => exact StationWork.stopMuteTimer_keeps
  | verifyFailed _ => exact StationWork.verifyFailed_keeps
  | outOfTolerance _ => exact StationWork.outOfTolerance_keeps
  | stale i => exact StationWork.staleExpiry_keeps i
  | measured m r t q d _ => exact StationWork.keptMeasurement_keeps m r t q d

/-- The value given at the end of the start-up wait confirms no mute: a confirmed mute has its value already (R85, R86). -/
theorem Carrier.settleRf_sound {r : Carrier} (h : r.Sound) : r.settleRf.Sound :=
  { h with mute_held := fun muted => ⟨(h.mute_held muted).1, by simp [Carrier.settleRf, (h.mute_held muted).2]⟩ }

theorem Carrier.startClocks_sound (now : Nat) {r : Carrier} (h : r.Sound) : (r.startClocks now).Sound :=
  (⟨rfl, rfl, rfl, rfl, rfl, rfl, rfl, rfl, rfl⟩ : r.Alike (r.startClocks now)).sound h

/-- What rests on the stations' records alone survives a change elsewhere. -/
theorem Plant.CarriersSound.congr {p p' : Plant} (h : p.CarriersSound) (hs : p'.stations = p.stations) : p'.CarriersSound := by
  unfold Plant.CarriersSound Plant.carrier at *
  rwa [hs]

theorem Work.recomputeScan_stations (w : Work) : w.recomputeScan.stations = w.stations := by
  unfold Work.recomputeScan
  dsimp only
  split <;> rfl

theorem Work.completeWrite_carriersSound {w : Work} (h : w.CarriersSound) : w.completeWrite.CarriersSound := by
  unfold Work.completeWrite
  split
  · exact h
  · refine (Work.startNextWrite_moves _).carriersSound (h.congr ?_)
    split <;> rfl

/-- A primitive change keeps both records sound. The two that write them all are the end of reset and the end of the start-up
wait, and a reset clears them. -/
theorem Change.carriersSound {p q : Plant} (h : Change p q) (hp : p.CarriersSound) : q.CarriersSound := by
  cases h with
  | engine moves => exact moves.carriersSound hp
  | station w x f event => exact Work.onStation_carriersSound x f w event.keeps hp
  | scan w => exact hp.congr w.recomputeScan_stations
  | written w => exact Work.completeWrite_carriersSound hp
  | storeBuffer w _ => exact (Work.startNextWrite_moves _).carriersSound (hp.congr rfl)
  | resetEnd p kind rate t _ =>
    intro x
    have started : (p.startClocks.get x).carrier = (p.carrier x).startClocks p.elapsed := by cases x <;> rfl
    show (p.startClocks.get x).carrier.Sound
    rw [started]
    exact Carrier.startClocks_sound p.elapsed (hp x)
  | readRecords w kind _ =>
    intro x
    have settled : w.readRecords.carrier x = (w.carrier x).settleRf := by cases x <;> rfl
    rw [settled]
    exact Carrier.settleRf_sound (hp x)
  | reset s kind => exact fun x => by cases x <;> exact Carrier.reset_sound
  | time | draw | measurementOver | aux | policies | slot | idleTimer | block | readback | clock | activate | closeReadbacks
  | startUpCause => exact hp.congr rfl

/-- Settles O57: every step is a chain of primitive changes, each of which keeps both records sound. -/
theorem carriersStaySound : Obligations.CarriersStaySound :=
  fun s t sound he => step_kept (P := Plant.CarriersSound) (fun _ _ change => change.carriersSound) s t he sound

end Machine
end Sys2Proof

/-! PROOFS. Events that change one carrier record in place: the tick short of the target and the power reference (R74, R84), and RF
present outside SWITCH and REVERSE (R85, R86, R88). -/
namespace Sys2Proof
namespace Machine

/-! ### An event that changes one carrier record -/

/-- The carrier record of station `x` changed, in the work of an event. -/
def Work.onCarrier (x : Station) (f : Carrier → Carrier) (w : Work) : Work :=
  w.onStation x fun _ u => { u with carrier := f u.carrier }

theorem Work.onCarrier_carrier (x y : Station) (f : Carrier → Carrier) (w : Work) :
    (w.onCarrier x f).carrier y = if y = x then f (w.carrier x) else w.carrier y := Work.onStation_carrier y x _ w

theorem Work.onCarrier_eq (x : Station) (f : Carrier → Carrier) (w : Work) : w.onCarrier x f =
    { w with stations := w.stations.set x { w.stations.get x with carrier := f (w.carrier x) } } := Work.onStation_quiet_eq x f w

theorem State.onCarrier_congr {x : Station} {f g : Carrier → Carrier} {s : State} (h : f (s.carrier x) = g (s.carrier x)) :
    s.onCarrier x f = s.onCarrier x g :=
  congrArg (fun r => { s with stations := s.stations.set x { s.stations.get x with carrier := r } }) h

/-- An event whose work is the change of one carrier record, after what changed no station, leaves that and its notices. -/
theorem State.event_onCarrier {F : Work → Work} {x : Station} {f : Carrier → Carrier} {v : Work} {s : State}
    (h : F s.work = v.onCarrier x f) (hs : v.stations = s.stations) :
    s.event F = State.deliver v.posts (({ s with toPlant := v.toPlant } : State).onCarrier x f) := by
  rw [State.event_eq F s fun y => ?_, h, Work.onCarrier_eq]
  · rfl
  · rw [h, Work.onCarrier_eq, hs]
    by_cases hy : y = x
    · subst hy
      rw [Pair.get_set_self]
    · rw [Pair.get_set_of_ne _ _ hy]

/-! ### The ramp tick short of the target (R74) -/

theorem StationWork.rampTick_idle {c : Ctx} {w : StationWork}
    (h : w.carrier.ramp = none ∨ (w.carrier.state ≠ .lowering ∧ w.carrier.state ≠ .raising)) : w.rampTick c = w := by
  unfold StationWork.rampTick
  rcases h with off | ⟨down, up⟩
  · rw [off]
  · split
    · rfl
    · exact if_neg (not_or.2 ⟨down, up⟩)

theorem StationWork.rampTick_short {c : Ctx} {w : StationWork} {ramp : Ramp} (on : w.carrier.ramp = some ramp)
    (moving : w.carrier.state = .lowering ∨ w.carrier.state = .raising) (short : w.carrier.steppedLevel c ramp ≠ ramp.target) :
    w.rampTick c = { w with carrier := { w.carrier with level := w.carrier.steppedLevel c ramp } } := by
  unfold StationWork.rampTick
  rw [on]
  dsimp only
  rw [if_pos moving, if_neg short]

/-- A tick that enters no state is nothing to the Transition Engine, and changes the station's carrier record alone. -/
theorem exec_rampTick_within {x : Station} {due : Nat} {s : State} {f : Carrier → Carrier}
    (running : (s.carrier x).rampTimer = some due) (settled : s.Settled) (waiting : s.Waiting)
    (same : (f (s.carrier x)).state = (s.carrier x).state ∧ (f (s.carrier x)).muteConfirmed = (s.carrier x).muteConfirmed)
    (step : StationWork.rampTick ((s.work.reach due).toPlant.ctx x)
        { s.stations.get x with carrier := { s.carrier x with rampTimer := some (due + Config.rampTick) }, out := [] } =
      { s.stations.get x with carrier := f (s.carrier x), out := [] }) :
    exec (.rampTick x) s = .next (({ s with elapsed := max s.elapsed due } : State).onCarrier x f) := by
  obtain ⟨v, hv⟩ : ∃ v, v = (s.work.reach due).onCarrier x f := ⟨_, rfl⟩
  have tick := Work.tickRamp_due (w := s.work) (v := v) running (by rw [Work.onStation_of step, hv]; rfl)
  have undone : v.Settled := settled.congr (by rw [hv]; rfl) fun y => by
    rw [hv, Work.onCarrier_carrier]
    split
    · next hy => exact hy ▸ same
    · exact ⟨rfl, rfl⟩
  rw [Work.quiesceCheck_open undone.quiesceOpen, Work.restoreCheck_open undone.restoreOpen,
    Work.examinePending_waiting v (waiting.congr (by rw [hv]; rfl) (by rw [hv]; rfl) (by rw [hv]; rfl)), hv] at tick
  exact congrArg Host.Outcome.next (State.event_onCarrier tick rfl)

/-! ### The power reference (R84) -/

/-- The output within a period: high from its start for as many microseconds as the duty in force. -/
theorem Carrier.referenceHigh_iff {r : Carrier} {start since : Nat} (period : r.periodTimer = some (start + Config.ms 1))
    (within : since < Config.us 1000) (duty : r.dutyInForce ≤ 1000) :
    r.referenceHigh (start + since) = true ↔ since < Config.us r.dutyInForce := by
  have microsecond (n : Nat) : Config.us n = 576 * n := Nat.mul_comm n 576
  unfold Carrier.referenceHigh
  rw [period]
  dsimp only
  rw [decide_eq_true_iff, show Config.referencePeriod = Config.ms 1 from rfl, microsecond]
  rw [microsecond] at within
  omega

/-- Settles O26: a tick short of the target takes its step and enters no state, and a period takes the level as its duty. -/
theorem carrierClocksTick : Obligations.CarrierClocksTick := by
  constructor
  · intro x due s running settled waiting next s1
    refine ⟨fun idle => exec_rampTick_within running settled waiting ⟨rfl, rfl⟩ (StationWork.rampTick_idle idle), ?_⟩
    intro ramp on record lowered raised
    constructor <;> intro state short
    · have stepped : (s.carrier x).steppedLevel ((s.work.reach due).toPlant.ctx x) ramp = lowered := if_pos state
      rw [← stepped] at short ⊢
      exact exec_rampTick_within running settled waiting ⟨rfl, rfl⟩ (StationWork.rampTick_short on (.inl state) short)
    · have stepped : (s.carrier x).steppedLevel ((s.work.reach due).toPlant.ctx x) ramp = raised :=
        if_neg (by rw [state]; decide)
      rw [← stepped] at short ⊢
      exact exec_rampTick_within running settled waiting ⟨rfl, rfl⟩ (StationWork.rampTick_short on (.inr state) short)
  · intro x s
    refine ⟨fun due running => ?_, fun stopped => ⟨?_, ?_⟩, fun start since running now within duty => ?_⟩
    · have tick : s.work.tickPeriod x = (s.work.reach due).onCarrier x fun r =>
          { r with dutyInForce := r.level, periodTimer := some (due + Config.ms 1) } := by
        unfold Work.tickPeriod
        rw [show (s.work.carrier x).periodTimer = some due from running]
        rfl
      exact congrArg Host.Outcome.next (State.event_onCarrier tick rfl)
    · refine congrArg Host.Outcome.next (State.event_idle ?_)
      unfold Work.tickPeriod
      rw [show (s.work.carrier x).periodTimer = none from stopped]
    · show (s.carrier x).referenceHigh s.elapsed = false
      unfold Carrier.referenceHigh
      rw [stopped]
    · show (s.carrier x).referenceHigh s.elapsed = true ↔ _
      rw [now]
      exact Carrier.referenceHigh_iff running within duty

/-! ### RF present outside SWITCH and REVERSE (R85, R86, R88) -/

/-- Outside SWITCH and REVERSE an RF present event disturbs nothing (R43). -/
theorem Work.rfDisturbance_outside {x : Station} {w : Work}
    (h : ∀ t, w.transition = some t → t.phase ≠ .switch ∧ t.phase ≠ .reverse) : w.rfDisturbance x = w := by
  unfold Work.rfDisturbance
  split
  · rfl
  · next t ht => exact if_neg fun ⟨phase, _⟩ => phase.elim (h t ht).1 (h t ht).2

/-- Outside SWITCH the notice goes to every station with RF inhibit asserted, once for each entry (R88). -/
theorem Plant.noticesRf_outside {x : Station} {p : Plant} (h : ∀ t, p.transition = some t → t.phase ≠ .switch) :
    p.noticesRf x = ((p.carrier x).rfInhibit && !(p.carrier x).rfNoticePosted) := by
  unfold Plant.noticesRf
  split
  · next t ht => simp [h t ht]
  · exact Bool.and_true _

/-- The notice posted and the record that says so, as one change of the record behind the notice. -/
theorem Work.noticeRf_onCarrier {x : Station} {f : Carrier → Carrier} {posts : Bool} {w : Work}
    (h : (w.onCarrier x f).noticesRf x = posts) :
    (w.onCarrier x f).noticeRf x =
      Work.onCarrier x (fun r => { f r with rfNoticePosted := (f r).rfNoticePosted || posts })
        { w with posts := w.posts ++ if posts then [(x, .rfWhileInhibited (f (w.carrier x)).state w.clock)] else [] } := by
  obtain ⟨v, hv⟩ : ∃ v, v = w.onCarrier x f := ⟨_, rfl⟩
  have mine : v.carrier x = f (w.carrier x) := by rw [hv, Work.onCarrier_carrier, if_pos rfl]
  rw [← hv] at h ⊢
  rw [Work.noticeRf_eq, h, mine, hv, Work.onCarrier_eq, Work.onCarrier_eq]
  simp only [Pair.get_set_self, Pair.set_set]

/-- In DARK a value taken leaves mute confirmed as it is (R85, R86). -/
theorem Carrier.takeRfPresent_dark {active : Bool} {r : Carrier} (dark : r.state = .dark) :
    r.takeRfPresent active = { r with rfPresent := some active } := by
  unfold Carrier.takeRfPresent
  rw [if_neg (by rw [dark]; decide)]

/-- A level that is not the value, in service, is an event (R85). -/
theorem Work.rfPresent_changed {x : Station} {active : Bool} {w : Work} (running : w.phase = .running)
    (changed : (w.carrier x).rfPresent ≠ some active) : w.rfPresent x active = w.rfEvent x active := by
  unfold Work.rfPresent
  rw [running]
  exact if_neg changed

/-- RF going active outside SWITCH and REVERSE: the value is taken, and the notice posted if it is due. -/
theorem Work.rfEvent_active {x : Station} {posts : Bool} {w : Work} (waiting : w.Waiting)
    (outside : ∀ t, w.transition = some t → t.phase ≠ .switch ∧ t.phase ≠ .reverse)
    (due : posts = ((w.carrier x).rfInhibit && !(w.carrier x).rfNoticePosted)) :
    w.rfEvent x true = Work.onCarrier x (fun r => { r.takeRfPresent true with rfNoticePosted := r.rfNoticePosted || posts })
      { w with posts := w.posts ++ if posts then [(x, .rfWhileInhibited (w.carrier x).state w.clock)] else [] } := by
  have notices : (w.onCarrier x (Carrier.takeRfPresent true)).noticesRf x = posts := by
    rw [Plant.noticesRf_outside (p := (w.onCarrier x _).toPlant) fun t ht => (outside t ht).1, Work.onCarrier_carrier,
      if_pos rfl, due]
    rfl
  have event : w.rfEvent x true =
      (((w.onCarrier x (Carrier.takeRfPresent true)).noticeRf x).rfDisturbance x).examinePending := rfl
  rw [event, Work.noticeRf_onCarrier notices, Work.rfDisturbance_outside]
  · exact Work.examinePending_waiting _ waiting
  · exact outside

/-- RF going inactive, with QUIESCE going on: the value is taken, and nothing else comes of it. -/
theorem Work.rfEvent_inactive {x : Station} {w : Work} (waiting : w.Waiting)
    (quiesce : ∀ t, w.transition = some t → t.phase = .quiesce →
      (∃ y, y ≠ x ∧ t.affected.get y = true ∧ (w.carrier y).quiet = false) ∨
      (t.affected.get x = true ∧ (w.carrier x).state ≠ .held)) :
    w.rfEvent x false = w.onCarrier x (Carrier.takeRfPresent false) := by
  have goes_on : (w.onCarrier x (Carrier.takeRfPresent false)).QuiesceOpen := by
    intro t ht phase
    have noisy : ∃ y, t.affected.get y = true ∧ ((w.onCarrier x (Carrier.takeRfPresent false)).carrier y).quiet = false := by
      rcases quiesce t ht phase with ⟨y, other, affected, loud⟩ | ⟨affected, state⟩
      · exact ⟨y, affected, by rw [Work.onCarrier_carrier, if_neg other]; exact loud⟩
      · refine ⟨x, affected, ?_⟩
        rw [Work.onCarrier_carrier, if_pos rfl]
        exact Bool.and_eq_false_iff.2 (.inl (beq_eq_false_iff_ne.2 state))
    obtain ⟨y, affected, loud⟩ := noisy
    exact List.all_eq_false.2 ⟨y, StationSet.mem_members.2 affected, Bool.eq_false_iff.1 loud⟩
  have event : w.rfEvent x false = (w.onCarrier x (Carrier.takeRfPresent false)).quiesceCheck.examinePending := rfl
  rw [event, Work.quiesceCheck_open goes_on]
  exact Work.examinePending_waiting _ waiting

/-- Settles O29: the value is taken into the record, with the notice when it goes active, and nothing else comes of it. -/
theorem rfPresentFollowed : Obligations.RfPresentFollowed := by
  intro x active s
  refine ⟨fun kind held => ?_, fun kind starting dark => ?_, fun running same => ?_,
    fun running changed settled waiting outside => ⟨?_, ?_⟩⟩
  · refine congrArg Host.Outcome.next (State.event_idle ?_)
    unfold Work.rfPresent
    rw [show s.work.phase = .held kind from held]
  · have taken : s.work.rfPresent x active = s.work.onCarrier x fun r => r.takeRfPresent active := by
      unfold Work.rfPresent
      rw [show s.work.phase = .starting kind from starting]
      rfl
    exact congrArg Host.Outcome.next ((State.event_onCarrier taken rfl).trans
      (State.onCarrier_congr (Carrier.takeRfPresent_dark dark)))
  · refine congrArg Host.Outcome.next (State.event_idle ?_)
    unfold Work.rfPresent
    rw [show s.work.phase = .running from running]
    exact if_pos same
  · rintro rfl
    have event := (Work.rfPresent_changed (w := s.work) running changed).trans (Work.rfEvent_active waiting outside rfl)
    refine congrArg Host.Outcome.next ((State.event_onCarrier event rfl).trans
      (congrArg (State.deliver _) (State.onCarrier_congr ?_)))
    have either (posted inhibit : Bool) : (posted || (inhibit && !posted)) = (posted || inhibit) := by
      cases posted <;> simp
    exact congrArg (fun b => { (s.carrier x).takeRfPresent true with rfNoticePosted := b }) (either _ _)
  · rintro rfl quiesce
    have event := (Work.rfPresent_changed (w := s.work) running changed).trans (Work.rfEvent_inactive waiting quiesce)
    exact congrArg Host.Outcome.next (State.event_onCarrier event rfl)

end Machine
end Sys2Proof

/-! PROOFS. The out-of-tolerance hold (R81, R128): the notice with the towers that are OUT, and the lower to reduce. -/
namespace Sys2Proof
namespace Machine

/-- The monitored towers of a pattern that are OUT, as OUT_OF_TOLERANCE tells them (R128). -/
def StationWork.towersOut (c : Ctx) (q : PatternNo) (w : StationWork) : Vector Bool 5 :=
  Vector.ofFn fun i => (monitoredTowers c.image c.station q).contains i && w.channels[i].towerStatus == .out

theorem StationWork.towersOut_iff {c : Ctx} {q : PatternNo} {w : StationWork} (i : TowerNo) :
    (w.towersOut c q)[i] = true ↔ i.val + 2 ≤ (pattern c.image c.station q).towers ∧ w.channels[i].towerStatus = .out := by
  simp [StationWork.towersOut, mem_monitoredTowers]

/-- The hold that has run out, in a station with an active pattern: the timer stops, and the lower follows the notice. -/
theorem StationWork.outOfTolerance_eq {c : Ctx} {q : PatternNo} {w : StationWork} (active : w.activePattern = some q) :
    StationWork.outOfTolerance c w = StationWork.lowerToReduce c { w with
      carrier := { w.carrier with holdTimer := none }
      out := w.out ++ [.outOfTolerance (some q) (settings c.image c.station).holdSeconds (w.towersOut c q)] } := by
  unfold StationWork.outOfTolerance StationWork.post StationWork.towersOut
  simp only [active]

/-- Settles O33: the notice, then the lower to reduce, in the station's own records alone. -/
theorem outOfToleranceExpires : Obligations.OutOfToleranceExpires := by
  intro x due q s running
  refine ⟨fun other => congrArg Host.Outcome.next (State.event_idle (if_neg other)), ?_⟩
  intro normal active record r high reduced ramp
  obtain ⟨c, hc⟩ : ∃ c, c = (s.work.reach due).toPlant.ctx x := ⟨_, rfl⟩
  obtain ⟨out, hout⟩ : ∃ out, out = StationWork.towersOut c q { toStationUnit := s.stations.get x, out := [] } := ⟨_, rfl⟩
  obtain ⟨w, hw⟩ : ∃ w : StationWork, w = { s.stations.get x with
    carrier := { s.carrier x with holdTimer := none }
    out := [.outOfTolerance (some q) (settings s.activeImage x).holdSeconds out] } := ⟨_, rfl⟩
  have lowered : StationWork.outOfTolerance c { toStationUnit := s.stations.get x, out := [] } = w.lowerToReduce c := by
    rw [StationWork.outOfTolerance_eq active, hw, hout, hc]
    rfl
  have leave : w.carrier.leave.holdTimer = none := by
    rw [hw]
    simp [Carrier.leave, normal]
  obtain ⟨r', more, eq, state, level, on, -, -, hold, few⟩ := StationWork.lowerToReduce_eq (c := c) (w := w) (q := q)
    (by rw [hw]; exact active) (.inr (by rw [hw]; exact normal)) (by rw [hw, hc]; exact high)
  rw [show pattern c.image c.station q = record by rw [hc]; rfl, show w.carrier.level = r.level by rw [hw]] at state on eq
  rw [show w.carrier.muteConfirmed = r.muteConfirmed by rw [hw], show w.carrier.rfPresent = r.rfPresent by rw [hw]] at eq
  obtain ⟨u, hu⟩ : ∃ u, u = w.lowerToReduce c := ⟨_, rfl⟩
  rw [← hu] at eq lowered
  obtain ⟨v, hv⟩ : ∃ v : Work, v = { s.work.reach due with
      stations := s.stations.set x u.toStationUnit, posts := u.out.map fun n => (x, n) } := ⟨_, rfl⟩
  have expired : (if (s.work.carrier x).state = .normal then
      s.work.whenDue (s.work.carrier x).holdTimer fun w => w.onStation x StationWork.outOfTolerance else s.work) = v := by
    rw [if_pos (show (s.work.carrier x).state = .normal from normal),
      show (s.work.carrier x).holdTimer = some due from running]
    show (s.work.reach due).onStation x StationWork.outOfTolerance = v
    rw [Work.onStation_of (u := u) (by rw [← lowered, hc]; rfl), hv]
    rfl
  have told : v.noticesTo x = .outOfTolerance (some q) (settings s.activeImage x).holdSeconds out ::
      .carrierState (if reduced then .reduced else .lowering) r.level (some q) (if reduced then none else some ramp)
        r.muteConfirmed (r.rfPresent == some true) :: more := by
    have mine : v.noticesTo x = u.out := by
      rw [hv]
      exact filter_own x u.out
    rw [mine, eq, hw]
    rfl
  have mine : v.stations.get x = u.toStationUnit := by rw [hv, Pair.get_set_self]
  have left := State.event_left (f := fun w => if (w.carrier x).state = .normal then
    w.whenDue (w.carrier x).holdTimer fun w => w.onStation x StationWork.outOfTolerance else w) (s := s) expired
  obtain ⟨y, hy⟩ : ∃ y, y = s.event fun w => if (w.carrier x).state = .normal then
    w.whenDue (w.carrier x).holdTimer fun w => w.onStation x StationWork.outOfTolerance else w := ⟨_, rfl⟩
  rw [← hy] at left
  have carrier : y.carrier x = r' := by
    rw [left.carrier]
    unfold Plant.carrier
    rw [mine, eq]
  refine ⟨y, out, by rw [hy]; rfl, fun i => ?_, ?_, ?_, ?_, ?_, ?_, ?_, ?_, ?_, ?_, fun quiet => ?_⟩
  · rw [hout, StationWork.towersOut_iff, hc]
    rfl
  · rw [carrier, state]
  · rw [carrier, level, hw]
  · rw [carrier, on]
  · rw [carrier, hold, leave]
  · rw [left.active]
    unfold Plant.active
    rw [mine, eq, hw]
  · rw [left.field Plant.elapsed fun _ _ _ _ => rfl, hv]
    rfl
  · rw [left.contactors, hv]
    rfl
  · rw [left.transition, hv]
    rfl
  · rw [left.stations, hv]
    exact Pair.get_set_peer _ _ _
  · rw [left.notices (by rw [quiet, told]; simp only [List.length_cons, List.length_nil]; omega), quiet, told]
    rfl

end Machine
end Sys2Proof

/-! PROOFS. A sample's measures: the ratio and the phase as rounded quotients (R104, R105), and the phase timer's two counts (R93). -/
namespace Sys2Proof
namespace Machine

/-! ### The ratio and the phase -/

theorem sampleRatio_le (reference tower : Nat) : sampleRatio reference tower ≤ 9999 := Nat.min_le_left ..

theorem sampleRatio_mul_le (reference tower : Nat) :
    2 * reference * sampleRatio reference tower ≤ 2000 * tower + reference :=
  calc 2 * reference * sampleRatio reference tower
      ≤ 2 * reference * ((2000 * tower + reference) / (2 * reference)) := Nat.mul_le_mul_left _ (Nat.min_le_right ..)
    _ ≤ 2000 * tower + reference := Nat.mul_div_le ..

/-- Below the hold at 9999 the ratio is the whole part itself, so one more is too much. -/
theorem lt_mul_sampleRatio_succ {reference tower : Nat} (positive : 0 < reference) (free : sampleRatio reference tower < 9999) :
    2000 * tower + reference < 2 * reference * (sampleRatio reference tower + 1) := by
  have whole : sampleRatio reference tower = (2000 * tower + reference) / (2 * reference) := by
    unfold sampleRatio at free ⊢
    omega
  rw [whole]
  exact Nat.lt_mul_div_succ _ (by omega)

/-- The delay's fraction of the cycle in tenths of a degree, rounded half up and not yet wrapped (R105). -/
def cycleTenths (period delay : Nat) : Nat := (7200 * delay + period) / (2 * period)

theorem samplePhase_eq (period delay : Nat) :
    samplePhase period delay =
      if cycleTenths period delay = 3600 then 0
      else if cycleTenths period delay ≤ 1800 then (cycleTenths period delay : Int)
      else (cycleTenths period delay : Int) - 3600 := by
  rw [samplePhase, ← cycleTenths]
  by_cases whole : cycleTenths period delay = 3600
  · simp [whole]
  · simp [whole]

/-- A delay below the period is less than a whole cycle, which it can still be rounded to. -/
theorem cycleTenths_le {period delay : Nat} (short : delay < period) : cycleTenths period delay ≤ 3600 := by
  have less : cycleTenths period delay < 3601 := by
    rw [cycleTenths, Nat.div_lt_iff_lt_mul (by omega)]
    omega
  omega

theorem cycleTenths_bounds {period : Nat} (delay : Nat) (positive : 0 < period) :
    2 * (period * cycleTenths period delay) ≤ 7200 * delay + period ∧
    7200 * delay < 2 * (period * cycleTenths period delay) + period := by
  have low := Nat.mul_div_le (7200 * delay + period) (2 * period)
  have high := Nat.lt_mul_div_succ (7200 * delay + period) (show 0 < 2 * period by omega)
  rw [← cycleTenths, Nat.mul_assoc] at low
  rw [← cycleTenths, Nat.mul_assoc, Nat.mul_succ] at high
  omega

/-- The phase lies in −1799…+1800 and is the rounded fraction of the cycle, or that less one whole cycle (R105). -/
theorem samplePhase_wraps {period delay : Nat} (short : delay < period) :
    -1799 ≤ samplePhase period delay ∧ samplePhase period delay ≤ 1800 ∧
    ∃ turns : Int, (turns = 0 ∨ turns = 1) ∧ samplePhase period delay + 3600 * turns = cycleTenths period delay := by
  have top := cycleTenths_le short
  rw [samplePhase_eq]
  split
  next whole => exact ⟨by omega, by omega, 1, .inr rfl, by omega⟩
  next part =>
    split
    next half => exact ⟨by omega, by omega, 0, .inl rfl, by omega⟩
    next beyond => exact ⟨by omega, by omega, 1, .inr rfl, by omega⟩

/-! ### The phase timer's counts -/

/-- The count-clock periods of a measurement: 20 ms at 64 MHz (R91, R93). -/
theorem measurementCounts_eq : Config.measurementCounts = 1280000 := by decide

theorem firstCrossing_of_first {since c : Nat} {crossings : List Nat} (mem : c ∈ crossings) (late : since ≤ c)
    (inTime : c ≤ 1280000) (first : ∀ e ∈ crossings, since ≤ e → c ≤ e) : firstCrossing since crossings = some c :=
  firstCrossing_eq_some.2 ⟨⟨mem, late, measurementCounts_eq ▸ inTime⟩, fun e he after _ => first e he after⟩

theorem firstCrossing_of_none {since : Nat} {crossings : List Nat} (without : ∀ e ∈ crossings, since ≤ e → 1280000 < e) :
    firstCrossing since crossings = none :=
  firstCrossing_eq_none.2 (measurementCounts_eq ▸ without)

theorem timerReading_closed (o c : Nat) : timerReading (some o) (some c) = min 8191 (c - o) := rfl

theorem timerReading_unclosed (o : Nat) : timerReading (some o) none = min 8191 (1280000 - o) := by
  rw [← measurementCounts_eq]
  rfl

/-- A count that never opens has counted from the measurement's start, and stands at its limit (log entry 40). -/
theorem timerReading_unopened : timerReading none none = 8191 := by decide

section Opened
variable {reference tower : List Nat} {o : Nat} (opening : openingCrossing reference = some o)
include opening

theorem periodCount_of_opening : periodCount reference = timerReading (some o) (firstCrossing (o + 1) reference) := by
  rw [periodCount, opening, Option.bind_some]

theorem delayCount_of_opening : delayCount reference tower = timerReading (some o) (firstCrossing o tower) := by
  rw [delayCount, opening, Option.bind_some]

/-- With no tower crossing before a period from the opening one on, the delay count runs at least to that period, held as it is. -/
theorem le_delayCount {c : Nat} (inTime : c ≤ 1280000) (without : ∀ e ∈ tower, o ≤ e → c ≤ e) :
    min 8191 (c - o) ≤ delayCount reference tower := by
  rw [delayCount_of_opening opening]
  cases closing : firstCrossing o tower with
  | none =>
    rw [timerReading_unclosed]
    omega
  | some d =>
    obtain ⟨⟨mem, after, -⟩, -⟩ := firstCrossing_eq_some.1 closing
    have late : c ≤ d := without d mem after
    rw [timerReading_closed]
    omega

end Opened

theorem counts_of_unopened {reference : List Nat} (tower : List Nat) (opening : openingCrossing reference = none) :
    periodCount reference = 8191 ∧ delayCount reference tower = 8191 := by
  rw [periodCount, delayCount, opening]
  exact ⟨timerReading_unopened, timerReading_unopened⟩

/-- Settles O53: the quotients by the bounds of a whole part, and the counts by what the first crossing from a period on is. -/
theorem sampleMeasures : Obligations.SampleMeasures := by
  refine ⟨fun reference tower positive => ?ratio, fun period delay short => ?phase, fun reference tower =>
    ⟨fun o mem inTime first => ?opened, fun without => ?unopened⟩⟩
  case ratio => exact ⟨sampleRatio_le .., sampleRatio_mul_le .., lt_mul_sampleRatio_succ positive⟩
  case phase =>
    obtain ⟨low, high, turns, range, wraps⟩ := samplePhase_wraps short
    have bounds := cycleTenths_bounds delay (show 0 < period by omega)
    refine ⟨low, high, turns, range, ?_⟩
    rw [wraps]
    zify at bounds
    omega
  case opened =>
    have opening : openingCrossing reference = some o :=
      firstCrossing_of_first mem o.zero_le inTime fun c hc _ => first c hc
    refine ⟨fun c hc later closes next => ?period, fun without => ?periodRuns, fun c hc after closes next => ?delay,
      fun without => ?delayRuns⟩
    case period =>
      have count : periodCount reference = min 8191 (c - o) := by
        rw [periodCount_of_opening opening, firstCrossing_of_first hc later closes next, timerReading_closed]
      exact ⟨count, fun without => count ▸ le_delayCount opening closes without⟩
    case periodRuns =>
      rw [periodCount_of_opening opening, firstCrossing_of_none without, timerReading_unclosed]
    case delay =>
      rw [delayCount_of_opening opening, firstCrossing_of_first hc after closes next, timerReading_closed]
    case delayRuns =>
      rw [delayCount_of_opening opening, firstCrossing_of_none without, timerReading_unclosed]
  case unopened =>
    exact counts_of_unopened tower (firstCrossing_of_none fun c hc _ => without c hc)

end Machine
end Sys2Proof

/-! PROOFS. A tower's figures (R108 to R110): the rounded averages, the wrapped phase deviations, the margins and the statuses. -/
namespace Sys2Proof
namespace Machine

/-! ### Rounded averages (R108, R109) -/

/-- The mean of `m` magnitudes of a given sum, rounded half up. -/
def roundedMean (sum m : Nat) : Nat := (2 * sum + m) / (2 * m)

/-- A whole number is a quotient `sum / m`, rounded half up. -/
def RoundsHalfUp (m : Nat) (average sum : Int) : Prop := 2 * m * average ≤ 2 * sum + m ∧ 2 * sum + m < 2 * m * (average + 1)

theorem averageDeviation_of_nonneg {deviations : List Int} (h : 0 ≤ deviations.sum) :
    averageDeviation deviations = roundedMean deviations.sum.natAbs deviations.length := if_pos h

theorem averageDeviation_of_neg {deviations : List Int} (h : deviations.sum < 0) :
    averageDeviation deviations = -roundedMean deviations.sum.natAbs deviations.length := if_neg (by omega)

section
variable {m : Nat} (positive : 0 < m)
include positive

theorem roundedMean_roundsHalfUp (sum : Nat) : RoundsHalfUp m (roundedMean sum m) sum := by
  have low : 2 * m * roundedMean sum m ≤ 2 * sum + m := Nat.mul_div_le ..
  have high : 2 * sum + m < 2 * m * (roundedMean sum m + 1) := Nat.lt_mul_div_succ _ (by omega)
  exact ⟨by exact_mod_cast low, by exact_mod_cast high⟩

/-- A mean is no greater than a bound of what it is the mean of, which rounding half up does not reach beyond. -/
theorem roundedMean_le {sum bound : Nat} (h : sum ≤ m * bound) : roundedMean sum m ≤ bound := by
  have below : 2 * sum + m < 2 * m * (bound + 1) := by
    rw [Nat.mul_succ, Nat.mul_assoc]
    omega
  exact Nat.le_of_lt_succ (Nat.div_lt_of_lt_mul below)

end

theorem ratioAverage_roundsHalfUp {ratios : List Nat} (some_ : ratios ≠ []) :
    RoundsHalfUp ratios.length (ratioAverage ratios) ratios.sum :=
  roundedMean_roundsHalfUp (List.length_pos_of_ne_nil some_) ratios.sum

theorem ratioAverage_le {ratios : List Nat} {bound : Nat} (some_ : ratios ≠ []) (h : ∀ r ∈ ratios, r ≤ bound) :
    ratioAverage ratios ≤ bound :=
  roundedMean_le (List.length_pos_of_ne_nil some_) (List.sum_le_card_nsmul ratios bound h)

/-- The average of deviations that are wrapped is wrapped too (R109). -/
theorem averageDeviation_wrapped {deviations : List Int} (some_ : deviations ≠ [])
    (wrapped : ∀ d ∈ deviations, -1799 ≤ d ∧ d ≤ 1800) :
    -1799 ≤ averageDeviation deviations ∧ averageDeviation deviations ≤ 1800 := by
  have positive := List.length_pos_of_ne_nil some_
  have low := List.card_nsmul_le_sum deviations (-1799) fun d hd => (wrapped d hd).1
  have high := List.sum_le_card_nsmul deviations 1800 fun d hd => (wrapped d hd).2
  rw [nsmul_eq_mul] at low high
  rcases le_or_gt 0 deviations.sum with up | down
  · have mean := roundedMean_le positive (show deviations.sum.natAbs ≤ deviations.length * 1800 by omega)
    rw [averageDeviation_of_nonneg up]
    omega
  · have mean := roundedMean_le positive (show deviations.sum.natAbs ≤ deviations.length * 1799 by omega)
    rw [averageDeviation_of_neg down]
    omega

/-- The average is the quotient rounded half away from zero, on either side of it (R109). -/
theorem averageDeviation_roundsHalfAway {deviations : List Int} (some_ : deviations ≠ []) :
    (0 ≤ deviations.sum → RoundsHalfUp deviations.length (averageDeviation deviations) deviations.sum) ∧
    (deviations.sum < 0 → RoundsHalfUp deviations.length (-averageDeviation deviations) (-deviations.sum)) := by
  have magnitude := roundedMean_roundsHalfUp (List.length_pos_of_ne_nil some_) deviations.sum.natAbs
  constructor
  · intro up
    rwa [averageDeviation_of_nonneg up, ← Int.natAbs_of_nonneg up, Int.natAbs_natCast]
  · intro down
    rwa [averageDeviation_of_neg down, neg_neg, ← Int.ofNat_natAbs_of_nonpos down.le]

/-! ### Phase deviations (R109) -/

/-- Two phases in range differ by less than a cycle, so that one cycle more or less brings the difference into the range. -/
theorem phaseDeviation_wraps {phase licensed : Int} (sampled : -1799 ≤ phase ∧ phase ≤ 1800)
    (record : -1799 ≤ licensed ∧ licensed ≤ 1800) :
    -1799 ≤ phaseDeviation phase licensed ∧ phaseDeviation phase licensed ≤ 1800 ∧
    (phaseDeviation phase licensed - (phase - licensed)) % 3600 = 0 := by
  unfold phaseDeviation
  dsimp only
  split
  next beyond => omega
  next =>
    split
    next below => omega
    next within => omega

/-! ### Margin and status (R110) -/

theorem margin_le (deviation : Int) (tolerance : Nat) : margin deviation tolerance ≤ 100 := Nat.sub_le ..

section
variable {deviation : Int} {tolerance : Nat}

theorem margin_of_beyond (positive : 1 ≤ tolerance) (beyond : tolerance ≤ deviation.natAbs) :
    margin deviation tolerance = 0 := by
  have whole : 100 ≤ 100 * deviation.natAbs / tolerance :=
    (Nat.le_div_iff_mul_le positive).2 (Nat.mul_le_mul_left 100 beyond)
  rw [margin, min_eq_left whole]

/-- Within the tolerance the margin is 100 less the whole part of the percentage used. -/
theorem margin_bounds (within : deviation.natAbs < tolerance) :
    tolerance * (100 - margin deviation tolerance) ≤ 100 * deviation.natAbs ∧
    100 * deviation.natAbs < tolerance * (101 - margin deviation tolerance) := by
  obtain ⟨used, whole⟩ : ∃ used, used = 100 * deviation.natAbs / tolerance := ⟨_, rfl⟩
  have part : used < 100 := whole ▸ Nat.div_lt_of_lt_mul (by omega)
  have left : margin deviation tolerance = 100 - used := by rw [margin, ← whole, min_eq_right part.le]
  rw [left, show 100 - (100 - used) = used by omega, show 101 - (100 - used) = used + 1 by omega, whole]
  exact ⟨Nat.mul_div_le .., Nat.lt_mul_div_succ _ (by omega)⟩

end

/-- Settles O54: the averages as rounded quotients, each deviation wrapped, and each quantity judged by its own margin. -/
theorem figuresJudged : Obligations.FiguresJudged := by
  intro t threshold averaged some_ inRange low high ratioTolerance phaseTolerance f m total rounded judged
  have judges (deviation : Int) {tolerance : Nat} (positive : 1 ≤ tolerance) : judged deviation tolerance
      (margin deviation tolerance) (quantityStatus deviation tolerance threshold) :=
    ⟨margin_le .., margin_of_beyond positive, margin_bounds, rfl⟩
  refine ⟨?_, ?_, rfl, ⟨averaged.map fun v => phaseDeviation v.phase t.phase, ?_, ?_⟩, judges _ ratioTolerance,
    judges _ phaseTolerance⟩
  · refine ratioAverage_le (by simpa using some_) fun r hr => ?_
    obtain ⟨v, hv, rfl⟩ := List.mem_map.1 hr
    exact (inRange v hv).1
  · have rounds := ratioAverage_roundsHalfUp (ratios := averaged.map fun v => v.ratio) (by simpa using some_)
    rw [List.length_map, Nat.cast_list_sum, List.map_map] at rounds
    exact rounds
  · rw [List.forall₂_map_right_iff, List.forall₂_same]
    exact fun v hv => phaseDeviation_wraps (inRange v hv).2 ⟨low, high⟩
  · obtain ⟨deviations, hd⟩ : ∃ deviations, deviations = averaged.map fun v => phaseDeviation v.phase t.phase := ⟨_, rfl⟩
    have average : f.phaseDeviation = averageDeviation deviations := by rw [hd]; rfl
    have count : m = deviations.length := by rw [hd, List.length_map]
    have there : deviations ≠ [] := by simpa [hd] using some_
    have wrapped : ∀ d ∈ deviations, -1799 ≤ d ∧ d ≤ 1800 := by
      intro d mem
      obtain ⟨v, hv, rfl⟩ := List.mem_map.1 (hd ▸ mem)
      obtain ⟨above, below, -⟩ := phaseDeviation_wraps (inRange v hv).2 ⟨low, high⟩
      exact ⟨above, below⟩
    obtain ⟨above, below⟩ := averageDeviation_wrapped there wrapped
    rw [← hd, average]
    refine ⟨above, below, ?_⟩
    have rounds := averageDeviation_roundsHalfAway there
    rwa [← count] at rounds

end Machine
end Sys2Proof

/-! PROOFS. STALE_TIMER_EXPIRY (R112 to R114, R127): the channel emptied, and the status report that follows it. -/
namespace Sys2Proof
namespace Machine

/-! ### A status report in any state (R113, R127, R131) -/

/-- Out of the measured states the ARRAY_STATUS test posts nothing (R131). -/
theorem StationWork.notifyStatus_unmeasured {w : StationWork} (unmeasured : w.carrier.state.measured = false) :
    w.notifyStatus = w := by
  unfold StationWork.notifyStatus
  rw [unmeasured]
  rfl

/-- A status taken is the array status and the last one, with the hold supervised; whether a notice tells it is the state's. -/
theorem StationWork.takeStatus_eq (c : Ctx) (st : Status) (w : StationWork) : ∃ notified notices, w.takeStatus c st = { w with
    arrayStatus := st
    carrier := { w.carrier with lastStatus := st, notifiedStatus := notified, holdTimer := w.carrier.supervised c st }
    out := notices } := by
  cases measured : w.carrier.state.measured with
  | true => exact ⟨_, _, StationWork.takeStatus_measured st measured⟩
  | false =>
    have supervised : w.takeStatus c st = StationWork.notifyStatus _ :=
      congrArg StationWork.notifyStatus (StationWork.superviseHold_eq w.carrier.lastStatus st)
    exact ⟨_, _, supervised.trans (StationWork.notifyStatus_unmeasured measured)⟩

/-- What a status report leaves of the station, whatever its state. -/
structure StationWork.StatusReported (c : Ctx) (w r : StationWork) : Prop where
  reported : w.Reported r
  state : r.carrier.state = w.carrier.state
  level : r.carrier.level = w.carrier.level
  ramp : r.carrier.ramp = w.carrier.ramp
  arrayStatus : r.arrayStatus = w.toStationUnit.decideStatus c
  changed : w.toStationUnit.decideStatus c ≠ w.arrayStatus →
    r.carrier.lastStatus = w.toStationUnit.decideStatus c ∧
    r.carrier.holdTimer = w.carrier.supervised c (w.toStationUnit.decideStatus c)

theorem StationWork.statusReport_statusReported (c : Ctx) (w : StationWork) : w.StatusReported c (w.statusReport c) := by
  unfold StationWork.statusReport
  dsimp only
  by_cases same : w.toStationUnit.decideStatus c = w.arrayStatus
  · rw [if_pos same]
    exact ⟨.refl w, rfl, rfl, rfl, same.symm, fun h => absurd same h⟩
  · obtain ⟨notified, notices, eq⟩ := StationWork.takeStatus_eq c (w.toStationUnit.decideStatus c) w
    rw [if_neg same, eq]
    exact ⟨⟨rfl, rfl, rfl, rfl⟩, rfl, rfl, rfl, rfl, fun _ => ⟨rfl, rfl⟩⟩

theorem Carrier.supervised_of_ne_out {c : Ctx} {st : Status} {r : Carrier} (normal : r.state = .normal) (other : st ≠ .out) :
    r.supervised c st = none := by
  unfold Carrier.supervised
  rw [if_pos normal, if_neg other]

/-! ### The array status without a channel's samples (R112) -/

/-- With a monitored tower UNKNOWN and no tower OUT, or with the reference absent, the array status is UNKNOWN. -/
theorem StationUnit.decideStatus_unknown {c : Ctx} {u : StationUnit} {q : PatternNo} {i : TowerNo} (active : u.activePattern = some q)
    (monitored : i.val + 2 ≤ (pattern c.image c.station q).towers) (unknown : u.channels[i].towerStatus = .unknown)
    (rest : (∀ j : TowerNo, j ≠ i → u.channels[j].towerStatus ≠ .out) ∨ u.reference.present = false) :
    u.decideStatus c = .unknown := by
  unfold StationUnit.decideStatus
  rw [active]
  dsimp only
  cases present : u.reference.present with
  | false => rfl
  | true =>
    have others := rest.resolve_right (by rw [present]; decide)
    refine (foldl_worse_iff (fun j : TowerNo => u.channels[j].towerStatus) _).2.1.2
      ⟨?_, i, mem_monitoredTowers.2 monitored, unknown⟩
    rintro ⟨j, -, out⟩
    by_cases own : j = i
    · rw [own, unknown] at out
      cases out
    · exact others j own out

/-! ### The event (R114) -/

theorem channelOfTower?_channel (i : TowerNo) : channelOfTower? (i.val + 2) = some i := dif_pos (by omega)

theorem channelOfTower?_outside {tower : Nat} (h : tower ≤ 1 ∨ 7 ≤ tower) : channelOfTower? tower = none := dif_neg (by omega)

theorem StationWork.staleExpiry_due {c : Ctx} {w : StationWork} {i : TowerNo} {due : Nat}
    (running : w.channels[i].staleTimer = some due) :
    w.staleExpiry i c = StationWork.statusReport c { w with channels := w.channels.set i ⟨[], none, true, none, .unknown⟩ } := by
  unfold StationWork.staleExpiry
  rw [running]
  rfl

/-- The work of a stale timer's expiry: the station's, when the timer is running. -/
def Work.staleExpired (x : Station) (i : TowerNo) (w : Work) : Work :=
  w.whenDue (w.stations.get x).channels[i].staleTimer fun w => w.onStation x (StationWork.staleExpiry i)

section
variable {x : Station} {i : TowerNo} {w : Work}

theorem Work.staleExpired_stopped (stopped : (w.stations.get x).channels[i].staleTimer = none) : w.staleExpired x i = w := by
  unfold Work.staleExpired
  rw [stopped]
  rfl

theorem Work.staleExpired_due {due : Nat} (running : (w.stations.get x).channels[i].staleTimer = some due) :
    w.staleExpired x i = (w.reach due).onStation x (StationWork.staleExpiry i) := by
  unfold Work.staleExpired
  rw [running]
  rfl

end

/-- The event of a monitored channel's expiry. -/
theorem exec_staleTimerExpiry (x : Station) (i : TowerNo) (s : State) : exec (.staleTimerExpiry x (i.val + 2)) s =
    .next (s.event (Work.staleExpired x i)) := by
  show execStaleTimerExpiry x (i.val + 2) s = _
  unfold execStaleTimerExpiry
  rw [channelOfTower?_channel]
  rfl

theorem exec_staleTimerExpiry_outside {tower : Nat} (x : Station) (s : State) (outside : tower ≤ 1 ∨ 7 ≤ tower) :
    exec (.staleTimerExpiry x tower) s = .fault .noSuchChannel := by
  show execStaleTimerExpiry x tower s = _
  unfold execStaleTimerExpiry
  rw [channelOfTower?_outside outside]

/-- Settles O43: the channel emptied, then the status report, in the station's own records alone. -/
theorem staleTimerExpires : Obligations.StaleTimerExpires := by
  intro x tower s
  refine ⟨exec_staleTimerExpiry_outside x s, fun i there => ?_⟩
  subst there
  rw [exec_staleTimerExpiry]
  refine ⟨fun stopped => congrArg Host.Outcome.next (State.event_idle (Work.staleExpired_stopped stopped)),
    fun due running => ?_⟩
  obtain ⟨c, hc⟩ : ∃ c, c = (s.work.reach due).toPlant.ctx x := ⟨_, rfl⟩
  obtain ⟨w, hw⟩ : ∃ w : StationWork, w = { s.stations.get x with
    channels := (s.stations.get x).channels.set i ⟨[], none, true, none, .unknown⟩
    out := [] } := ⟨_, rfl⟩
  obtain ⟨r, hr⟩ : ∃ r, r = w.statusReport c := ⟨_, rfl⟩
  obtain ⟨v, hv⟩ : ∃ v : Work, v = { s.work.reach due with
    stations := s.stations.set x r.toStationUnit, posts := r.out.map fun n => (x, n) } := ⟨_, rfl⟩
  have expired : s.work.staleExpired x i = v := by
    rw [Work.staleExpired_due running, Work.onStation_of (u := r) (by rw [hr, hw, hc]; exact StationWork.staleExpiry_due running),
      hv]
    rfl
  obtain ⟨u, hu⟩ : ∃ u, u = s.event (Work.staleExpired x i) := ⟨_, rfl⟩
  have left : State.Left v s u := hu ▸ State.event_left expired
  have mine : u.stations.get x = r.toStationUnit := by rw [left.stations, hv, Pair.get_set_self]
  have carrier : u.carrier x = r.carrier := congrArg StationUnit.carrier mine
  obtain ⟨reported, state, level, ramp, status, changed⟩ := hr ▸ StationWork.statusReport_statusReported c w
  refine ⟨u, by rw [hu], ?_, ?_, ?_, ?_, ?_, ?_, ?_, ?_, ?_, ?_, fun q active monitored rest => ?_⟩
  · rw [left.field Plant.elapsed fun _ _ _ _ => rfl, hv]
    rfl
  · rw [mine, reported.channels, hw]
  · unfold Plant.active
    rw [mine, reported.activePattern, hw]
  · rw [carrier, state, hw]
    rfl
  · rw [carrier, level, hw]
    rfl
  · rw [carrier, ramp, hw]
    rfl
  · rw [left.stations, hv]
    exact Pair.get_set_peer _ _ _
  · rw [left.contactors, hv]
    rfl
  · rw [left.transition, hv]
    rfl
  · rw [left.ports, hv]
    refine State.deliver_ports_of_none _ _ _ fun p hp => ?_
    obtain ⟨n, -, rfl⟩ := List.mem_map.1 hp
    exact (Station.peer_ne x).symm
  · have unknown : w.toStationUnit.decideStatus c = .unknown := by
      refine StationUnit.decideStatus_unknown (q := q) (i := i) (by rw [hw]; exact active) (by rw [hc]; exact monitored)
        (by rw [hw]; simp) (rest.imp (fun others j other => ?_) fun absent => by rw [hw]; exact absent)
      have apart : i.val ≠ j.val := fun same => other (Fin.ext same.symm)
      rw [hw]
      simpa [Vector.getElem_set_ne, apart] using others j other
    rw [unknown] at status changed
    refine ⟨by rw [mine, status], fun known => ?_⟩
    obtain ⟨last, hold⟩ := changed fun same => known (by rw [hw] at same; exact same.symm)
    rw [carrier]
    exact ⟨last, fun normal => hold.trans (Carrier.supervised_of_ne_out (by rw [hw]; exact normal) (by decide))⟩

end Machine
end Sys2Proof

/-! PROOFS. The determining occurrence (R137, R138): the latest of some entries, and the two lists of entries it is taken from. -/
namespace Sys2Proof
namespace Machine

/-! ### The latest of some entries (R138) -/

section
variable {m : Memory} {x : Station}

/-- A further entry takes the place of the latest unless its minute is earlier. -/
theorem latestEntry_concat (es : List (Fin 24)) (e : Fin 24) :
    (latestEntry m x es = none → latestEntry m x (es ++ [e]) = some e) ∧
    ∀ d, latestEntry m x es = some d → latestEntry m x (es ++ [e]) =
      if (scheduleEntry m x d).minute ≤ (scheduleEntry m x e).minute then some e else some d := by
  unfold latestEntry
  rw [List.foldl_append]
  exact ⟨fun h => by rw [h]; rfl, fun d h => by rw [h]; rfl⟩

theorem latestEntry_eq_none_iff {es : List (Fin 24)} : latestEntry m x es = none ↔ es = [] := by
  refine ⟨fun h => ?_, fun h => by rw [h]; rfl⟩
  induction es using List.reverseRecOn with
  | nil => rfl
  | append_singleton es e _ =>
    obtain ⟨first, later⟩ := latestEntry_concat (m := m) (x := x) es e
    cases hl : latestEntry m x es with
    | none => rw [first hl] at h; cases h
    | some d =>
      rw [later d hl] at h
      split at h <;> cases h

/-- The latest of some entries is one of them, and none of them has a later minute. -/
theorem latestEntry_eq_some {es : List (Fin 24)} {e : Fin 24} (h : latestEntry m x es = some e) :
    e ∈ es ∧ ∀ d ∈ es, (scheduleEntry m x d).minute ≤ (scheduleEntry m x e).minute := by
  induction es using List.reverseRecOn generalizing e with
  | nil => cases h
  | append_singleton es f ih =>
    obtain ⟨first, later⟩ := latestEntry_concat (m := m) (x := x) es f
    rw [List.forall_mem_append, List.forall_mem_singleton, List.mem_append, List.mem_singleton]
    cases hl : latestEntry m x es with
    | none =>
      obtain rfl : f = e := Option.some.inj ((first hl).symm.trans h)
      rw [latestEntry_eq_none_iff.1 hl]
      simp
    | some d =>
      obtain ⟨mem, above⟩ := ih hl
      rw [later d hl] at h
      split at h
      · next earlier =>
        obtain rfl := Option.some.inj h
        exact ⟨.inr rfl, fun c hc => (above c hc).trans earlier, le_rfl⟩
      · next notEarlier =>
        obtain rfl := Option.some.inj h
        exact ⟨.inl mem, above, (not_le.1 notEarlier).le⟩

/-! ### The entries of today and of yesterday (R137, R138) -/

theorem mem_entriesOn {day : Nat} {test : ScheduleEntry → Bool} {e : Fin 24} :
    e ∈ entriesOn m x day test ↔ ((scheduleEntry m x e).target ≠ 0 ∧
      (if (scheduleEntry m x e).firstDay ≤ (scheduleEntry m x e).lastDay then
          (scheduleEntry m x e).firstDay ≤ day ∧ day ≤ (scheduleEntry m x e).lastDay
        else (scheduleEntry m x e).firstDay ≤ day ∨ day ≤ (scheduleEntry m x e).lastDay)) ∧
      test (scheduleEntry m x e) = true := by
  rw [← ScheduleEntry.containsDay_iff]
  simp [entriesOn]

theorem daysIn_eq (year : Nat) : daysIn year = if year % 4 = 0 then 366 else 365 := by simp [daysIn, isLeapYear]

/-- The in-use entries of today whose minute has come. -/
def dueEntries (m : Memory) (x : Station) (r : Reading) : List (Fin 24) :=
  entriesOn m x r.day fun f => decide (f.minute ≤ r.minuteOfDay)

/-- The in-use entries whose range contains yesterday. -/
def yesterdayEntries (m : Memory) (x : Station) (r : Reading) : List (Fin 24) :=
  entriesOn m x (yesterday r.year r.day).2 fun _ => true

/-- With an entry due today the determining occurrence is today's. -/
theorem determining_of_due {r : Reading} {e : Fin 24} (due : latestEntry m x (dueEntries m x r) = some e) :
    determining m x r = some (e, ⟨e.val + 1, r.year, r.day⟩) := by
  unfold dueEntries at due
  unfold determining
  rw [due]

/-- With none due today it is yesterday's, if an entry's range contains yesterday. -/
theorem determining_of_none_due {r : Reading} (none_ : latestEntry m x (dueEntries m x r) = none) :
    determining m x r = (latestEntry m x (yesterdayEntries m x r)).map fun e =>
      (e, ⟨e.val + 1, (yesterday r.year r.day).1, (yesterday r.year r.day).2⟩) := by
  unfold dueEntries at none_
  unfold determining yesterdayEntries
  rw [none_]
  dsimp only
  cases latestEntry m x (entriesOn m x (yesterday r.year r.day).2 fun _ => true) <;> rfl

/-- No occurrence determines exactly when neither list has an entry. -/
theorem determining_eq_none_iff {r : Reading} :
    determining m x r = none ↔ dueEntries m x r = [] ∧ yesterdayEntries m x r = [] := by
  cases due : latestEntry m x (dueEntries m x r) with
  | none =>
    rw [determining_of_none_due due, Option.map_eq_none_iff, latestEntry_eq_none_iff]
    exact (and_iff_right (latestEntry_eq_none_iff.1 due)).symm
  | some e =>
    rw [determining_of_due due]
    have some_ : dueEntries m x r ≠ [] := List.ne_nil_of_mem (latestEntry_eq_some due).1
    simp [some_]

end

/-- Settles O46: the latest entry of the list due today, and where that list is empty the latest of yesterday's. -/
theorem determiningIsLatest : Obligations.DeterminingIsLatest := by
  intro m x r entry contains dueToday before
  have isBefore : yesterday r.year r.day = before := by
    unfold yesterday
    rw [daysIn_eq]
  have due (e : Fin 24) : e ∈ dueEntries m x r ↔ dueToday e := by
    rw [dueEntries, mem_entriesOn, decide_eq_true_iff]
    rfl
  have held (e : Fin 24) : e ∈ yesterdayEntries m x r ↔ contains e before.2 := by
    rw [yesterdayEntries, mem_entriesOn, isBefore]
    exact and_iff_left rfl
  refine ⟨?_, fun e o determines => ?_⟩
  · simp only [determining_eq_none_iff, List.eq_nil_iff_forall_not_mem, due, held]
  · cases today : latestEntry m x (dueEntries m x r) with
    | some d =>
      rw [determining_of_due today] at determines
      cases determines
      obtain ⟨mem, latest⟩ := latestEntry_eq_some today
      exact ⟨rfl, .inl ⟨rfl, rfl, (due e).1 mem, fun c hc => latest c ((due c).2 hc)⟩⟩
    | none =>
      rw [determining_of_none_due today] at determines
      obtain ⟨d, there, determined⟩ := Option.map_eq_some_iff.1 determines
      cases determined
      obtain ⟨mem, latest⟩ := latestEntry_eq_some there
      have noneDue : dueEntries m x r = [] := latestEntry_eq_none_iff.1 today
      exact ⟨rfl, .inr ⟨isBefore, fun c hc => List.not_mem_nil (noneDue ▸ (due c).2 hc), (held e).1 mem,
        fun c hc => latest c ((held c).2 hc)⟩⟩

end Machine
end Sys2Proof

/-! PROOFS. The site clock (R133, R134, R139, R140, R144): the reading after a tick, what a tick and a CLOCK SET leave, and the
schedule evaluation that fires for neither station. -/
namespace Sys2Proof
namespace Machine

/-! ### Readings (R133) -/

theorem Reading.valid_iff {r : Reading} : r.valid = true ↔
    2000 ≤ r.year ∧ r.year ≤ 2099 ∧ 1 ≤ r.day ∧ r.day ≤ daysIn r.year ∧ r.hour ≤ 23 ∧ r.minute ≤ 59 ∧ r.second ≤ 59 := by
  simp only [Reading.valid, within, Bool.and_eq_true, decide_eq_true_eq, Nat.zero_le, true_and, and_assoc]

theorem one_le_daysIn (year : Nat) : 1 ≤ daysIn year := by
  unfold daysIn
  split <;> decide

/-- Whether a tick brings the second to 0 (R133). -/
theorem Reading.minuteTickNext_eq (r : Reading) : r.minuteTickNext = r.tick.any fun n => n.second == 0 := by
  unfold Reading.minuteTickNext
  cases r.tick <;> rfl

theorem Reading.tick_within {r : Reading} (h : r.second < 59) : r.tick = some ⟨r.year, r.day, r.hour, r.minute, r.second + 1⟩ :=
  if_pos h

/-- The last second of 2099 has no second after it. -/
theorem Reading.tick_last {r : Reading} (year : r.year = 2099) (day : r.day = 365) (hour : r.hour = 23) (minute : r.minute = 59)
    (second : r.second = 59) : r.tick = none := by
  obtain ⟨_, _, _, _, _⟩ := r
  subst year day hour minute second
  rfl

/-- The first second of the minute after a reading's, up to the end of 2099 and beyond. -/
def Reading.nextMinute (r : Reading) : Reading :=
  if r.minute < 59 then ⟨r.year, r.day, r.hour, r.minute + 1, 0⟩
  else if r.hour < 23 then ⟨r.year, r.day, r.hour + 1, 0, 0⟩
  else if r.day < daysIn r.year then ⟨r.year, r.day + 1, 0, 0, 0⟩
  else ⟨r.year + 1, 1, 0, 0, 0⟩

theorem Reading.nextMinute_second (r : Reading) : r.nextMinute.second = 0 := by
  unfold Reading.nextMinute
  split_ifs <;> rfl

section
variable {r : Reading} (valid : r.valid = true) (ends : r.second = 59)
  (notLast : ¬(r.year = 2099 ∧ r.day = 365 ∧ r.hour = 23 ∧ r.minute = 59 ∧ r.second = 59))
include valid ends notLast

/-- The last minute of a year other than 2099 has a year after it. -/
theorem Reading.year_lt_of_last_minute (minute : ¬r.minute < 59) (hour : ¬r.hour < 23) (day : ¬r.day < daysIn r.year) :
    r.year < 2099 := by
  obtain ⟨-, _, -, inYear, _, _, -⟩ := Reading.valid_iff.1 valid
  by_contra
  have year : r.year = 2099 := by omega
  have days : daysIn 2099 = 365 := rfl
  rw [year, days] at day inYear
  omega

theorem Reading.tick_nextMinute : r.tick = some r.nextMinute := by
  have lastMinute := Reading.year_lt_of_last_minute valid ends notLast
  unfold Reading.tick Reading.nextMinute
  rw [if_neg (by omega)]
  split_ifs with minute hour day year
  · rfl
  · rfl
  · rfl
  · rfl
  · exact absurd (lastMinute minute hour day) year

theorem Reading.nextMinute_valid : r.nextMinute.valid = true := by
  have lastMinute := Reading.year_lt_of_last_minute valid ends notLast
  have days := one_le_daysIn (r.year + 1)
  rw [Reading.valid_iff] at valid ⊢
  unfold Reading.nextMinute
  split_ifs with minute hour day <;> dsimp only
  · omega
  · omega
  · omega
  · have := lastMinute minute hour day
    omega

end

/-! ### A tick of the clock (R133) -/

section
variable {w : Work} {admits : Reading → Bool} {r : Reading} {due : Nat}

theorem Work.tickClock_stopped (stopped : w.clock = none) : w.tickClock admits = w := by
  unfold Work.tickClock
  rw [stopped]

variable (clock : w.clock = some r) (timer : w.clockTimer = some due)
include clock timer

theorem Work.tickClock_not_admitted (refused : admits r = false) : w.tickClock admits = w := by
  unfold Work.tickClock
  rw [clock, timer]
  exact if_neg (by rw [refused]; exact Bool.false_ne_true)

theorem Work.tickClock_admitted (admitted : admits r = true) : w.tickClock admits = (w.reach due).clockTick due r := by
  unfold Work.tickClock
  rw [clock, timer]
  exact if_pos admitted

end

section
variable {w : Work} {r n : Reading} {due : Nat}

theorem Work.clockTick_past_end (last : r.tick = none) : w.clockTick due r = { w with clock := none, clockTimer := none } := by
  unfold Work.clockTick
  rw [last]

theorem Work.clockTick_within_minute (next : r.tick = some n) (second : n.second ≠ 0) :
    w.clockTick due r = { w with clock := some n, clockTimer := some (due + Config.seconds 1) } := by
  unfold Work.clockTick
  rw [next]
  exact if_neg second

/-- A minute tick makes the schedule evaluation (R139). -/
theorem Work.clockTick_minute (next : r.tick = some n) (second : n.second = 0) :
    w.clockTick due r = ({ w with clock := some n, clockTimer := some (due + Config.seconds 1) } : Work).evaluate true := by
  unfold Work.clockTick
  rw [next]
  exact if_pos second

end

/-! ### An evaluation that fires for neither station (R139, R140, R144) -/

section
variable {w : Work} {m : Memory} {r : Reading}

theorem Work.evaluate_no_image (minuteTick : Bool) (none_ : w.image = none) : w.evaluate minuteTick = w := by
  unfold Work.evaluate
  rw [none_]
  cases w.clock <;> rfl

/-- A station that is not on AUTO has its override tested and no more (R140, R141). -/
theorem Work.evaluateStation_not_auto {x : Station} (manual : w.schedulePolicy.get x ≠ some .auto) :
    w.evaluateStation m r x = w.testOverride x (recordedOccurrence m x r) := by
  have quiet : (w.testOverride x (recordedOccurrence m x r)).mayFire x = false := by
    have : (w.testOverride x (recordedOccurrence m x r)).schedulePolicy.get x ≠ some .auto := manual
    simp [Plant.mayFire, this]
  unfold Work.evaluateStation
  dsimp only
  cases determining m x r with
  | none => rfl
  | some d => exact if_neg fun fires => Bool.false_ne_true (quiet.symm.trans fires.1)

/-- With neither station on AUTO a minute tick lowers each retry hold and tests each override. -/
theorem Work.evaluate_not_auto (clock : w.clock = some r) (image : w.image = some m)
    (manual : ∀ x, w.schedulePolicy.get x ≠ some .auto) :
    w.evaluate true = { w with
      retryHold := ⟨w.retryHold.a - 1, w.retryHold.b - 1⟩
      override := ⟨w.override.a.test (recordedOccurrence m .A r), w.override.b.test (recordedOccurrence m .B r)⟩ } := by
  have dealt : w.evaluate true = ((w.decreaseHold .A).evaluateStation m r .A |>.decreaseHold .B).evaluateStation m r .B := by
    unfold Work.evaluate
    rw [clock, image]
    rfl
  rw [dealt, Work.evaluateStation_not_auto (w := w.decreaseHold .A) (manual .A), Work.evaluateStation_not_auto]
  · unfold Work.testOverride Work.setOverride Work.decreaseHold
    dsimp only [Pair.set, Pair.get]
  · exact manual .B

end

section
variable {s : State} {w : Work} (stations : w.stations = s.stations)
include stations

/-- A tick whose work is known and touches no station's records. -/
theorem exec_siteClockTick_eq (h : s.work.tickClock (fun _ => true) = w) : exec .siteClockTick s = .next (s.finish w) :=
  congrArg Host.Outcome.next (State.event_eq_of_stations h stations)

theorem exec_minuteTick_eq (h : s.work.tickClock Reading.minuteTickNext = w) : exec .minuteTick s = .next (s.finish w) :=
  congrArg Host.Outcome.next (State.event_eq_of_stations h stations)

end

/-- Settles O44: the tick of each reading, and for a minute tick the evaluation. -/
theorem clockTicks : Obligations.ClockTicks := by
  intro s
  refine ⟨fun stopped => ?_, ?_⟩
  · have idle (admits : Reading → Bool) : s.event (Work.tickClock admits) = s :=
      State.event_idle (Work.tickClock_stopped stopped)
    exact ⟨congrArg Host.Outcome.next (idle _), congrArg Host.Outcome.next (idle _)⟩
  intro r due clock timer valid now on next last present tested
  have ticks {admits : Reading → Bool} (admitted : admits r = true) :
      s.work.tickClock admits = (s.work.reach due).clockTick due r := Work.tickClock_admitted clock timer admitted
  have noMinute (none_ : r.minuteTickNext = false) : exec .minuteTick s = .next s :=
    congrArg Host.Outcome.next (State.event_idle (Work.tickClock_not_admitted clock timer none_))
  have isNext : r.nextMinute = next := by
    unfold Reading.nextMinute
    rw [daysIn_eq]
  have minute (ends : r.second = 59) (notLast : ¬last) : r.minuteTickNext = true := by
    rw [Reading.minuteTickNext_eq, Reading.tick_nextMinute valid ends notLast, Option.any_some, Reading.nextMinute_second]
    rfl
  have evaluated (ends : r.second = 59) (notLast : ¬last) :
      s.work.tickClock Reading.minuteTickNext = (on next).work.evaluate true := by
    rw [ticks (minute ends notLast), Work.clockTick_minute (Reading.tick_nextMinute valid ends notLast) r.nextMinute_second, isNext]
    rfl
  refine ⟨fun within_ => ?_, fun isLast => ?_, fun ends notLast => ?_, fun ends notLast none_ => ?_,
    fun ends notLast image manual => ?_⟩
  · have tick := Reading.tick_within within_
    refine ⟨exec_siteClockTick_eq rfl ((ticks rfl).trans (Work.clockTick_within_minute tick (Nat.succ_ne_zero _))), noMinute ?_⟩
    rw [Reading.minuteTickNext_eq, tick]
    rfl
  · obtain ⟨year, day, hour, minute, second⟩ := isLast
    have tick := Reading.tick_last year day hour minute second
    refine ⟨exec_siteClockTick_eq rfl ((ticks rfl).trans (Work.clockTick_past_end tick)), noMinute ?_⟩
    rw [Reading.minuteTickNext_eq, tick]
    rfl
  · refine ⟨congrArg Host.Outcome.next ?_, isNext ▸ Reading.nextMinute_valid valid ends notLast⟩
    have same : s.work.tickClock Reading.minuteTickNext = s.work.tickClock fun _ => true :=
      (ticks (minute ends notLast)).trans (ticks rfl).symm
    unfold State.event
    rw [same]
  · exact exec_minuteTick_eq (w := (on next).work) rfl ((evaluated ends notLast).trans (Work.evaluate_no_image true none_))
  · obtain ⟨m, hm⟩ := Option.ne_none_iff_exists'.1 image
    have active : s.activeImage = m := by
      unfold Plant.activeImage
      rw [hm]
      rfl
    have recorded (x : Station) : recordedOccurrence s.activeImage x next = present x := rfl
    have test (x : Station) : (s.override.get x).test (recordedOccurrence m x next) = tested x := by
      rw [← active, recorded]
      dsimp only [tested]
      rcases s.override.get x with _ | _ | _ | _ <;> rfl
    refine exec_minuteTick_eq (w := { (on next).work with
      retryHold := ⟨s.retryHold.a - 1, s.retryHold.b - 1⟩, override := ⟨tested .A, tested .B⟩ }) rfl ?_
    rw [evaluated ends notLast, Work.evaluate_not_auto rfl (show (on next).image = some m from hm) manual, ← test, ← test]
    rfl

/-! ### CLOCK SET (R134) -/

section
variable {x : Station} {r : Reading} {w : Work}

theorem Work.setClock_refused (invalid : r.valid = false) : w.setClock x r = (w, .badArg) := by
  unfold Work.setClock
  rw [invalid]
  rfl

/-- The clock set, with its notices, before the evaluation. -/
def Work.clockTaken (x : Station) (r : Reading) (w : Work) : Work :=
  { w with
    clock := some r
    clockTimer := some (w.elapsed + Config.seconds 1)
    posts := w.posts ++ [(.A, .clockSet x w.clock r), (.B, .clockSet x w.clock r)] }

theorem Work.setClock_accepted (valid : r.valid = true) :
    w.setClock x r = ((w.clockTaken x r).evaluate false, .accepted) := by
  unfold Work.setClock
  rw [valid]
  dsimp only
  rw [if_pos rfl, Work.postAll_eq]
  rfl

theorem act_clockSet {dropped : Nat} {year day : Word16} {hour minute second : Byte} {v : Work} {code : ReplyCode}
    (h : w.setClock x ⟨year.toNat, day.toNat, hour.toNat, minute.toNat, second.toNat⟩ = (v, code)) :
    act x dropped (.clockSet year day hour minute second) w = (v, .plain code) := by
  show actClockSet x year day hour minute second w = _
  unfold actClockSet
  rw [h]

end

/-- A request leaves the peer port's reply slot as it was. -/
theorem State.receiveRequest_peer_reply {x : Station} {q : Request} {s : State} (h : s.Ready x) :
    ((s.receiveRequest x q).ports.get x.peer).reply = (s.ports.get x.peer).reply := by
  rw [State.receiveRequest_ready x q s h, State.answer_reply, if_neg (Station.peer_ne x), State.onPort_ports, Pair.get_set_peer]

/-- Settles O5: out of range the request is refused, and in range the evaluation leaves what the engine may not change. -/
theorem clockIsSet : Obligations.ClockIsSet := by
  intro x year day hour minute second s ready r inRange
  have valid : r.valid = true ↔ inRange := by rw [Reading.valid_iff, daysIn_eq]
  refine ⟨fun out => congrArg Host.Outcome.next ?_, fun range image => congrArg Host.Outcome.next ?_, fun range => ?_⟩
  · refine State.receiveRequest_unchanged ready (act_clockSet (Work.setClock_refused ?_))
    exact Bool.eq_false_iff.2 fun h => out (valid.1 h)
  · have taken : s.work.setClock x r = (s.work.clockTaken x r, .accepted) := by
      rw [Work.setClock_accepted (valid.2 range), Work.evaluate_no_image false image]
    exact State.receiveRequest_eq ready (act_clockSet taken) fun _ => rfl
  · obtain ⟨w, hw⟩ : ∃ w, w = (s.work.clockTaken x r).evaluate false := ⟨_, rfl⟩
    have acted : act x (s.ports.get x).dropped (.clockSet year day hour minute second) s.work = (w, .plain .accepted) :=
      act_clockSet (hw ▸ Work.setClock_accepted (valid.2 range))
    have moves : Moves (s.work.clockTaken x r) w := hw ▸ Work.evaluate_moves false _
    have kept {α : Type} (g : Plant → α)
        (scan : ∀ (p : Plant) list m e, g { p with scanList := list, measurement := m, lastEntry := e } = g p)
        (own : ∀ p : Plant, g p.outside = g p) :
        g (s.receiveRequest x (.clockSet year day hour minute second)).toPlant = g (s.work.clockTaken x r).toPlant := by
      rw [State.receiveRequest_field ready acted g scan, ← own w.toPlant, moves.outside, own]
    exact ⟨s.receiveRequest x (.clockSet year day hour minute second), rfl,
      kept Plant.clock (fun _ _ _ _ => rfl) fun _ => rfl, kept Plant.clockTimer (fun _ _ _ _ => rfl) fun _ => rfl,
      State.receiveRequest_reply ready acted, State.receiveRequest_peer_reply ready,
      kept Plant.image (fun _ _ _ _ => rfl) fun _ => rfl, kept Plant.aux (fun _ _ _ _ => rfl) fun _ => rfl,
      kept Plant.consentPolicy (fun _ _ _ _ => rfl) fun _ => rfl, kept Plant.schedulePolicy (fun _ _ _ _ => rfl) fun _ => rfl,
      kept Plant.loadSlot (fun _ _ _ _ => rfl) fun _ => rfl, kept Plant.loadBuffer (fun _ _ _ _ => rfl) fun _ => rfl,
      kept Plant.readback (fun _ _ _ _ => rfl) fun _ => rfl, kept Plant.foundImage (fun _ _ _ _ => rfl) fun _ => rfl,
      kept (fun p => p.imageRecord.bytes) (fun _ _ _ _ => rfl) fun _ => rfl, kept Plant.phase (fun _ _ _ _ => rfl) fun _ => rfl,
      kept Plant.elapsed (fun _ _ _ _ => rfl) fun _ => rfl, kept Plant.rate (fun _ _ _ _ => rfl) fun _ => rfl⟩

end Machine
end Sys2Proof

/-! PROOFS. The load slot and the readbacks (R147, R148, R151): what LOAD OPEN, CANCEL and BLOCK and READBACK OPEN and BLOCK do,
case by case, and their answers on a ready link. -/
namespace Sys2Proof
namespace Machine

/-! ### The sizes (R147) -/

theorem isBlockSize_toNat (b : Byte) : isBlockSize b.toNat = true ↔ b = 16 ∨ b = 32 ∨ b = 64 ∨ b = 128 := by
  have sizes : ∀ b : Byte, isBlockSize b.toNat = decide (b = 16 ∨ b = 32 ∨ b = 64 ∨ b = 128) := by decide
  rw [sizes, decide_eq_true_iff]

/-- The slot is held by the other port exactly when it is neither free nor this port's. -/
theorem LoadSlot.heldBy_peer (slot : LoadSlot) (x : Station) :
    slot.heldBy x.peer = true ↔ slot ≠ .free ∧ slot.heldBy x = false := by
  cases slot with
  | free => simp [LoadSlot.heldBy]
  | held holder => cases x <;> cases holder <;> simp [LoadSlot.heldBy, Station.peer]

/-! ### The load (R147, R148) -/

section
variable {x : Station} {w : Work}

theorem Work.loadOpen_eq (size : Byte) :
    w.loadOpen x size.toNat =
      if ¬(size = 16 ∨ size = 32 ∨ size = 64 ∨ size = 128) then (w, .badArg)
      else if w.loadSlot.heldBy x.peer then (w, .loadBusy)
      else
        ({ w with
            loadSlot := .held x size.toNat 0 false
            loadBuffer := []
            loadIdleTimer := some (w.elapsed + Config.seconds 60) }, .accepted) := by
  simp only [Work.loadOpen, ← LoadSlot.heldBy_peer, ← isBlockSize_toNat, Bool.not_eq_true]
  rfl

/-- A block of a load that is not LOADING for the port, or not at its index, is out of sequence (R148 steps 1 and 2). -/
theorem Work.loadBlock_sequence {index : Nat} (data : List Byte)
    (h : ∀ size, w.loadSlot ≠ .held x size index false) : w.loadBlock x index data = (w, .sequence) := by
  unfold Work.loadBlock
  split
  · next holder size expected held =>
    refine if_pos (or_iff_not_imp_left.2 fun own here => h size ?_)
    rw [held, not_ne_iff.1 own, here]
  · rfl

section
variable {size expected : Nat} {data : List Byte} (held : w.loadSlot = .held x size expected false)
include held

theorem Work.loadBlock_badLength (long : data.length ≠ blockLength size expected) :
    w.loadBlock x expected data = (w, .badLength) := by
  unfold Work.loadBlock
  simp [held, long]

theorem Work.loadBlock_accepted (fits : data.length = blockLength size expected) :
    w.loadBlock x expected data =
      ({ w with
          loadSlot := .held x size (expected + 1) (expected == lastBlockIndex size)
          loadBuffer := Memory.writeBlock w.loadBuffer (expected * size) data
          loadIdleTimer := some (w.elapsed + Config.seconds 60) }, .accepted) := by
  unfold Work.loadBlock
  simp [held, fits]
  rfl

end
end

/-! ### The readbacks (R151) -/

section
variable {p : Plant} {x : Station}

theorem Plant.readbackBytes_eq : p.readbackBytes = p.image.getD (p.foundImage.getD []) := by
  unfold Plant.readbackBytes
  cases p.image <;> rfl

theorem Plant.readbackBlock_closed (index : Nat) (closed : p.readback.get x = none) :
    p.readbackBlock x index = (.sequence, []) := by
  unfold Plant.readbackBlock
  rw [closed]

theorem Work.readbackOpen_eq {w : Work} (size : Byte) :
    w.readbackOpen x size.toNat =
      if size = 16 ∨ size = 32 ∨ size = 64 ∨ size = 128 then
        ({ w with readback := w.readback.set x (some size.toNat) }, .accepted)
      else (w, .badArg) := by
  simp only [Work.readbackOpen, isBlockSize_toNat]

theorem Plant.readbackBlock_open {size : Nat} (index : Nat) (opened : p.readback.get x = some size) :
    p.readbackBlock x index =
      if lastBlockIndex size < index then (.badArg, [])
      else (.accepted, Memory.readBlock p.readbackBytes (index * size) (blockLength size index)) := by
  unfold Plant.readbackBlock
  rw [opened]

end

/-! ### The requests -/

section
variable {x : Station} {s : State} (ready : s.Ready x)
include ready

/-- A request that posts nothing, leaves the stations alone and is answered with its code alone. -/
theorem State.receiveRequest_plain {r : Request} {w : Work} {code : ReplyCode}
    (acted : act x (s.ports.get x).dropped r s.work = (w, .plain code)) (posts : w.posts = [])
    (stations : w.stations = s.stations) :
    s.receiveRequest x r = ({ s with toPlant := w.toPlant } : State).answered x r.kind code [] := by
  rw [State.receiveRequest_eq ready acted fun y => by rw [stations], posts]
  rfl

theorem exec_loadOpen_eq (size : Byte) :
    exec (.loadOpen x size) s = .next
      (if ¬(size = 16 ∨ size = 32 ∨ size = 64 ∨ size = 128) then s.answered x 0x0C .badArg []
      else if s.loadSlot.heldBy x.peer then s.answered x 0x0C .loadBusy []
      else
        ({ s with
            loadSlot := .held x size.toNat 0 false
            loadBuffer := []
            loadIdleTimer := some (s.elapsed + Config.seconds 60) } : State).answered x 0x0C .accepted []) := by
  have opened := Work.loadOpen_eq (x := x) (w := s.work) size
  refine congrArg Host.Outcome.next ?_
  rw [State.work_toPlant] at opened
  split_ifs at opened ⊢ <;>
    exact State.receiveRequest_plain (r := .loadOpen size) ready (congrArg (fun r => (r.1, Reply.plain r.2)) opened) rfl rfl

theorem exec_loadCancel_eq :
    exec (.loadCancel x) s = .next
      (if s.loadSlot.heldBy x then
        ({ s with loadSlot := .free, loadBuffer := [], loadIdleTimer := none } : State).answered x 0x0F .accepted []
      else s.answered x 0x0F .sequence []) := by
  have cancelled : s.work.loadCancel x =
      if s.loadSlot.heldBy x then (s.work.freeSlot, .accepted) else (s.work, .sequence) := rfl
  refine congrArg Host.Outcome.next ?_
  split_ifs at cancelled ⊢ <;>
    exact State.receiveRequest_plain (r := .loadCancel) ready (congrArg (fun r => (r.1, Reply.plain r.2)) cancelled) rfl rfl

theorem exec_loadBlock_eq {index : Byte} {data : List Byte} {w : Work} {code : ReplyCode}
    (h : s.work.loadBlock x index.toNat data = (w, code)) (posts : w.posts = []) (stations : w.stations = s.stations) :
    exec (.loadBlock x index data) s = .next (({ s with toPlant := w.toPlant } : State).answered x 0x0D code []) :=
  congrArg Host.Outcome.next
    (State.receiveRequest_plain (r := .loadBlock index data) ready (congrArg (fun r => (r.1, Reply.plain r.2)) h) posts stations)

theorem exec_readbackOpen_eq (size : Byte) :
    exec (.readbackOpen x size) s = .next
      (if size = 16 ∨ size = 32 ∨ size = 64 ∨ size = 128 then
        ({ s with readback := s.readback.set x (some size.toNat) } : State).answered x 0x10 .accepted []
      else s.answered x 0x10 .badArg []) := by
  have opened := Work.readbackOpen_eq (x := x) (w := s.work) size
  refine congrArg Host.Outcome.next ?_
  split_ifs at opened ⊢ <;>
    exact State.receiveRequest_plain (r := .readbackOpen size) ready (congrArg (fun r => (r.1, Reply.plain r.2)) opened) rfl rfl

theorem exec_readbackBlock_eq {index : Byte} {code : ReplyCode} {bytes : List Byte}
    (h : s.readbackBlock x index.toNat = (code, bytes)) :
    exec (.readbackBlock x index) s =
      .next (s.answered x 0x11 code (if code = .accepted then index :: bytes else [])) :=
  congrArg Host.Outcome.next (State.receiveRequest_unchanged (r := .readbackBlock index) ready
    (reply := ⟨code, if code = .accepted then index :: bytes else []⟩)
    (congrArg (fun r : ReplyCode × List Byte =>
      (s.work, Reply.mk r.1 (if r.1 = .accepted then index :: r.2 else []))) h))

end

/-- Settles O6: each request's block decides by the slot or the readback, the size and the index. -/
theorem loadAndReadback : Obligations.LoadAndReadback := by
  refine ⟨fun x size s ready => ⟨exec_loadOpen_eq ready size, exec_loadCancel_eq ready⟩,
    fun x index data s ready => ⟨fun other => ?_, fun size expected held => ⟨fun elsewhere => ?_, ?_, ?_⟩⟩,
    fun x b s ready => ⟨exec_readbackOpen_eq ready b, fun closed => ?_, fun size opened => ?_⟩⟩
  · exact exec_loadBlock_eq ready (Work.loadBlock_sequence data fun size => other size _) rfl rfl
  · refine exec_loadBlock_eq ready (Work.loadBlock_sequence data fun size' here => elsewhere ?_) rfl rfl
    have same := held.symm.trans here
    injection same with _ _ at_ _
    exact at_.symm
  · intro here long
    exact exec_loadBlock_eq ready (here ▸ Work.loadBlock_badLength (w := s.work) held long) rfl rfl
  · intro here fits canonical
    refine ⟨Memory.writeBlock s.loadBuffer (expected * size) data, ?_, Memory.writeBlock_wf _ canonical _ _,
      Memory.read_writeBlock _ canonical _ _⟩
    subst here
    exact exec_loadBlock_eq ready (Work.loadBlock_accepted (w := s.work) held fits) rfl rfl
  · exact exec_readbackBlock_eq ready (Plant.readbackBlock_closed _ closed)
  · have read := Plant.readbackBlock_open (p := s.toPlant) b.toNat opened
    rw [Plant.readbackBytes_eq] at read
    by_cases past : lastBlockIndex size < b.toNat
    · rw [if_pos past] at read
      exact (exec_readbackBlock_eq ready read).trans (congrArg Host.Outcome.next (if_pos past).symm)
    · rw [if_neg past] at read
      exact (exec_readbackBlock_eq ready read).trans (congrArg Host.Outcome.next (if_neg past).symm)

end Machine
end Sys2Proof

/-! PROOFS. LOAD COMMIT accepted (R7, R13, R150, R152): the part with the buffer as its active image, the write that begins, and
the command's next state. -/
namespace Sys2Proof
namespace Machine

/-! ### The image taken (R7, R13, R150) -/

/-- The part once a commit has made its buffer the active image, with the image write at the tail of the queue (R150 steps 1 to
5). -/
def Work.imageTaken (w : Work) : Work :=
  { w with
    image := some w.loadBuffer
    contactors := liveAfter w.image w.loadBuffer w.aux w.contactors
    consentPolicy := if w.image = none then
        ⟨(settings w.loadBuffer .A).consentDefault, (settings w.loadBuffer .B).consentDefault⟩
      else w.consentPolicy
    schedulePolicy := if w.image = none then
        ⟨(settings w.loadBuffer .A).scheduleDefault, (settings w.loadBuffer .B).scheduleDefault⟩
      else w.schedulePolicy
    override := ⟨.clear, .clear⟩
    retryHold := ⟨0, 0⟩
    readback := ⟨none, none⟩
    foundImage := none
    loadSlot := .free
    loadBuffer := []
    loadIdleTimer := none
    writeQueue := w.writeQueue ++ [.image w.loadBuffer] }

theorem Work.firstDefaults_eq (old : Option Memory) (m : Memory) (w : Work) :
    w.firstDefaults old m = { w with
      consentPolicy := if old = none then ⟨(settings m .A).consentDefault, (settings m .B).consentDefault⟩
        else w.consentPolicy
      schedulePolicy := if old = none then ⟨(settings m .A).scheduleDefault, (settings m .B).scheduleDefault⟩
        else w.schedulePolicy } := by
  cases old <;> rfl

/-- The commit: the image is taken, the next write starts, TABLE_CHANGED goes to both links, and an evaluation follows (R150). -/
theorem Work.commit_eq (x : Station) (w : Work) :
    w.commit x = (w.imageTaken.startNextWrite.postAll [.A, .B] (.tableChanged x)).evaluate false := by
  unfold Work.commit
  rw [Work.firstDefaults_eq]
  rfl

/-- What follows the taking of the image is the engine's and the store's alone. -/
theorem Work.commit_moves (x : Station) (w : Work) : Moves w.imageTaken (w.commit x) := by
  rw [Work.commit_eq]
  exact ((Work.startNextWrite_moves _).trans (Work.postAll_moves _ _ _)).trans (Work.evaluate_moves false _)

/-- With an idle store and an invalid clock the image write begins, and nothing follows the notices (R139, R152). -/
theorem Work.commit_idle {x : Station} {w : Work} (clock : w.clock = none) (idle : w.writing = none) (empty : w.writeQueue = []) :
    w.commit x = { w.imageTaken with
      writeQueue := w.writeQueue
      imageRecord := ⟨.torn, w.imageRecord.bytes⟩
      writing := some ⟨.image w.loadBuffer, w.elapsed + Config.ms 400⟩
      posts := w.posts ++ [(.A, .tableChanged x), (.B, .tableChanged x)] } := by
  have queued : w.imageTaken.writeQueue = [.image w.loadBuffer] := by
    unfold Work.imageTaken
    rw [empty]
    rfl
  have begun := Work.startNextWrite_next (w := w.imageTaken) idle queued
  rw [Work.commit_eq, begun, Work.postAll_eq, Work.evaluate_no_clock _ (by exact clock), empty]
  rfl

/-! ### Contactors entering and leaving use (R7) -/

theorem liveAfter_get (old : Option Memory) (new : Memory) (aux : Vector Aux 16) (live : Vector Live 16) (k : ContactorNo) :
    (liveAfter old new aux live)[k] =
      if (contactorRecord new k).inUse = true then
        if old ≠ none ∧ (contactorRecord (old.getD []) k).inUse = true then live[k] else live[k].enterUse
      else if old ≠ none ∧ (contactorRecord (old.getD []) k).inUse = true then aux[k].unusedLive else live[k] := by
  cases old <;> simp [liveAfter]

theorem Live.enterUse_eq (l : Live) :
    l.enterUse = if l.position = none then ⟨none, .failed, .disagree⟩ else ⟨l.position, .idle, .noFailure⟩ := by
  unfold Live.enterUse
  cases l.position <;> rfl

/-! ### The command (R149, R150) -/

/-- A COMPLETE load of a sound image that both stations' patterns carry on to is committed (R149). -/
theorem Work.loadCommit_accepted {x : Station} {w : Work} {size expected : Nat} (held : w.loadSlot = .held x size expected true)
    (idle : (w.transition.isSome || !w.pendingList.isEmpty || w.imageWritePending) = false)
    (sound : firstFailure w.loadBuffer = none) (a : w.mismatch w.loadBuffer .A = false) (b : w.mismatch w.loadBuffer .B = false) :
    w.loadCommit x = (w.commit x, .accepted, none) := by
  unfold Work.loadCommit
  simp [held, idle, sound, a, b]

/-- Settles O9: the fields the engine may not change stand as the image taken leaves them, and an idle store and an invalid clock
leave nothing else to follow. -/
theorem loadCommitAccepted : Obligations.LoadCommitAccepted := by
  intro x size expected s ready held transition list image sound a b m
  have idle : (s.work.transition.isSome || !s.work.pendingList.isEmpty || s.work.imageWritePending) = false := by
    simp [transition, list, image]
  have acted : act x (s.ports.get x).dropped .loadCommit s.work = (s.work.commit x, ⟨.accepted, []⟩) :=
    congrArg (fun r : Work × ReplyCode × Option Nat => (r.1, Reply.mk r.2.1 ((r.2.2.map bytes16).getD [])))
      (Work.loadCommit_accepted (w := s.work) held idle sound a b)
  have moves := s.work.commit_moves x
  have kept {α : Type} (g : Plant → α)
      (scan : ∀ (p : Plant) list m e, g { p with scanList := list, measurement := m, lastEntry := e } = g p)
      (own : ∀ p : Plant, g p.outside = g p) : g (s.receiveRequest x .loadCommit).toPlant = g s.work.imageTaken.toPlant := by
    rw [State.receiveRequest_field ready acted g scan, ← own (s.work.commit x).toPlant, moves.outside, own]
  refine ⟨⟨s.receiveRequest x .loadCommit, rfl, kept Plant.image (fun _ _ _ _ => rfl) fun _ => rfl,
      kept Plant.loadSlot (fun _ _ _ _ => rfl) fun _ => rfl, kept Plant.loadBuffer (fun _ _ _ _ => rfl) fun _ => rfl,
      kept Plant.loadIdleTimer (fun _ _ _ _ => rfl) fun _ => rfl, kept Plant.readback (fun _ _ _ _ => rfl) fun _ => rfl,
      kept Plant.foundImage (fun _ _ _ _ => rfl) fun _ => rfl, kept Plant.clock (fun _ _ _ _ => rfl) fun _ => rfl,
      kept Plant.aux (fun _ _ _ _ => rfl) fun _ => rfl, State.receiveRequest_reply ready acted,
      State.receiveRequest_peer_reply ready⟩, fun clock quiet empty => ?_⟩
  have stored := Work.commit_idle (x := x) (w := s.work) clock quiet empty
  refine ⟨s.work.imageTaken.contactors, s.work.imageTaken.consentPolicy, s.work.imageTaken.schedulePolicy,
    congrArg Host.Outcome.next ?_, fun k => ?_, fun active => ?_, fun none_ y => ?_⟩
  · rw [stored] at acted
    exact State.receiveRequest_eq ready acted fun _ => rfl
  · have live := liveAfter_get s.image m s.aux s.contactors k
    rw [Live.enterUse_eq] at live
    exact ⟨fun is was => live.trans ((if_pos is).trans (if_pos was)),
      fun is was => live.trans ((if_pos is).trans (if_neg was)),
      fun is was => live.trans ((if_neg (Bool.eq_false_iff.1 is)).trans (if_pos was)),
      fun is was => live.trans ((if_neg (Bool.eq_false_iff.1 is)).trans (if_neg was))⟩
  · exact ⟨if_neg active, if_neg active⟩
  · have consent : s.work.imageTaken.consentPolicy = _ := if_pos none_
    have schedule : s.work.imageTaken.schedulePolicy = _ := if_pos none_
    rw [consent, schedule]
    cases y <;> exact ⟨rfl, rfl⟩

end Machine
end Sys2Proof

/-! PROOFS. Gaps and breaks on a link (R147, R151, R158, R162): the gap timer's expiry, the port reset of a break, and the line's
return. -/
namespace Sys2Proof
namespace Machine

/-- Two changes of a port that agree on it as it stands. -/
theorem State.onPort_congr {x : Station} {f g : Port → Port} {s : State} (h : f (s.ports.get x) = g (s.ports.get x)) :
    s.onPort x f = s.onPort x g := by
  unfold State.onPort
  rw [h]

/-! ### The gap timer (R158) -/

theorem markLast_eq_modify (mark : FifoByte → FifoByte) (fifo : List FifoByte) :
    markLast mark fifo = fifo.modify (fifo.length - 1) mark := by
  induction fifo with
  | nil => rfl
  | cons f rest ih =>
    cases rest with
    | nil => rfl
    | cons g rest => exact congrArg (f :: ·) ih

/-- What a gap leaves of the frame in assembly (R157, R158). -/
theorem Port.takeGap_eq (p : Port) :
    p.takeGap =
      if p.assembler = .body ∨ p.assembler = .escape then
        { p with assembler := .hunt, content := [], damaged := false, dropped := min 65535 (p.dropped + 1) }
      else { p with assembler := .hunt, damaged := if p.assembler = .opened then false else p.damaged } := by
  unfold Port.takeGap
  cases p with
  | mk fifo assembler => cases assembler <;> rfl

theorem exec_gapTimerExpiry_stopped {x : Station} {s : State} (stopped : (s.ports.get x).gapTimer = none) :
    exec (.gapTimerExpiry x) s = .next s := by
  simp only [exec, execGapTimerExpiry, stopped]

theorem exec_gapTimerExpiry_due {x : Station} {s : State} {due : Nat} (timer : (s.ports.get x).gapTimer = some due) :
    exec (.gapTimerExpiry x) s = .next ((s.reach due).onPort x Port.gapExpired) := by
  simp only [exec, execGapTimerExpiry, timer]

theorem Port.gapExpired_waiting {p : Port} (waiting : p.fifo ≠ []) :
    p.gapExpired = { p with
      gapTimer := none
      line := .noDelimiter
      fifo := p.fifo.modify (p.fifo.length - 1) fun f => { f with gap := true } } := by
  unfold Port.gapExpired
  rw [← markLast_eq_modify]
  exact if_neg (by simpa using waiting)

theorem Port.gapExpired_empty {p : Port} (empty : p.fifo = []) :
    p.gapExpired = Port.takeGap { p with gapTimer := none, line := .noDelimiter } := by
  unfold Port.gapExpired
  exact if_pos (by simp [empty])

/-! ### Breaks (R147, R151, R162) -/

theorem Work.storePortReset_eq (x : Station) (w : Work) :
    w.storePortReset x = { w with
      loadSlot := if w.loadSlot.heldBy x then .free else w.loadSlot
      loadBuffer := if w.loadSlot.heldBy x then [] else w.loadBuffer
      loadIdleTimer := if w.loadSlot.heldBy x then none else w.loadIdleTimer
      readback := w.readback.set x none } := by
  unfold Work.storePortReset
  cases w.loadSlot.heldBy x <;> rfl

theorem State.hears_iff (x : Station) (s : State) :
    s.hears x = true ↔ s.phase.isHeld = false ∧ (s.ports.get x).lineLow = false := by
  simp [State.hears]

theorem exec_breakEvent_heard {x : Station} {s : State} (heard : s.hears x = true) :
    exec (.breakEvent x) s = .next ((s.finish (s.work.storePortReset x)).onPort x Port.broken) := by
  simp only [exec, execBreak, heard, if_true, State.breakOn]
  rw [State.event_eq_of_stations rfl]
  rw [Work.storePortReset_eq]
  rfl

theorem exec_breakEvent_unheard {x : Station} {s : State} (unheard : ¬s.hears x = true) :
    exec (.breakEvent x) s = .next s :=
  congrArg Host.Outcome.next (if_neg unheard)

/-- Settles O50: the gap by the FIFO and the assembler, and the break by whether the port hears its line. -/
theorem gapsAndBreaks : Obligations.GapsAndBreaks := by
  intro x s p
  refine ⟨exec_gapTimerExpiry_stopped, fun due timer => ⟨fun waiting => ?_, fun empty => ?_⟩, fun running high => ?_,
    fun deaf => ?_, rfl⟩
  · rw [exec_gapTimerExpiry_due timer]
    exact congrArg Host.Outcome.next (State.onPort_congr (Port.gapExpired_waiting waiting))
  · have expired := Port.gapExpired_empty empty
    rw [Port.takeGap_eq] at expired
    have left {q : Port} (h : p.gapExpired = q) :
        exec (.gapTimerExpiry x) s = .next (({ s with elapsed := max s.elapsed due } : State).onPort x fun _ => q) :=
      (exec_gapTimerExpiry_due timer).trans (congrArg Host.Outcome.next (State.onPort_congr h))
    by_cases counted : p.assembler = .body ∨ p.assembler = .escape
    · exact ⟨_, left (expired.trans (if_pos counted)), rfl, rfl, rfl, (if_pos counted).symm, fun _ => ⟨rfl, rfl⟩,
        fun h => absurd counted h, rfl, rfl, rfl, rfl, rfl, rfl, rfl, rfl, rfl, rfl, rfl⟩
    · exact ⟨_, left (expired.trans (if_neg counted)), rfl, rfl, rfl, (if_neg counted).symm, fun h => absurd h counted,
        fun _ => ⟨rfl, rfl⟩, rfl, rfl, rfl, rfl, rfl, rfl, rfl, rfl, rfl, rfl, rfl⟩
  · rw [exec_breakEvent_heard ((State.hears_iff x s).2 ⟨running, high⟩), Work.storePortReset_eq]
    rfl
  · refine exec_breakEvent_unheard fun heard => ?_
    obtain ⟨running, high⟩ := (State.hears_iff x s).1 heard
    rcases deaf with held | low
    · exact Bool.false_ne_true (running.symm.trans held)
    · exact Bool.false_ne_true (high.symm.trans low)

end Machine
end Sys2Proof

/-! PROOFS. The assembler takes the bytes of the FIFO (R156 to R158, R160): what a byte with its marks leaves, and what a run of
bytes taken from behind a full reply slot comes to. -/
namespace Sys2Proof
namespace Machine

/-! ### A byte and its marks (R156 to R158) -/

/-- The port with another's frame in assembly and dropped-frame count (R157). -/
def Port.assembling (p v : Port) : Port :=
  { p with assembler := v.assembler, content := v.content, damaged := v.damaged, dropped := v.dropped }

theorem Port.addContent_assembling (p v : Port) (b : Byte) :
    (p.assembling v).addContent b = p.assembling (v.addContent b) := by
  by_cases room : v.content.length < Config.contentMax
  · unfold Port.addContent
    rw [if_pos room]
    exact if_pos room
  · unfold Port.addContent
    rw [if_neg room]
    exact if_neg room

theorem Port.takeContent_assembling (p v : Port) (b : Byte) :
    (p.assembling v).takeContent b = p.assembling (v.takeContent b) := by
  unfold Port.takeContent
  rw [Port.addContent_assembling]
  split <;> rfl

theorem Port.closeFrame_assembling (p v : Port) :
    (p.assembling v).closeFrame = (p.assembling v.closeFrame.1, v.closeFrame.2) := by
  cases good : goodContent v.content v.damaged <;> simp [Port.closeFrame, Port.assembling, Port.dropFrame, good]

/-- What the assembler makes of a byte depends on its own fields alone, and changes them alone. -/
theorem Port.takeByte_assembling (p v : Port) (b : Byte) :
    (p.assembling v).takeByte b = (p.assembling (v.takeByte b).1, (v.takeByte b).2) := by
  have same : (p.assembling v).assembler = v.assembler := rfl
  unfold Port.takeByte
  rw [same, Port.closeFrame_assembling]
  simp only [Port.takeContent_assembling, Port.addContent_assembling]
  split
  · split <;> rfl
  · split <;> rfl
  · split <;> rfl
  · split <;> rfl
  · by_cases closes : b = delimiter
    · rw [if_pos closes, if_pos closes]
      rfl
    · rw [if_neg closes, if_neg closes]
      cases unescape? b <;> rfl

theorem Port.takeLoss_assembling (p v : Port) : (p.assembling v).takeLoss = p.assembling v.takeLoss := by
  by_cases h : v.assembler = .discard
  · unfold Port.takeLoss
    rw [if_pos h]
    exact if_pos h
  · unfold Port.takeLoss
    rw [if_neg h]
    exact if_neg h

theorem Port.takeGap_assembling (p v : Port) : (p.assembling v).takeGap = p.assembling v.takeGap := by
  have same : (p.assembling v).assembler = v.assembler := rfl
  unfold Port.takeGap
  rw [same]
  split <;> rfl

theorem Port.takeMarked_assembling (p v : Port) (f : FifoByte) :
    (p.assembling v).takeMarked f = (p.assembling (v.takeMarked f).1, (v.takeMarked f).2) := by
  unfold Port.takeMarked
  rw [Port.takeByte_assembling]
  cases f.loss <;> cases f.gap <;> simp [Port.takeLoss_assembling, Port.takeGap_assembling]

theorem Port.takeMarked_fst (p : Port) (f : FifoByte) :
    let taken := p.takeByte f.byte
    let lossy : Port := if f.loss = true ∧ taken.1.assembler ≠ .discard then { taken.1 with damaged := true } else taken.1
    (p.takeMarked f).1 = if f.gap = true then lossy.takeGap else lossy := by
  intro taken lossy
  have loss : lossy = if f.loss = true then taken.1.takeLoss else taken.1 := by
    unfold Port.takeLoss
    cases marked : f.loss
    · simp [lossy, marked]
    · by_cases discards : taken.1.assembler = .discard <;> simp [lossy, marked, discards]
  rw [loss]
  rfl

/-! ### A run of bytes -/

/-- The assembler takes some bytes, each with its marks: the port, and the body of a frame that the last completed good. -/
def Port.takes (p : Port) (bytes : List FifoByte) : Port × Option (List Byte) :=
  bytes.foldl (fun r f => r.1.takeMarked f) (p, none)

theorem Port.takes_cons {p : Port} {f : FifoByte} (bytes : List FifoByte) (goesOn : (p.takeMarked f).2 = none) :
    p.takes (f :: bytes) = (p.takeMarked f).1.takes bytes := by
  unfold Port.takes
  rw [List.foldl_cons, ← goesOn]

theorem Port.takes_assembling (p v : Port) (bytes : List FifoByte) :
    (p.assembling v).takes bytes = (p.assembling (v.takes bytes).1, (v.takes bytes).2) := by
  unfold Port.takes
  generalize (none : Option (List Byte)) = done
  induction bytes generalizing v done with
  | nil => rfl
  | cons f bytes ih =>
    rw [List.foldl_cons, List.foldl_cons]
    dsimp only
    rw [Port.takeMarked_assembling]
    exact ih (v.takeMarked f).1 (v.takeMarked f).2

/-- A run of bytes leaves every field but the assembler's as it stood. -/
theorem Port.takes_fst (p : Port) (bytes : List FifoByte) : (p.takes bytes).1 = p.assembling (p.takes bytes).1 :=
  congrArg Prod.fst (p.takes_assembling p bytes)

/-! ### The flow toward the sender (R160) -/

/-- The flow state when the FIFO has come down from one level to another. -/
def FlowState.lowered (state : FlowState) (before after : Nat) : FlowState := if after ≤ 16 ∧ 16 < before then .xon else state

/-- The flow character queued when the FIFO has come down from one level to another. -/
def FlowState.queuedBy (state : FlowState) (queued : Option FlowChar) (before after : Nat) : Option FlowChar :=
  if after ≤ 16 ∧ 16 < before ∧ state = .xoffSent then some .xon else queued

section
variable (state : FlowState) (queued : Option FlowChar) {a b c : Nat} (hb : b ≤ a) (hc : c ≤ b)
include hb hc

theorem FlowState.lowered_lowered : (state.lowered a b).lowered b c = state.lowered a c := by
  unfold FlowState.lowered
  rcases Nat.lt_or_ge 16 b with high | low
  · simp [high, not_le.2 high, lt_of_lt_of_le high hb]
  · simp [low, not_lt.2 low, hc.trans low]

theorem FlowState.queuedBy_queuedBy :
    (state.lowered a b).queuedBy (state.queuedBy queued a b) b c = state.queuedBy queued a c := by
  unfold FlowState.queuedBy FlowState.lowered
  rcases Nat.lt_or_ge 16 b with high | low
  · simp [high, not_le.2 high, lt_of_lt_of_le high hb]
  · simp [low, not_lt.2 low, hc.trans low]

end

/-- A byte that leaves the FIFO lowers it by one. -/
theorem Port.popped_eq (rest : List FifoByte) (p : Port) :
    p.popped rest = { p with
      fifo := rest
      flowState := p.flowState.lowered (rest.length + 1) rest.length
      flowQueued := p.flowState.queuedBy p.flowQueued (rest.length + 1) rest.length } := by
  have crosses : (rest.length ≤ 16 ∧ 16 < rest.length + 1) ↔ rest.length = 16 := by omega
  unfold Port.popped FlowState.lowered FlowState.queuedBy
  simp only [← and_assoc, crosses]
  by_cases low : rest.length = 16
  · cases p.flowState <;> simp [Config.fifoLow, Port.queueFlow, low]
  · simp [Config.fifoLow, low]

end Machine
end Sys2Proof

/-! PROOFS. The FIFO drained behind a full reply slot (R156, R159, R160): the port it leaves, and what then begins. -/
namespace Sys2Proof
namespace Machine

/-! ### A change of a port that changes nothing -/

theorem State.onPort_id {x : Station} {f : Port → Port} {s : State} (h : f (s.ports.get x) = s.ports.get x) :
    s.onPort x f = s := by
  rw [State.onPort_congr (g := id) h]
  unfold State.onPort
  rw [id, Pair.set_get_self]

/-! ### The FIFO drained -/

/-- The port once the assembler has taken some bytes of the FIFO and left the rest, up to a frame that it holds or to the end. -/
def Port.drained (taken rest : List FifoByte) (p : Port) : Port :=
  { (p.takes taken).1 with
    fifo := rest
    heldFrame := (p.takes taken).2
    flowState := p.flowState.lowered p.fifo.length rest.length
    flowQueued := p.flowState.queuedBy p.flowQueued p.fifo.length rest.length }

theorem Port.drained_eq (taken rest : List FifoByte) (p : Port) :
    p.drained taken rest = { p.assembling (p.takes taken).1 with
      fifo := rest
      heldFrame := (p.takes taken).2
      flowState := p.flowState.lowered p.fifo.length rest.length
      flowQueued := p.flowState.queuedBy p.flowQueued p.fifo.length rest.length } := by
  unfold Port.drained
  rw [Port.takes_fst]
  rfl

/-- The assembler takes no more from an empty FIFO or behind a frame that it holds. -/
theorem State.drain_stops {x : Station} {s : State} (n : Nat)
    (h : (s.ports.get x).heldFrame ≠ none ∨ (s.ports.get x).fifo = []) : s.drain x n = s := by
  cases n with
  | zero => rfl
  | succ n =>
    unfold State.drain
    dsimp only
    split
    · next f rest none_ fifo => rcases h with held | empty <;> simp_all
    · rfl

/-- Behind a full slot a frame completed is held. -/
theorem State.afterTake_full {x : Station} {s : State} (done : Option (List Byte)) (full : s.slotEmpty x = false)
    (free : (s.ports.get x).heldFrame = none) :
    s.afterTake x done = s.onPort x fun p => { p with heldFrame := done } := by
  cases done with
  | none =>
    have same : ({ s.ports.get x with heldFrame := none } : Port) = s.ports.get x := by rw [← free]
    exact (State.onPort_id same).symm
  | some body =>
    unfold State.afterTake State.completeFrame
    dsimp only
    rw [full]
    rfl

theorem Port.drained_nil {p : Port} (free : p.heldFrame = none) (empty : p.fifo = []) : p.drained [] [] = p := by
  cases p
  cases free
  cases empty
  rfl

section
variable {p : Port} {f : FifoByte} (goesOn : (p.takeMarked f).2 = none)
include goesOn

theorem Port.drained_takes (rest bytes : List FifoByte) : (p.drained [f] rest).takes bytes =
    ((p.drained [f] rest).assembling (p.takes (f :: bytes)).1, (p.takes (f :: bytes)).2) := by
  rw [Port.takes_cons _ goesOn, ← Port.takes_assembling]
  rfl

/-- Taking one byte and then others is taking them all. -/
theorem Port.drained_cons {taken rest : List FifoByte} (fifo : p.fifo = f :: (taken ++ rest)) :
    (p.drained [f] (taken ++ rest)).drained taken rest = p.drained (f :: taken) rest := by
  have before : (taken ++ rest).length ≤ p.fifo.length := by simp [fifo]
  have after : rest.length ≤ (taken ++ rest).length := by simp
  rw [Port.drained_eq taken, Port.drained_takes goesOn, Port.drained_eq (f :: taken),
    ← FlowState.lowered_lowered _ before after, ← FlowState.queuedBy_queuedBy _ _ before after, Port.drained_eq [f]]
  rfl

end

theorem State.slotEmpty_onPort {x : Station} {f : Port → Port} {s : State}
    (h : (f (s.ports.get x)).reply = (s.ports.get x).reply) :
    (s.onPort x f).slotEmpty x = s.slotEmpty x := by
  unfold State.slotEmpty
  rw [State.onPort_ports, Pair.get_set_self, h]
  rfl

theorem Port.drained_reply (taken rest : List FifoByte) (p : Port) : (p.drained taken rest).reply = p.reply := by
  rw [Port.drained_eq]
  rfl

section
variable {x : Station}

/-- Behind a full slot the assembler takes the next byte of the FIFO. -/
theorem State.drain_next {s : State} {f : FifoByte} {rest : List FifoByte} (n : Nat) (full : s.slotEmpty x = false)
    (free : (s.ports.get x).heldFrame = none) (fifo : (s.ports.get x).fifo = f :: rest) :
    s.drain x (n + 1) = State.drain x n (s.onPort x (Port.drained [f] rest)) := by
  obtain ⟨p, hp⟩ : ∃ p, p = s.ports.get x := ⟨_, rfl⟩
  rw [← hp] at free fifo
  have taken : (p.popped rest).takeMarked f = ((p.popped rest).assembling (p.takeMarked f).1, (p.takeMarked f).2) := by
    rw [← Port.takeMarked_assembling, Port.popped_eq]
    rfl
  rw [State.drain]
  simp only [← hp, free, fifo, taken]
  rw [State.afterTake_full, State.onPort_onPort]
  · refine congrArg (State.drain x n) (State.onPort_congr ?_)
    rw [← hp, Port.drained_eq, Port.popped_eq, fifo]
    rfl
  · rw [State.slotEmpty_onPort, full]
    rw [← hp, Port.popped_eq]
    rfl
  · rw [State.onPort_ports, Pair.get_set_self, Port.popped_eq]
    exact free

/-- Behind a full slot the assembler takes the FIFO's bytes up to a frame that it holds, or to the end. -/
theorem State.drain_eq {s : State} {taken rest : List FifoByte} {n : Nat} (enough : taken.length ≤ n)
    (full : s.slotEmpty x = false) (free : (s.ports.get x).heldFrame = none) (fifo : (s.ports.get x).fifo = taken ++ rest)
    (goesOn : ∀ m < taken.length, ((s.ports.get x).takes (taken.take m)).2 = none)
    (ends : rest = [] ∨ ((s.ports.get x).takes taken).2 ≠ none) : s.drain x n = s.onPort x (Port.drained taken rest) := by
  induction taken generalizing s n with
  | nil =>
    have empty : rest = [] := ends.resolve_right fun h => h rfl
    subst empty
    rw [State.drain_stops n (.inr fifo)]
    exact (State.onPort_id (Port.drained_nil free fifo)).symm
  | cons f taken ih =>
    obtain ⟨k, rfl⟩ : ∃ k, n = k + 1 := Nat.exists_eq_succ_of_ne_zero (Nat.ne_zero_of_lt enough)
    obtain ⟨p, hp⟩ : ∃ p, p = s.ports.get x := ⟨_, rfl⟩
    rw [List.cons_append] at fifo
    rw [State.drain_next k full free fifo]
    rw [← hp] at free fifo goesOn ends
    have port : (s.onPort x (Port.drained [f] (taken ++ rest))).ports.get x = p.drained [f] (taken ++ rest) := by
      rw [State.onPort_ports, Pair.get_set_self, hp]
    cases done : (p.takeMarked f).2 with
    | some body =>
      have last : taken = [] := by
        by_contra more
        have := goesOn 1 (by simpa using List.length_pos_iff.2 more)
        exact Option.some_ne_none body (done.symm.trans this)
      subst last
      refine State.drain_stops k (.inl ?_)
      rw [port]
      exact fun h => Option.some_ne_none body (done.symm.trans h)
    | none =>
      have run (l : List FifoByte) : ((p.drained [f] (taken ++ rest)).takes l).2 = (p.takes (f :: l)).2 := by
        rw [Port.drained_takes done]
      rw [ih (Nat.le_of_succ_le_succ enough)]
      · rw [State.onPort_onPort]
        exact State.onPort_congr (by rw [← hp]; exact Port.drained_cons done fifo)
      · rw [State.slotEmpty_onPort (Port.drained_reply _ _ _), full]
      · rw [port]
        exact done
      · rw [port]
        rfl
      · intro m short
        rw [port, run]
        exact goesOn (m + 1) (Nat.succ_lt_succ short)
      · rw [port, run]
        exact ends

/-- Whatever the assembler takes from behind a full slot changes its own port alone. -/
theorem State.drain_onPort (n : Nat) {s : State} (full : s.slotEmpty x = false) :
    ∃ p, s.drain x n = s.onPort x fun _ => p := by
  have stays : ∃ p, s = s.onPort x fun _ => p := ⟨_, (State.onPort_id rfl).symm⟩
  induction n generalizing s with
  | zero => exact stays
  | succ n ih =>
    cases held : (s.ports.get x).heldFrame with
    | some body => rwa [State.drain_stops _ (.inl (held ▸ Option.some_ne_none body))]
    | none =>
      cases fifo : (s.ports.get x).fifo with
      | nil => rwa [State.drain_stops _ (.inr fifo)]
      | cons f rest =>
        obtain ⟨p, hp⟩ := ih (s := s.onPort x (Port.drained [f] rest))
          (by rw [State.slotEmpty_onPort (Port.drained_reply _ _ _), full]) ⟨_, (State.onPort_id rfl).symm⟩
        exact ⟨p, by rw [State.drain_next n full held fifo, hp, State.onPort_onPort]⟩

end

/-! ### What then begins (R160, R161) -/

/-- A transmitter with no frame to go on with begins a queued flow character, or nothing. -/
theorem Port.transmit_flow {p : Port} (due : Nat) (still : p.char ≠ none ∨ p.frame = none) :
    p.transmit due = if p.char = none then
        { p with flowQueued := none, char := p.flowQueued.map fun c => ⟨c.byte, false, due⟩ }
      else p := by
  cases p with
  | mk _ _ _ _ _ _ _ _ _ _ _ _ _ queued running frame char =>
    cases char with
    | some c => rfl
    | none =>
      cases queued with
      | some c => rfl
      | none =>
        cases still.resolve_left fun h => h rfl
        cases running <;> rfl

end Machine
end Sys2Proof

/-! PROOFS. A held frame handed on (R156 to R160): the request's effect, the FIFO drained behind it and the XON that this brings,
at the reply's closing delimiter and at the end of start-up. -/
namespace Sys2Proof
namespace Machine

/-! ### What an event and a request leave of time and of the ports -/

/-- Whether the part is in service, elapsed time and the line rate. -/
def Plant.timing (p : Plant) : PartPhase × Nat × LinkRate := (p.phase, p.elapsed, p.rate)

theorem Moves.timing {v w : Work} (h : Moves v w) : w.timing = v.timing := by
  unfold Plant.timing
  rw [h.phase, h.elapsed, h.rate]

/-- No request changes the phase of the part, elapsed time or the line rate. -/
theorem act_timing (x : Station) (dropped : Nat) (r : Request) (w : Work) : (act x dropped r w).1.timing = w.timing := by
  cases r with
  | patternRequest target => exact (Work.submit_moves _ _ _ _).timing
  | withdraw => exact (Work.withdraw_moves _ _).timing
  | consentReply tag answer => exact (Work.consentReply_moves _ _ _ _).timing
  | contactorRelease index => exact (Work.release_moves _ _ _).timing
  | statusQuery => rfl
  | monitorQuery => rfl
  | contactorQuery => rfl
  | readbackBlock index => rfl
  | consentPolicy policy =>
    rw [act_consentPolicy]
    split_ifs
    · rfl
    · cases consentPolicyOf? policy.toNat <;> rfl
  | schedulePolicy policy =>
    rw [act_schedulePolicy]
    split_ifs
    · rfl
    · cases schedulePolicyOf? policy.toNat <;> rfl
  | clockSet year day hour minute second =>
    show (w.setClock x ⟨year.toNat, day.toNat, hour.toNat, minute.toNat, second.toNat⟩).1.timing = _
    generalize (⟨year.toNat, day.toNat, hour.toNat, minute.toNat, second.toNat⟩ : Reading) = reading
    cases valid : reading.valid with
    | false => rw [Work.setClock_refused valid]
    | true =>
      rw [Work.setClock_accepted valid]
      exact (Work.evaluate_moves false (w.clockTaken x reading)).timing
  | clockQuery =>
    unfold act actClockQuery
    cases w.clock <;> rfl
  | loadOpen size =>
    show (w.loadOpen x size.toNat).1.timing = _
    unfold Work.loadOpen
    split_ifs <;> rfl
  | loadBlock index data =>
    show (w.loadBlock x index.toNat data).1.timing = _
    unfold Work.loadBlock
    split
    · split_ifs <;> rfl
    · rfl
  | loadCommit =>
    show (w.loadCommit x).1.timing = _
    unfold Work.loadCommit
    split
    · split
      · rfl
      · split
        · rfl
        · split
          · rfl
          · split
            · rfl
            · exact (w.commit_moves x).timing
    · rfl
  | loadCancel =>
    show (w.loadCancel x).1.timing = _
    unfold Work.loadCancel
    split_ifs <;> rfl
  | readbackOpen size =>
    show (w.readbackOpen x size.toNat).1.timing = _
    unfold Work.readbackOpen
    split_ifs <;> rfl

theorem State.handOn_timing (x : Station) (body : List Byte) (s : State) : (s.handOn x body).timing = s.timing := by
  unfold State.handOn
  split
  · next r _ =>
    show (s.event fun w => (act x (s.ports.get x).dropped r w).1).timing = _
    rw [State.event_field Plant.timing fun _ _ _ _ => rfl]
    exact act_timing x _ r s.work
  · rfl

/-- Notices that join a queue leave the rest of the port as it stood. -/
theorem State.deliver_port (posts : List (Station × Notice)) (s : State) (y : Station) : ∃ notices lost,
    (s.deliver posts).ports.get y = { s.ports.get y with notices := notices, lost := lost } := by
  induction posts generalizing s with
  | nil => exact ⟨_, _, rfl⟩
  | cons q posts ih =>
    obtain ⟨notices, lost, eq⟩ := ih (s.onPort q.1 (Port.post q.2))
    change ((s.onPort q.1 (Port.post q.2)).deliver posts).ports.get y = _ at eq
    refine ⟨notices, lost, eq.trans ?_⟩
    rw [State.onPort_ports]
    by_cases hy : y = q.1
    · subst hy
      rw [Pair.get_set_self]
      unfold Port.post
      split <;> rfl
    · rw [Pair.get_set_of_ne _ _ hy]

theorem State.event_port (f : Work → Work) (s : State) (y : Station) : ∃ notices lost,
    (s.event f).ports.get y = { s.ports.get y with notices := notices, lost := lost } :=
  State.deliver_port _ { s with toPlant := _ } y

/-- Handing a frame on fills the slot and leaves the rest of the port, but its notices, as it stood. -/
theorem State.handOn_port (x : Station) (body : List Byte) (s : State) : ∃ notices lost reply,
    (s.handOn x body).ports.get x = { s.ports.get x with notices := notices, lost := lost, reply := some reply } := by
  unfold State.handOn
  split
  · next r _ =>
    obtain ⟨notices, lost, eq⟩ := s.event_port (fun w => (act x (s.ports.get x).dropped r w).1) x
    refine ⟨notices, lost, (act x (s.ports.get x).dropped r s.work).2.body r.kind, ?_⟩
    unfold State.answer State.placeReply
    rw [State.onPort_ports, Pair.get_set_self, eq]
  · exact ⟨_, _, _, Pair.get_set_self _ _ _⟩

theorem State.handOn_peer_port (x : Station) (body : List Byte) (s : State) : ∃ notices lost,
    (s.handOn x body).ports.get x.peer = { s.ports.get x.peer with notices := notices, lost := lost } := by
  unfold State.handOn
  split
  · next r _ =>
    obtain ⟨notices, lost, eq⟩ := s.event_port (fun w => (act x (s.ports.get x).dropped r w).1) x.peer
    refine ⟨notices, lost, ?_⟩
    unfold State.answer State.placeReply
    rw [State.onPort_ports, Pair.get_set_peer, eq]
  · exact ⟨_, _, Pair.get_set_peer _ _ _⟩

/-! ### Changes of a port that an event does not see -/

/-- A change of a port's own reception, which neither the notices nor the reply nor the dropped-frame count are part of. -/
structure Port.Unseen (g : Port → Port) : Prop where
  post : ∀ n p, (g p).post n = g (p.post n)
  reply : ∀ reply p, { g p with reply := reply } = g { p with reply := reply }
  dropped : ∀ p, (g p).dropped = p.dropped

section
variable {x : Station} {g : Port → Port}

theorem State.deliver_onPort (unseen : ∀ n p, (g p).post n = g (p.post n)) (posts : List (Station × Notice)) (s : State) :
    (s.onPort x g).deliver posts = (s.deliver posts).onPort x g := by
  induction posts generalizing s with
  | nil => rfl
  | cons q posts ih =>
    have swap : (s.onPort x g).onPort q.1 (Port.post q.2) = (s.onPort q.1 (Port.post q.2)).onPort x g := by
      rcases q with ⟨y, n⟩
      cases x <;> cases y <;> simp [State.onPort, Pair.set, Pair.get, unseen]
    show ((s.onPort x g).onPort q.1 (Port.post q.2)).deliver posts = _
    rw [swap, ih]
    rfl

theorem State.event_onPort (unseen : ∀ n p, (g p).post n = g (p.post n)) (f : Work → Work) (s : State) :
    (s.onPort x g).event f = (s.event f).onPort x g :=
  State.deliver_onPort unseen _ { s with toPlant := _ }

theorem State.handOn_onPort (unseen : Port.Unseen g) (body : List Byte) (s : State) :
    (s.onPort x g).handOn x body = (s.handOn x body).onPort x g := by
  unfold State.handOn
  split
  · next r _ =>
    have dropped : ((s.onPort x g).ports.get x).dropped = (s.ports.get x).dropped := by
      rw [State.onPort_ports, Pair.get_set_self, unseen.dropped]
    unfold State.answer State.placeReply
    dsimp only
    rw [State.event_onPort unseen.post, dropped]
    simp only [State.onPort_onPort, unseen.reply]
    rfl
  · unfold State.placeReply
    simp only [State.onPort_onPort, unseen.reply]

end

theorem Port.unseen_frameClosed : Port.Unseen Port.frameClosed :=
  ⟨Port.post_frameClosed, fun _ _ => rfl, fun _ => rfl⟩

theorem Port.post_heldFrame (held : Option (List Byte)) (n : Notice) (p : Port) :
    ({ p with heldFrame := held } : Port).post n = { p.post n with heldFrame := held } := by
  unfold Port.post
  dsimp only
  split <;> rfl

/-! ### A held frame handed on (R159) -/

/-- The FIFO drained, and the XON that begins at once with no character in transmission (R160). -/
theorem Port.drained_transmit {p : Port} (due : Nat) (taken rest : List FifoByte)
    (still : p.char ≠ none ∨ (p.flowQueued = none ∧ p.frame = none)) :
    let xon : Prop := rest.length ≤ 16 ∧ 16 < p.fifo.length ∧ p.flowState = .xoffSent
    (p.drained taken rest).transmit due =
      { (p.takes taken).1 with
        fifo := rest
        heldFrame := (p.takes taken).2
        flowState := if rest.length ≤ 16 ∧ 16 < p.fifo.length then .xon else p.flowState
        flowQueued := if xon ∧ p.char ≠ none then some .xon else p.flowQueued
        char := if xon ∧ p.char = none then some ⟨0x11, false, due⟩ else p.char } := by
  intro xon
  have same : (p.drained taken rest).char = p.char ∧ (p.drained taken rest).frame = p.frame := by
    rw [Port.drained_eq]
    exact ⟨rfl, rfl⟩
  rw [Port.transmit_flow due (by rw [same.1, same.2]; exact still.imp_right And.right), same.1]
  have queued : (p.drained taken rest).flowQueued = if xon then some .xon else p.flowQueued := rfl
  cases char : p.char with
  | some c =>
    rw [if_neg (Option.some_ne_none c)]
    simp only [ne_eq, reduceCtorEq, not_false_eq_true, and_true, and_false, if_false]
    rw [← char, ← same.1]
    rfl
  | none =>
    rw [if_pos rfl, queued, (still.resolve_left fun h => h char).1]
    simp only [ne_eq, not_true_eq_false, and_true, and_false, if_false]
    by_cases h : xon
    · rw [if_pos h, if_pos h]
      rfl
    · rw [if_neg h, if_neg h]
      rfl

/-- A request command is the reception of its frame (R163). -/
theorem exec_of_frame {x : Station} {i : Instr} {body : List Byte} (h : i.frame? = some (x, body)) (s : State) :
    exec i s = .next (s.receiveFrame x body) := by
  cases i <;> cases h <;> rfl

/-- The frame held on a link can be handed on at once, and no byte of another frame is then sent. -/
structure State.Resumes (x : Station) (body : List Byte) (s : State) : Prop where
  running : s.phase = .running
  high : (s.ports.get x).lineLow = false
  held : (s.ports.get x).heldFrame = some body
  empty : (s.ports.get x).reply = none
  still : (s.ports.get x).char ≠ none ∨ ((s.ports.get x).flowQueued = none ∧ (s.ports.get x).frame = none)

/-- The state with the frame held on a link gone from its port. -/
def State.unheld (x : Station) (s : State) : State := s.onPort x fun p => { p with heldFrame := none }

/-- What a request handed on leaves of its port: the slot full, and all but the notices as it stood. -/
theorem State.unheld_handOn_port (x : Station) (body : List Byte) (s : State) : ∃ notices lost reply,
    ((s.unheld x).handOn x body).ports.get x =
      { s.ports.get x with heldFrame := none, notices := notices, lost := lost, reply := some reply } := by
  obtain ⟨notices, lost, reply, eq⟩ := (s.unheld x).handOn_port x body
  refine ⟨notices, lost, reply, eq.trans ?_⟩
  unfold State.unheld
  rw [State.onPort_ports, Pair.get_set_self]

section
variable {x : Station} {body : List Byte} {s : State} (h : s.Resumes x body)
include h

theorem State.Resumes.ready : (s.unheld x).Ready x := by
  unfold State.unheld State.Ready
  rw [State.onPort_ports, Pair.get_set_self]
  exact ⟨h.running, h.high, rfl, h.empty⟩

theorem State.Resumes.resume_eq :
    s.resume x = (((s.unheld x).handOn x body).drainAll x).transmit x := by
  have empty : s.slotEmpty x = true := by simp [State.slotEmpty, h.running, h.empty]
  unfold State.resume
  rw [h.held]
  exact if_pos empty

/-- The frame held on a link is handed on as the words of the claims say. -/
theorem State.Resumes.handsOn {i : Instr} (frame : i.frame? = some (x, body)) : s.HandsOn x i (s.resume x) := by
  obtain ⟨w, hw⟩ : ∃ w, w = (s.unheld x).handOn x body := ⟨_, rfl⟩
  obtain ⟨p, hp⟩ : ∃ p, p = s.ports.get x := ⟨_, rfl⟩
  have taken : exec i (s.unheld x) = .next (w.onPort x Port.frameClosed) := by
    rw [exec_of_frame frame, State.receiveFrame_ready x body _ h.ready, State.handOn_onPort Port.unseen_frameClosed, hw]
  obtain ⟨notices, lost, reply, port⟩ := s.unheld_handOn_port x body
  rw [← hw, ← hp] at port
  have still := h.still
  rw [← hp] at still
  have timing : w.timing = s.timing := by rw [hw, State.handOn_timing]; rfl
  refine ⟨_, taken, ?_⟩
  intro q run bytes rest fifo goesOn ends xon
  have opened : q = w.ports.get x := by
    dsimp only [q]
    rw [State.onPort_ports, Pair.get_set_self, port, hp]
    rfl
  have runs (l : List FifoByte) : run l = (w.ports.get x).takes l := by rw [← opened]; rfl
  have drained : w.drainAll x = w.onPort x (Port.drained bytes rest) := by
    rw [← hp] at fifo
    refine State.drain_eq ?_ ?_ ?_ ?_ ?_ ?_
    · rw [port, fifo, List.length_append]
      exact Nat.le_add_right _ _
    · simp [State.slotEmpty, port]
    · rw [port]
    · rw [port, fifo]
    · exact fun m short => runs (bytes.take m) ▸ goesOn m short
    · exact runs bytes ▸ ends
  have due : (w.onPort x (Port.drained bytes rest)).charEnd = s.elapsed + s.rate.charTime := by
    obtain ⟨elapsed, rate⟩ := Prod.ext_iff.1 (Prod.ext_iff.1 timing).2
    show w.elapsed + w.rate.charTime = _
    rw [show w.elapsed = s.elapsed from elapsed, show w.rate = s.rate from rate]
  rw [h.resume_eq, ← hw, drained, State.transmit, due, State.onPort_onPort, State.onPort_onPort]
  refine State.onPort_congr ?_
  rw [Port.drained_transmit _ bytes rest (by rw [port]; exact still), runs]
  simp only [port, xon, hp]

/-- Handing on keeps the part in service, and leaves the other port as it stood but for its notices. -/
theorem State.Resumes.peer : (s.resume x).phase = .running ∧ ∃ notices lost,
    (s.resume x).ports.get x.peer = { s.ports.get x.peer with notices := notices, lost := lost } := by
  obtain ⟨w, hw⟩ : ∃ w, w = (s.unheld x).handOn x body := ⟨_, rfl⟩
  obtain ⟨_, _, _, port⟩ := s.unheld_handOn_port x body
  obtain ⟨notices, lost, peer⟩ := (s.unheld x).handOn_peer_port x body
  rw [← hw] at port peer
  obtain ⟨p, drained⟩ := State.drain_onPort (x := x) (s := w) (w.ports.get x).fifo.length (by simp [State.slotEmpty, port])
  rw [h.resume_eq, ← hw, State.drainAll, drained]
  refine ⟨?_, notices, lost, ?_⟩
  · have timing : w.timing = (s.unheld x).timing := hw ▸ State.handOn_timing x body _
    exact (congrArg Prod.fst timing).trans h.running
  · unfold State.transmit
    rw [State.onPort_ports, Pair.get_set_peer, State.onPort_ports, Pair.get_set_peer, peer]
    unfold State.unheld
    rw [State.onPort_ports, Pair.get_set_peer]

end

/-- What stands in the rest of a port decides whether its held frame can be handed on. -/
theorem State.Resumes.of_port {x : Station} {body : List Byte} {s : State} (running : s.phase = .running) {p : Port}
    {notices : List Notice} {lost : Nat} (port : s.ports.get x = { p with notices := notices, lost := lost })
    (high : p.lineLow = false) (held : p.heldFrame = some body) (empty : p.reply = none)
    (still : p.char ≠ none ∨ (p.flowQueued = none ∧ p.frame = none)) : s.Resumes x body := by
  constructor
  · exact running
  all_goals rw [port]
  · exact high
  · exact held
  · exact empty
  · exact still

theorem State.resume_unheld {x : Station} {s : State} (free : (s.ports.get x).heldFrame = none) : s.resume x = s := by
  unfold State.resume
  rw [free]

/-- A frame handed on leaves the one held on the other link to be handed on. -/
theorem State.Resumes.then_peer {x : Station} {body other : List Byte} {s : State} (h : s.Resumes x body)
    (k : s.Resumes x.peer other) : (s.resume x).Resumes x.peer other := by
  obtain ⟨running, _, _, port⟩ := h.peer
  exact .of_port running port k.high k.held k.empty k.still

/-! ### The reply's closing delimiter (R159, R161) -/

/-- The port at the end of a reply's closing delimiter: the slot is empty, and a queued flow character begins. -/
theorem Port.endChar_transmit {p : Port} {c : TxChar} (due : Nat) (closes : c.closesReply = true)
    (sent : p.frame = none ∨ ∃ r, p.frame = some ⟨[], r⟩) :
    (p.endChar c).transmit due = { p with
      reply := none
      frame := none
      flowQueued := none
      char := p.flowQueued.map fun f => ⟨if f = .xon then 0x11 else 0x13, false, due⟩ } := by
  have ended : p.endChar c = { p with reply := none, frame := none, char := none } := by
    unfold Port.endChar Port.endFrame
    rcases sent with frame | ⟨r, frame⟩ <;> simp [frame, closes]
  rw [ended, Port.transmit_flow due (.inr rfl), if_pos rfl]
  rcases p.flowQueued with _ | _ | _ <;> rfl

/-! ### The end of start-up (R154, R159) -/

/-- The state at the end of the start-up wait, before any frame held is handed on. -/
def State.startedUp (kind : ResetKind) (s : State) : State := s.event fun w => w.whenDue w.startUpTimer (Work.startUp kind)

theorem exec_startUp_startedUp {kind : ResetKind} {s : State} (starting : s.phase = .starting kind) :
    exec .startUp s = .next (s.startedUp kind).resumeBoth := by
  simp only [exec, execStartUp, starting]
  rfl

/-- Start-up brings the part into service (R154). -/
theorem Work.startUp_phase (kind : ResetKind) (w : Work) : (Work.startUp kind w).phase = .running := by
  unfold Work.startUp
  rw [(Work.evaluate_moves false _).phase]
  have read : w.readRecords.phase = .running := rfl
  generalize w.readRecords = v at read ⊢
  have announced (interrupted : Bool) (u : Work) : (u.announceStartUp kind interrupted).phase = u.phase := by
    unfold Work.announceStartUp
    rw [Work.postAll_toPlant]
  split
  · unfold Work.startConfigured
    rw [(Work.carryBoth_moves _ _).phase, announced, (Work.clearHolds_moves _).phase]
    exact ((Work.handLastState_moves false _).phase.trans (Work.setBoth_moves _ _).phase).trans read
  · exact (announced _ v).trans read

section
variable {kind : ResetKind} {s : State}

theorem State.startedUp_phase {due : Nat} (timer : s.startUpTimer = some due) : (s.startedUp kind).phase = .running := by
  unfold State.startedUp
  rw [State.event_field Plant.phase fun _ _ _ _ => rfl, State.work_toPlant, timer]
  exact Work.startUp_phase kind _

theorem State.startedUp_port (x : Station) : ∃ notices lost,
    (s.startedUp kind).ports.get x = { s.ports.get x with notices := notices, lost := lost } :=
  State.event_port _ s x

theorem State.startedUp_unheld (x : Station) : (s.unheld x).startedUp kind = (s.startedUp kind).unheld x :=
  State.event_onPort (Port.post_heldFrame none) _ s

end

/-- A frame held on one link alone is handed on at the end of start-up. -/
theorem State.Resumes.resumeBoth_eq {x : Station} {body : List Byte} {s : State} (h : s.Resumes x body)
    (alone : (s.ports.get x.peer).heldFrame = none) : s.resumeBoth = s.resume x := by
  obtain ⟨-, _, _, port⟩ := h.peer
  have last : ((s.resume x).ports.get x.peer).heldFrame = none := by rw [port]; exact alone
  cases x with
  | A =>
    unfold State.resumeBoth
    rw [show (s.ports.get .B).heldFrame = none from alone, Option.isSome_none, Bool.and_false]
    exact State.resume_unheld last
  | B =>
    unfold State.resumeBoth
    rw [show (s.ports.get .A).heldFrame = none from alone, Option.isSome_none, Bool.false_and]
    exact congrArg (State.resume .B) (State.resume_unheld alone)

/-- A held frame that had gone, put back. -/
theorem State.unheld_held {x : Station} {body : List Byte} {s : State} (held : (s.ports.get x).heldFrame = some body) :
    ((s.unheld x).onPort x fun p => { p with heldFrame := some body }) = s := by
  unfold State.unheld
  rw [State.onPort_onPort]
  refine State.onPort_id ?_
  rw [← held]

/-- Both held frames gone and put back. -/
theorem State.unheld_held_both {bodyA bodyB : List Byte} {s : State} (heldA : (s.ports.get .A).heldFrame = some bodyA)
    (heldB : (s.ports.get .B).heldFrame = some bodyB) :
    ((((s.unheld .A).unheld .B).onPort .A fun p => { p with heldFrame := some bodyA }).onPort .B fun p =>
      { p with heldFrame := some bodyB }) = s := by
  have swap (t : State) : ((t.unheld .B).onPort .A fun p => { p with heldFrame := some bodyA }) =
      (t.onPort .A fun p => { p with heldFrame := some bodyA }).unheld .B := rfl
  rw [swap, State.unheld_held heldA, State.unheld_held heldB]

theorem State.resumeBoth_unheld {x : Station} {s : State} (alone : (s.ports.get x.peer).heldFrame = none) :
    (s.unheld x).resumeBoth = s.unheld x := by
  refine State.resumeBoth_of_none fun y => ?_
  unfold State.unheld
  rw [State.onPort_ports]
  rcases Station.eq_or_eq_peer x y with rfl | rfl
  · rw [Pair.get_set_self]
  · rw [Pair.get_set_peer, alone]

section
variable {kind : ResetKind} {s : State} (starting : s.phase = .starting kind)

/-- What stands in a port through the start-up wait decides whether its held frame can be handed on at the end of it. -/
theorem State.startedUp_resumes {due : Nat} {x : Station} {body : List Byte} (timer : s.startUpTimer = some due)
    (high : (s.ports.get x).lineLow = false) (held : (s.ports.get x).heldFrame = some body)
    (empty : (s.ports.get x).reply = none)
    (still : (s.ports.get x).char ≠ none ∨ ((s.ports.get x).flowQueued = none ∧ (s.ports.get x).frame = none)) :
    (s.startedUp kind).Resumes x body := by
  obtain ⟨_, _, port⟩ := s.startedUp_port (kind := kind) x
  exact .of_port (State.startedUp_phase timer) port high held empty still

include starting

/-- Start-up with a frame held on one link, and without it. -/
theorem exec_startUp_one {x : Station} {body : List Byte} (resumes : (s.startedUp kind).Resumes x body)
    (alone : (s.ports.get x.peer).heldFrame = none) :
    exec .startUp (s.unheld x) = .next ((s.startedUp kind).unheld x) ∧
      exec .startUp s = .next ((s.startedUp kind).resume x) := by
  obtain ⟨_, _, peer⟩ := s.startedUp_port (kind := kind) x.peer
  have free : ((s.startedUp kind).ports.get x.peer).heldFrame = none := by rw [peer]; exact alone
  constructor
  · rw [exec_startUp_startedUp (s := s.unheld x) starting, State.startedUp_unheld, State.resumeBoth_unheld free]
  · rw [exec_startUp_startedUp starting, resumes.resumeBoth_eq free]

/-- Start-up with a frame held on both links, and without them: which is handed on first is a free value (log entry 5). -/
theorem exec_startUp_both {bodyA bodyB : List Byte} {w : State}
    (hw : w = { s.startedUp kind with freeDraws := (s.startedUp kind).freeDraws + 1 }) (a : w.Resumes .A bodyA)
    (b : w.Resumes .B bodyB) :
    exec .startUp ((s.unheld .A).unheld .B) = .next (((s.startedUp kind).unheld .A).unheld .B) ∧
      (exec .startUp s = .next ((w.resume .A).resume .B) ∨ exec .startUp s = .next ((w.resume .B).resume .A)) := by
  constructor
  · rw [exec_startUp_startedUp (s := (s.unheld .A).unheld .B) starting, State.startedUp_unheld, State.startedUp_unheld,
      State.resumeBoth_unheld (x := .B) rfl]
  · have heldA : ((s.startedUp kind).ports.get .A).heldFrame = some bodyA := by rw [hw] at a; exact a.held
    have heldB : ((s.startedUp kind).ports.get .B).heldFrame = some bodyB := by rw [hw] at b; exact b.held
    rw [exec_startUp_startedUp starting]
    unfold State.resumeBoth
    rw [heldA, heldB, hw]
    cases Config.linkBFirst (s.startedUp kind).freeDraws
    · exact .inl rfl
    · exact .inr rfl

end

/-- Settles O52: handing on is the resumption of the port's assembler, to which each of the events comes. -/
theorem heldFramesHandedOn : Obligations.HeldFramesHandedOn := by
  unfold Obligations.HeldFramesHandedOn
  intro free ready
  refine ⟨?delimiter, ?one, ?both, ?marks⟩
  case delimiter =>
    intro x c i body s p running char closes ⟨high, spent⟩ held frame now sent
    have begun : ((s.reach c.due).onPort x (Port.endChar c)).transmit x = sent := by
      unfold State.transmit
      rw [State.onPort_onPort]
      exact State.onPort_congr (Port.endChar_transmit _ closes spent)
    have port : sent.ports.get x = _ := Pair.get_set_self s.ports x _
    have resumes : sent.Resumes x body := by
      refine ⟨running, ?_, ?_, ?_, .inr ?_⟩ <;> rw [port]
      · exact high
      · exact held
      · exact ⟨rfl, rfl⟩
    refine ⟨sent.resume x, ?_, resumes.handsOn frame⟩
    simp only [exec, execCharacterTransmitted, show (s.ports.get x).char = some c from char]
    exact congrArg (fun t : State => Host.Outcome.next (t.resume x)) begun
  case one =>
    intro x kind due i body s starting timer ⟨⟨high, _⟩, empty, still⟩ alone held frame
    have resumes : (s.startedUp kind).Resumes x body := State.startedUp_resumes timer high held empty still
    obtain ⟨without, with_⟩ := exec_startUp_one starting resumes alone
    refine ⟨(s.startedUp kind).unheld x, (s.startedUp kind).resume x, without, with_, ?_⟩
    rw [State.unheld_held resumes.held]
    exact resumes.handsOn frame
  case both =>
    intro kind due i j bodyA bodyB s starting timer idle heldA heldB frameA frameB
    obtain ⟨w, hw⟩ : ∃ w : State, w = { s.startedUp kind with freeDraws := (s.startedUp kind).freeDraws + 1 } := ⟨_, rfl⟩
    have resumes (x : Station) {body : List Byte} (held : (s.ports.get x).heldFrame = some body) : w.Resumes x body := by
      obtain ⟨⟨high, _⟩, empty, still⟩ := idle x
      obtain ⟨h1, h2, h3, h4, h5⟩ := State.startedUp_resumes (kind := kind) timer high held empty still
      rw [hw]
      exact ⟨h1, h2, h3, h4, h5⟩
    have a := resumes .A heldA
    have b := resumes .B heldB
    obtain ⟨without, with_⟩ := exec_startUp_both starting hw a b
    have back {x : Station} {c : Instr} {u : State} (h : w.HandsOn x c u) :
        ((({ ((s.startedUp kind).unheld .A).unheld .B with freeDraws := (s.startedUp kind).freeDraws + 1 } : State).onPort .A
          fun p => { p with heldFrame := some bodyA }).onPort .B fun p => { p with heldFrame := some bodyB }).HandsOn x c u := by
      rw [← State.unheld_held_both a.held b.held, hw] at h
      exact h
    refine ⟨((s.startedUp kind).unheld .A).unheld .B, ?_⟩
    rcases with_ with aFirst | bFirst
    · exact ⟨w.resume .A, _, without, aFirst, .inl ⟨back (a.handsOn frameA), (a.then_peer b).handsOn frameB⟩⟩
    · exact ⟨w.resume .B, _, without, bFirst, .inr ⟨back (b.handsOn frameB), (b.then_peer a).handsOn frameA⟩⟩
  case marks =>
    intro p f taken lossy
    have left : (p.takeMarked f).1 = if f.gap = true then lossy.takeGap else lossy := Port.takeMarked_fst p f
    refine ⟨rfl, fun unmarked => ?_, fun marked => ?_⟩
    · rw [left, unmarked]
      rfl
    · rw [left, if_pos marked, Port.takeGap_eq]
      refine ⟨fun idle => ?_, fun opened => ?_, fun counted => if_pos counted⟩
      · rcases idle with h | h <;> simp [h]
      · simp [opened]

end Machine
end Sys2Proof

/-! PROOFS. The sizes of the ports, the canonical form of the memories and the host's queue (R156, R157, R161): what every step
keeps. -/
namespace Sys2Proof
namespace Machine

/-! ### Properties that do not look inside the part's blocks -/

/-- A property of states that no change outside the ports touches, that a change of one port keeps when it keeps ports within
their sizes, that the assembler's taking of the FIFO's head keeps, and that a reset keeps. -/
structure PortRule (P : State → Prop) : Prop where
  plant : ∀ s (p : Plant), P s → P { s with toPlant := p }
  port : ∀ x (f : Port → Port) s, P s → (∀ p : Port, p.Bounded → (f p).Bounded) → P (s.onPort x f)
  take : ∀ x f rest s, P s → (s.ports.get x).fifo = f :: rest → P (s.onPort x fun p => ((p.popped rest).takeMarked f).1)
  reset : ∀ kind s, P s → P (s.wholeReset kind)

section
variable {P : State → Prop} (K : PortRule P)
include K

theorem PortRule.deliver (posts : List (Station × Notice)) {s : State} (h : P s) : P (s.deliver posts) := by
  unfold State.deliver
  induction posts generalizing s with
  | nil => exact h
  | cons q posts ih => exact ih (K.port q.1 _ s h fun p hp => p.post_bounded q.2 hp)

theorem PortRule.event (f : Work → Work) {s : State} (h : P s) : P (s.event f) :=
  K.deliver _ (K.plant s _ h)

theorem PortRule.placeReply (x : Station) (body : List Byte) {s : State} (h : P s) : P (s.placeReply x body) :=
  K.port x _ s h fun _ hp => { hp with }

theorem PortRule.linkKept : LinkKept P where
  hand x body s h _ := by
    unfold State.handOn
    split
    · exact K.placeReply x _ (K.event _ h)
    · exact K.placeReply x _ h
  port := K.port
  take := K.take

/-- Every command keeps such a property: it resets the part, changes it outside its ports, or is the links' own work. -/
theorem PortRule.exec {c : Instr} {s t : State} (he : exec c s = .next t) (h : P s) : P t := by
  have L := K.linkKept
  cases c <;> simp only [Machine.exec] at he
  case powerOn | resetLine => cases he; exact K.reset _ s h
  case resetEnd =>
    unfold execResetEnd at he
    cases he
    split
    · exact K.plant s _ h
    · exact h
    · exact h
  case startUp =>
    unfold execStartUp at he
    cases he
    split
    · exact State.resumeBoth_kept L (K.event _ h) (K.plant _ _ (K.event _ h))
    · exact h
    · exact h
  case debounceEvent =>
    unfold execDebounceEvent at he
    split at he
    · cases he
    · cases he
      exact K.event _ h
  case staleTimerExpiry =>
    unfold execStaleTimerExpiry at he
    split at he
    · cases he
    · cases he
      exact K.event _ h
  case consentWaitTimerExpiry | deferTimerExpiry | muteTimerExpiry | rampTick | pulseTimeEnd | settleTimeEnd
    | rfPresentEvent | measurementCompletion | verifyTimerExpiry | outOfToleranceHoldExpiry | siteClockTick | minuteTick
    | loadIdleTimerExpiry | imageWriteCompletion | lastStateWriteCompletion | powerReferencePeriodStart =>
    cases he
    exact K.event _ h
  case characterReceived x b stopLow => cases he; exact L.receiveChar x b stopLow s h
  case gapTimerExpiry x =>
    unfold execGapTimerExpiry at he
    cases he
    split
    · exact h
    · exact K.port x _ _ (K.plant s _ h) Port.gapExpired_bounded
  case breakEvent x =>
    unfold execBreak at he
    cases he
    split
    · exact K.port x _ _ (K.event _ h) Port.broken_bounded
    · exact h
  case characterTransmitted x =>
    unfold execCharacterTransmitted at he
    cases he
    split
    · exact h
    · next c _ => exact L.resume x _ (L.transmit x _ (K.port x _ _ (K.plant s _ h) (Port.endChar_bounded c)))
  case frameTransmissionStart x =>
    unfold execFrameTransmissionStart at he
    cases he
    split
    · exact K.port x _ s h (Port.beginFrame_bounded x _)
    · exact h
  case lineReturnHigh x => cases he; exact K.port x _ s h fun _ hp => { hp with }
  all_goals (cases he; exact L.receiveFrame _ _ s h)

end

theorem portsBounded_rule : PortRule State.PortsBounded where
  plant _ _ h := h
  port x f s h hf := s.onPort_portsBounded x f hf h
  take := portsBounded_linkKept.take
  reset _ _ _ x := by cases x <;> exact Port.reset_bounded

theorem pending_rule (queue : List Instr) : PortRule fun s => s.pending = queue where
  plant _ _ h := h
  port _ _ _ h _ := h
  take _ _ _ _ h _ := h
  reset _ _ h := h

/-! ### The memories -/

/-- The canonical form, with the write in progress and those that wait taken together. -/
theorem Plant.canonical_iff (p : Plant) : p.Canonical ↔
    (∀ m, p.image = some m → Memory.wf m = true) ∧ (∀ m, p.foundImage = some m → Memory.wf m = true) ∧
      Memory.wf p.loadBuffer = true ∧ Memory.wf p.imageRecord.bytes = true ∧ ∀ j ∈ p.jobs, j.Canonical := by
  have jobs : (∀ j ∈ p.jobs, j.Canonical) ↔
      (∀ g, p.writing = some g → g.job.Canonical) ∧ ∀ j ∈ p.writeQueue, j.Canonical := by
    unfold Plant.jobs
    cases p.writing <;> simp
  rw [jobs]
  exact ⟨fun ⟨h1, h2, h3, h4, h5, h6⟩ => ⟨h1, h2, h3, h4, h5, h6⟩, fun ⟨h1, h2, h3, h4, h5, h6⟩ => ⟨h1, h2, h3, h4, h5, h6⟩⟩

/-- A last-state write holds no memory. -/
theorem WriteJob.canonical_of_lastState {j : WriteJob} (h : j.isImage = false) : j.Canonical := by
  cases j with
  | image bytes => cases h
  | lastState content => trivial

/-- The Transition Engine changes no memory, and every write it hands to the store is a last-state write. -/
theorem Moves.canonical {v w : Work} (h : Moves v w) (k : v.Canonical) : w.Canonical := by
  rw [Plant.canonical_iff] at k ⊢
  obtain ⟨image, found, buffer, record, jobs⟩ := k
  rw [h.image, h.foundImage, h.loadBuffer, h.imageBytes]
  refine ⟨image, found, buffer, record, fun j hj => ?_⟩
  rcases h.jobs j hj with before | last
  · exact jobs j before
  · exact WriteJob.canonical_of_lastState last

theorem Work.recomputeScan_canonical {w : Work} (h : w.Canonical) : w.recomputeScan.Canonical := by
  unfold Work.recomputeScan
  dsimp only
  split <;> exact { h with }

/-- What a completed image write puts into its record is the memory that it held. -/
theorem Work.completeWrite_canonical {w : Work} (h : w.Canonical) : w.completeWrite.Canonical := by
  unfold Work.completeWrite
  split
  · exact h
  · next g writing =>
    refine (Work.startNextWrite_moves _).canonical ?_
    have held := h.writing g writing
    have none_ : ∀ g : Writing, none = some g → g.job.Canonical := nofun
    split
    · next bytes job =>
      rw [job] at held
      exact { h with imageRecord := held, writing := none_ }
    · exact { h with writing := none_ }

/-- An image committed is queued for the store, and the buffer it came from is empty. -/
theorem Work.storeBuffer_canonical {w : Work} (h : w.Canonical) : w.storeBuffer.Canonical := by
  refine (Work.startNextWrite_moves _).canonical ?_
  refine { h with loadBuffer := rfl, writeQueue := fun j hj => ?_ }
  rcases List.mem_append.1 hj with queued | last
  · exact h.writeQueue j queued
  · rw [List.mem_singleton.1 last]
    exact h.loadBuffer

theorem Plant.cutImageRecord_wf {p : Plant} (h : p.Canonical) : Memory.wf p.cutImageRecord.bytes = true := by
  unfold Plant.cutImageRecord
  split
  · dsimp only
    exact tornBytes_wf _ _ _ h.imageRecord
  · exact h.imageRecord

/-- A primitive change keeps every memory canonical: it writes none, copies one, empties the buffer, or writes a block. -/
theorem Change.canonical {p q : Plant} (h : Change p q) (k : p.Canonical) : q.Canonical := by
  cases h with
  | engine moves => exact moves.canonical k
  | scan w => exact Work.recomputeScan_canonical k
  | written w => exact Work.completeWrite_canonical k
  | storeBuffer w _ => exact Work.storeBuffer_canonical k
  | slot p slot timer => exact { k with loadBuffer := rfl }
  | block p slot a data timer => exact { k with loadBuffer := Memory.writeBlock_wf _ k.loadBuffer a data }
  | activate w m _ source =>
    refine { k with image := fun n hn => ?_ }
    cases hn
    rcases source with rfl | rfl
    · exact k.loadBuffer
    · exact k.imageRecord
  | closeReadbacks w => exact { k with foundImage := nofun }
  | readRecords w kind _ =>
    refine { k with foundImage := fun n hn => ?_ }
    cases hn
    exact k.imageRecord
  | reset s kind =>
    obtain ⟨image, found, buffer, _, writing, queue⟩ := State.reset_canonical
    exact ⟨image, found, buffer, Plant.cutImageRecord_wf k, writing, queue⟩
  | time | draw | station | measurementOver | aux | policies | idleTimer | readback | clock | startUpCause | resetEnd =>
    exact { k with }

/-- Settles O56: the sizes and the queue by the rule of the ports, and the memories by the primitive changes. -/
theorem sizesAndFormsKept : Obligations.SizesAndFormsKept := by
  refine ⟨fun s t bounded he => ?_, fun s t canonical he => ?_, fun c s t he => (pending_rule s.pending).exec he rfl⟩
  · unfold step at he
    split at he
    · cases he
      exact bounded
    · next c rest _ => exact portsBounded_rule.exec (s := { s with pending := rest }) he bounded
  · exact step_kept (P := Plant.Canonical) (fun _ _ change => change.canonical) s t he canonical

end Machine
end Sys2Proof

/-! PROOFS. The frame assembler's table (R157): the check of a frame's sum, and what each of the five states makes of a byte. -/
namespace Sys2Proof
namespace Machine

/-! ### The sum of a frame's bytes (R157, R168) -/

theorem foldl_add_toNat (bs : List Byte) (a : Byte) :
    (bs.foldl (fun a b => a + b) a).toNat = (a.toNat + (bs.map BitVec.toNat).sum) % 256 := by
  induction bs generalizing a with
  | nil =>
    have := a.isLt
    simp only [List.foldl_nil, List.map_nil, List.sum_nil]
    omega
  | cons b bs ih =>
    rw [List.foldl_cons, ih, BitVec.toNat_add, List.map_cons, List.sum_cons]
    omega

theorem byteSum_toNat (bs : List Byte) : (byteSum bs).toNat = (bs.map BitVec.toNat).sum % 256 := by
  rw [byteSum, foldl_add_toNat]
  simp

theorem byteSum_eq_zero_iff (bs : List Byte) : byteSum bs = 0 ↔ (bs.map BitVec.toNat).sum % 256 = 0 := by
  rw [← byteSum_toNat]
  exact ⟨fun h => congrArg BitVec.toNat h, fun h => BitVec.eq_of_toNat_eq h⟩

theorem goodContent_iff (content : List Byte) (damaged : Bool) : goodContent content damaged = true ↔
    2 ≤ content.length ∧ (content.map BitVec.toNat).sum % 256 = 0 ∧ damaged = false := by
  rw [← byteSum_eq_zero_iff]
  simp [goodContent, and_assoc]

/-! ### The states of the assembler (R157) -/

theorem Port.closeFrame_good {p : Port} (good : goodContent p.content p.damaged = true) :
    p.closeFrame = ({ p with assembler := .opened, content := [], damaged := false }, some p.content.dropLast) := if_pos good

theorem Port.closeFrame_bad {p : Port} (bad : ¬goodContent p.content p.damaged = true) :
    p.closeFrame = (p.dropFrame .opened, none) := if_neg bad

theorem Port.takeByte_unframed {p : Port} (h : p.assembler = .hunt ∨ p.assembler = .discard) (b : Byte) :
    p.takeByte b = (if b = 0xE3 then { p with assembler := .opened } else p, none) := by
  unfold Port.takeByte
  rcases h with h | h <;> rw [h] <;> rfl

theorem Port.takeByte_opened {p : Port} (h : p.assembler = .opened) (b : Byte) :
    p.takeByte b = (if b = 0xE3 then p else p.takeContent b, none) := by
  unfold Port.takeByte
  rw [h]
  rfl

theorem Port.takeByte_body {p : Port} (h : p.assembler = .body) (b : Byte) :
    p.takeByte b = if b = 0xE3 then p.closeFrame else (p.takeContent b, none) := by
  unfold Port.takeByte
  rw [h]
  rfl

theorem Port.takeByte_escape {p : Port} (h : p.assembler = .escape) (b : Byte) : p.takeByte b =
    (if b = 0xE3 then p.dropFrame .opened
      else (unescape? b).elim (p.dropFrame .discard) p.addContent, none) := by
  unfold Port.takeByte
  rw [h]
  cases unescape? b <;> rfl

/-- Settles O48: each state's row of the table, and the closing in BODY by what makes a frame good. -/
theorem assemblerTable : Obligations.AssemblerTable := by
  intro p b bad adds good
  have isGood : goodContent p.content p.damaged = true ↔ good := goodContent_iff _ _
  refine ⟨fun h => Port.takeByte_unframed h b, fun h => Port.takeByte_opened h b,
    fun h closes => ⟨fun is => ?_, fun isNot => ?_⟩, fun h goesOn => ?_, fun h => ?_⟩
  · rw [Port.takeByte_body h, if_pos closes, Port.closeFrame_good (isGood.2 is)]
  · rw [Port.takeByte_body h, if_pos closes, Port.closeFrame_bad (mt isGood.1 isNot)]
    rfl
  · rw [Port.takeByte_body h, if_neg goesOn]
    rfl
  · have table : (unescape? b).elim (bad .discard) adds = if b = 0x31 then adds 0xE3 else if b = 0x32 then adds 0xD6
        else if b = 0x33 then adds 0x11 else if b = 0x34 then adds 0x13 else bad .discard := by
      unfold unescape?
      split_ifs <;> rfl
    rw [← table]
    exact Port.takeByte_escape h b

end Machine
end Sys2Proof

/-! PROOFS. The frames of the request commands (R155, R159, R163, R168): what a body is read as, and what becomes of a request's
frame on a link that is not ready for it. -/
namespace Sys2Proof
namespace Machine

/-! ### What a body is read as (R163 steps 1 and 2) -/

theorem byteOf_append (hi lo : Byte) : byteOf ((hi ++ lo).toNat / 256) = hi ∧ byteOf (hi ++ lo).toNat = lo := by
  have value : (hi ++ lo).toNat = hi.toNat * 256 + lo.toNat := by
    rw [BitVec.toNat_append, ← Nat.shiftLeft_add_eq_or_of_lt lo.isLt, Nat.shiftLeft_eq]
  have low := lo.isLt
  have high := hi.isLt
  refine ⟨BitVec.eq_of_toNat_eq ?_, BitVec.eq_of_toNat_eq ?_⟩ <;> rw [byteOf, BitVec.toNat_ofNat, value] <;> omega

/-- The answer to the body of a request kind: the request that it is the body of, or BAD_LENGTH. -/
def ReadsAs (kind : Byte) (fields : List Byte) (answer : Except ReplyCode Request) : Prop :=
  (∃ r : Request, kind :: fields = r.body ∧ answer = .ok r) ∨ answer = .error .badLength

section
variable {kind : Byte} (fields : List Byte)

theorem noOperands_readsAs {r : Request} (body : r.body = [kind]) : ReadsAs kind fields (noOperands r fields) := by
  unfold noOperands
  split
  · exact .inl ⟨r, body.symm, rfl⟩
  · exact .inr rfl

theorem oneOperand_readsAs {r : Byte → Request} (body : ∀ b, (r b).body = [kind, b]) :
    ReadsAs kind fields (oneOperand r fields) := by
  unfold oneOperand
  split
  · next b => exact .inl ⟨r b, (body b).symm, rfl⟩
  · exact .inr rfl

theorem consentOperands_readsAs : ReadsAs 0x03 fields (consentOperands fields) := by
  unfold consentOperands
  split
  · next tag answer => exact .inl ⟨.consentReply tag answer, rfl, rfl⟩
  · exact .inr rfl

theorem clockOperands_readsAs : ReadsAs 0x0A fields (clockOperands fields) := by
  unfold clockOperands
  split
  · next y1 y0 d1 d0 hour minute second =>
    refine .inl ⟨.clockSet (y1 ++ y0) (d1 ++ d0) hour minute second, ?_, rfl⟩
    have year := byteOf_append y1 y0
    have day := byteOf_append d1 d0
    simp [Request.body, Request.kind, Request.fields, wordBytes, bytes16, year, day]
  · exact .inr rfl

theorem blockOperands_readsAs : ReadsAs 0x0D fields (blockOperands fields) := by
  unfold blockOperands
  split
  · next index data => exact .inl ⟨.loadBlock index data, rfl, rfl⟩
  · exact .inr rfl

theorem parseRequest_readsAs (low : 1 ≤ kind.toNat) (high : kind.toNat ≤ 17) :
    ReadsAs kind fields (parseRequest (kind :: fields)) := by
  have is : kind = BitVec.ofNat 8 kind.toNat := BitVec.eq_of_toNat_eq (by simp)
  generalize kind.toNat = n at is low high
  subst is
  interval_cases n
  · exact oneOperand_readsAs _ fun _ => rfl
  · exact noOperands_readsAs _ rfl
  · exact consentOperands_readsAs _
  · exact oneOperand_readsAs _ fun _ => rfl
  · exact oneOperand_readsAs _ fun _ => rfl
  · exact noOperands_readsAs _ rfl
  · exact noOperands_readsAs _ rfl
  · exact noOperands_readsAs _ rfl
  · exact oneOperand_readsAs _ fun _ => rfl
  · exact clockOperands_readsAs _
  · exact noOperands_readsAs _ rfl
  · exact oneOperand_readsAs _ fun _ => rfl
  · exact blockOperands_readsAs _
  · exact noOperands_readsAs _ rfl
  · exact noOperands_readsAs _ rfl
  · exact oneOperand_readsAs _ fun _ => rfl
  · exact oneOperand_readsAs _ fun _ => rfl

theorem parseRequest_unknown (h : kind = 0 ∨ 18 ≤ kind.toNat) : parseRequest (kind :: fields) = .error .unknownKind := by
  have outside : kind.toNat = 0 ∨ 18 ≤ kind.toNat := h.imp_left (congrArg BitVec.toNat)
  unfold parseRequest
  dsimp only
  split
  case h_18 => rfl
  all_goals omega

end

theorem isKind_iff (kind : Byte) : ¬(kind = 0 ∨ 18 ≤ kind.toNat) ↔ 1 ≤ kind.toNat ∧ kind.toNat ≤ 17 := by
  have zero : kind = 0 ↔ kind.toNat = 0 := ⟨congrArg BitVec.toNat, fun h => BitVec.eq_of_toNat_eq h⟩
  rw [zero]
  omega

theorem parseRequest_ok_iff (body : List Byte) (r : Request) : parseRequest body = .ok r ↔ body = r.body := by
  refine ⟨fun read => ?_, fun h => h ▸ parseRequest_body r⟩
  cases body with
  | nil => cases read
  | cons kind fields =>
    by_cases unknown : kind = 0 ∨ 18 ≤ kind.toNat
    · rw [parseRequest_unknown fields unknown] at read
      cases read
    · obtain ⟨low, high⟩ := (isKind_iff kind).1 unknown
      rcases parseRequest_readsAs fields low high with ⟨q, body, ok⟩ | bad
      · rw [ok] at read
        cases read
        exact body
      · rw [bad] at read
        cases read

theorem parseRequest_unknown_iff (kind : Byte) (fields : List Byte) :
    parseRequest (kind :: fields) = .error .unknownKind ↔ kind = 0 ∨ 18 ≤ kind.toNat := by
  refine ⟨fun read => ?_, parseRequest_unknown fields⟩
  by_contra known
  obtain ⟨low, high⟩ := (isKind_iff kind).1 known
  rcases parseRequest_readsAs fields low high with ⟨q, _, ok⟩ | bad
  · rw [ok] at read
    cases read
  · rw [bad] at read
    cases read

/-! ### A request's frame on a link that is not ready for it (R155, R159) -/

theorem State.receiveFrame_unheard {x : Station} {s : State} (unheard : s.hears x = false) (body : List Byte) :
    s.receiveFrame x body = s := if_neg (ne_true_of_eq_false unheard)

theorem State.receiveFrame_free {x : Station} {s : State} (heard : s.hears x = true)
    (free : (s.ports.get x).heldFrame = none) (body : List Byte) :
    s.receiveFrame x body = (s.onPort x Port.frameClosed).completeFrame x body := by
  unfold State.receiveFrame
  rw [if_pos heard, free]

/-- Behind a full slot a frame completed is held. -/
theorem State.completeFrame_full {x : Station} {s : State} (full : s.slotEmpty x = false) (body : List Byte) :
    s.completeFrame x body = s.onPort x fun p => { p with heldFrame := some body } := if_neg (ne_true_of_eq_false full)

theorem State.slotEmpty_eq_false {x : Station} {s : State} (h : s.phase ≠ .running ∨ (s.ports.get x).reply ≠ none) :
    s.slotEmpty x = false := by
  rw [State.slotEmpty, Bool.and_eq_false_iff, beq_eq_false_iff_ne, Option.isNone_eq_false_iff, ← Option.ne_none_iff_isSome]
  exact h

/-- Settles O19: the frame unheard or held by the phase, the line and the slot, and its body read by its kind and length. -/
theorem requestFramesRead : Obligations.RequestFramesRead := by
  refine ⟨fun c x body s frame => ⟨fun deaf => ?_, fun running high free full => ?_⟩, parseRequest_ok_iff,
    parseRequest_unknown_iff, fun kind fields none_ known bound => ?_, fun x kind rest s ready unknown => ?_⟩
  · have unheard : s.hears x = false := by
      rw [← Bool.not_eq_true, State.hears_iff]
      rintro ⟨running, high⟩
      rw [running, high] at deaf
      simp at deaf
    rw [exec_of_frame frame, State.receiveFrame_unheard unheard]
  · rw [exec_of_frame frame, State.receiveFrame_free ((State.hears_iff x s).2 ⟨running, high⟩) free,
      State.completeFrame_full, State.onPort_onPort]
    · rfl
    · rw [State.slotEmpty_onPort rfl]
      exact State.slotEmpty_eq_false full
  · have low : 1 ≤ kind.toNat := Nat.pos_of_ne_zero fun zero => known (BitVec.eq_of_toNat_eq zero)
    exact (parseRequest_readsAs fields low bound).resolve_left fun ⟨r, body, _⟩ => none_ r body
  · rw [exec_of_frame (i := .unknownKind x kind rest) rfl, State.receiveFrame_ready x _ s ready, State.handOn,
      parseRequest_unknown rest unknown]
    exact congrArg Host.Outcome.next (State.onPort_onPort x _ _ s)

end Machine
end Sys2Proof

/-! PROOFS. Characters received on a link (R155 to R160): line errors, flow characters, and the data that join the FIFO or go to
the assembler at once. -/
namespace Sys2Proof
namespace Machine

/-! ### The parts of a reception -/

theorem Port.restartGap_eq (expiry : Nat) (p : Port) :
    p.restartGap expiry = { p with gapTimer := if p.line = .begun then some expiry else p.gapTimer } := by
  unfold Port.restartGap
  split <;> rfl

theorem Port.trackLine_eq (b : Byte) (expiry : Nat) (p : Port) :
    p.trackLine b expiry =
      if b = 0xE3 then { p with line := .delimiter, gapTimer := none }
      else if p.line = .noDelimiter then p else { p with line := .begun, gapTimer := some expiry } := by
  unfold Port.trackLine
  split
  · next closes => exact (if_pos closes).symm
  · next other =>
    rw [if_neg (show ¬b = 0xE3 from other)]
    cases h : p.line <;> simp

/-- Reception of a byte changes the line and the gap timer alone. -/
theorem Port.trackLine_frame (b : Byte) (expiry : Nat) (p : Port) :
    ∃ line gap, p.trackLine b expiry = { p with line := line, gapTimer := gap } := by
  rw [Port.trackLine_eq]
  split_ifs <;> exact ⟨_, _, rfl⟩

theorem Port.takeLoss_eq (p : Port) :
    p.takeLoss = { p with damaged := if p.assembler = .discard then p.damaged else true } := by
  unfold Port.takeLoss
  split <;> rfl

theorem Port.lineError_waiting {p : Port} (waiting : p.fifo ≠ []) :
    p.lineError = { p with fifo := p.fifo.modify (p.fifo.length - 1) fun f => { f with loss := true } } := by
  unfold Port.lineError
  rw [← markLast_eq_modify]
  exact if_neg (by simpa using waiting)

theorem Port.lineError_empty {p : Port} (empty : p.fifo = []) :
    p.lineError = { p with damaged := if p.assembler = .discard then p.damaged else true } := by
  unfold Port.lineError
  rw [← Port.takeLoss_eq]
  exact if_pos (by simp [empty])

/-- A byte that finds room joins the FIFO, and as the 48th queues an XOFF (R156, R160). -/
theorem Port.enqueue_room {p : Port} (room : p.fifo.length < 64) (b : Byte) :
    p.enqueue b =
      if p.fifo.length = 47 ∧ p.flowState = .xon then
        { p with fifo := p.fifo ++ [⟨b, false, false⟩], flowQueued := some .xoff, flowState := .xoffSent }
      else { p with fifo := p.fifo ++ [⟨b, false, false⟩] } := by
  have level : (p.fifo ++ [(⟨b, false, false⟩ : FifoByte)]).length = Config.fifoHigh ↔ p.fifo.length = 47 := by
    simp [Config.fifoHigh]
  unfold Port.enqueue
  rw [if_pos (show p.fifo.length < Config.fifoSize from room)]
  exact if_congr (and_congr_left' level) rfl rfl

/-- A byte at a full FIFO leaves a loss mark on the newest byte (R156). -/
theorem Port.enqueue_full {p : Port} (full : 64 ≤ p.fifo.length) (b : Byte) :
    p.enqueue b = { p with fifo := p.fifo.modify (p.fifo.length - 1) fun f => { f with loss := true } } := by
  unfold Port.enqueue
  rw [if_neg (show ¬p.fifo.length < Config.fifoSize from not_lt.2 full), markLast_eq_modify]

theorem Port.enqueue_heldFrame (b : Byte) (p : Port) : (p.enqueue b).heldFrame = p.heldFrame := by
  rcases Nat.lt_or_ge p.fifo.length 64 with room | full
  · rw [Port.enqueue_room room]
    split <;> rfl
  · rw [Port.enqueue_full full]

/-- The only byte of the FIFO leaves it (R156). -/
theorem Port.popped_last {p : Port} (empty : p.fifo = []) (f : FifoByte) : Port.popped [] { p with fifo := [f] } = p := by
  cases p
  cases empty
  rfl

theorem Port.assembling_takeByte (p : Port) (b : Byte) : (p.takeByte b).1 = p.assembling (p.takeByte b).1 :=
  congrArg Prod.fst (p.takeByte_assembling p b)

/-- A byte completes a frame only as the closing delimiter of a good one (R157). -/
theorem Port.takeByte_done {p : Port} {b : Byte} {body : List Byte} (done : (p.takeByte b).2 = some body) :
    b = 0xE3 ∧ (p.takeByte b).1 = { p with assembler := .opened, content := [], damaged := false } := by
  cases state : p.assembler with
  | hunt => rw [Port.takeByte_unframed (.inl state)] at done; cases done
  | discard => rw [Port.takeByte_unframed (.inr state)] at done; cases done
  | opened => rw [Port.takeByte_opened state] at done; cases done
  | escape => rw [Port.takeByte_escape state] at done; cases done
  | body =>
    rw [Port.takeByte_body state] at done ⊢
    by_cases closes : b = 0xE3
    · rw [if_pos closes] at done ⊢
      by_cases good : goodContent p.content p.damaged = true
      · rw [Port.closeFrame_good good]
        exact ⟨closes, rfl⟩
      · rw [Port.closeFrame_bad good] at done
        cases done
    · rw [if_neg closes] at done
      cases done

/-! ### The transmitter (R160, R161) -/

/-- The transmitter goes on with its character, or has none ready to begin. -/
def Port.Still (p : Port) : Prop := p.char ≠ none ∨ (p.flowQueued = none ∧ (p.running = false ∨ p.frame = none))

theorem Port.Still.transmit {p : Port} (h : p.Still) (due : Nat) : p.transmit due = p := by
  unfold Port.transmit
  split
  · rfl
  · next idle =>
    obtain ⟨queued, rest⟩ := h.resolve_left fun busy => busy idle
    rw [queued]
    rcases rest with stopped | none_
    · rw [stopped]
    · rw [none_]
      cases p.running <;> rfl

theorem Port.transmit_goesOn {p : Port} {b : Byte} {rest : List Byte} {isReply : Bool} (idle : p.char = none)
    (queued : p.flowQueued = none) (running : p.running = true) (frame : p.frame = some ⟨b :: rest, isReply⟩) (due : Nat) :
    p.transmit due =
      { p with frame := some ⟨rest, isReply⟩, char := some ⟨b, isReply && rest.isEmpty, due⟩ } := by
  unfold Port.transmit
  rw [idle, queued, running, frame]
  rfl

theorem Port.transmit_queued {p : Port} {f : FlowChar} (idle : p.char = none) (queued : p.flowQueued = some f) (due : Nat) :
    p.transmit due = { p with flowQueued := none, char := some ⟨f.byte, false, due⟩ } := by
  unfold Port.transmit
  rw [idle, queued]
  rfl

/-- A byte that joins the FIFO with no character ready, and the XOFF that it may queue, which begins at once with no character in
transmission (R160, log entry 19). -/
theorem Port.enqueue_transmit {p : Port} (room : p.fifo.length < 64) (still : p.Still) (b : Byte) (due : Nat) :
    let joined : Port := { p with fifo := p.fifo ++ [⟨b, false, false⟩] }
    let stopped : Port := { joined with flowState := .xoffSent }
    (p.enqueue b).transmit due =
      if p.fifo.length = 47 ∧ p.flowState = .xon then
        (if p.char = none then { stopped with char := some ⟨0x13, false, due⟩ }
        else { stopped with flowQueued := some .xoff })
      else joined := by
  intro joined stopped
  rw [Port.enqueue_room room]
  split_ifs with high idle
  · have begun := Port.transmit_queued (p := { stopped with flowQueued := some .xoff }) idle rfl due
    rwa [← (still.resolve_left fun busy => busy idle).1] at begun
  · exact Port.Still.transmit (p := { stopped with flowQueued := some .xoff }) (.inl idle) due
  · exact Port.Still.transmit (p := joined) still due

theorem State.transmit_still {x : Station} {s : State} (still : (s.ports.get x).Still) : s.transmit x = s :=
  State.onPort_id (still.transmit _)

/-! ### A character received (R155, R156) -/

theorem State.receiveChar_unheard {x : Station} {s : State} (unheard : s.hears x = false) (c : Byte) (low : Bool) :
    s.receiveChar x c low = s := if_neg (ne_true_of_eq_false unheard)

theorem State.hears_eq_false {x : Station} {s : State} (deaf : s.phase.isHeld = true ∨ (s.ports.get x).lineLow = true) :
    s.hears x = false := by
  rw [State.hears, Bool.and_eq_false_iff, Bool.not_eq_false', Bool.not_eq_false']
  exact deaf

section
variable {x : Station} {s : State} (heard : s.hears x = true)
include heard

theorem State.receiveChar_lineError (c : Byte) :
    s.receiveChar x c true = s.onPort x fun p => (p.restartGap s.gapEnd).lineError := if_pos heard

theorem State.receiveChar_flow {c : Byte} {f : FlowChar} (flow : flowChar? c = some f) :
    s.receiveChar x c false =
      s.onPort x fun p => Port.transmit s.charEnd { p.restartGap s.gapEnd with running := f == .xon } := by
  have taken : s.receiveChar x c false = s.takeFlow x f := by
    unfold State.receiveChar
    rw [if_pos heard, flow]
    rfl
  exact taken.trans (State.onPort_onPort x _ _ s)

theorem State.receiveChar_data {c : Byte} (data : flowChar? c = none) : s.receiveChar x c false = s.takeData x c := by
  unfold State.receiveChar
  rw [if_pos heard, data]
  rfl

end

theorem flowChar?_eq_none {c : Byte} : flowChar? c = none ↔ c ≠ 0x11 ∧ c ≠ 0x13 := by
  unfold flowChar?
  split_ifs <;> simp_all

/-- A data character behind a held frame joins the FIFO (R156, R159). -/
theorem State.takeData_held {x : Station} {s : State} (held : (s.ports.get x).heldFrame ≠ none) (b : Byte) :
    s.takeData x b = s.onPort x fun p => ((p.trackLine b s.gapEnd).enqueue b).transmit s.charEnd := by
  have waits : ((s.onPort x fun p => (p.trackLine b s.gapEnd).enqueue b).ports.get x).heldFrame ≠ none := by
    obtain ⟨line, gap, tracked⟩ := (s.ports.get x).trackLine_frame b s.gapEnd
    rw [State.onPort_ports, Pair.get_set_self, Port.enqueue_heldFrame, tracked]
    exact held
  unfold State.takeData State.drainAll State.transmit
  rw [State.drain_stops _ (.inl waits), State.onPort_onPort]
  rfl

/-- What a byte leaves to do leaves the transmitter as it stood. -/
theorem State.afterTake_still {x : Station} {s : State} (still : (s.ports.get x).Still) (done : Option (List Byte)) :
    ((s.afterTake x done).ports.get x).Still := by
  cases done with
  | none => exact still
  | some body =>
    unfold State.afterTake State.completeFrame
    dsimp only
    split
    · obtain ⟨_, _, _, port⟩ := s.handOn_port x body
      rw [port]
      exact still
    · rw [State.onPort_ports, Pair.get_set_self]
      exact still

/-- The assembler takes the FIFO's head (R156). -/
theorem State.drain_cons {x : Station} {s : State} {f : FifoByte} {rest : List FifoByte} (n : Nat)
    (free : (s.ports.get x).heldFrame = none) (fifo : (s.ports.get x).fifo = f :: rest) :
    s.drain x (n + 1) = State.drain x n
      ((s.onPort x fun p => ((p.popped rest).takeMarked f).1).afterTake x (((s.ports.get x).popped rest).takeMarked f).2) := by
  rw [State.drain]
  simp only [free, fifo]
  rfl

/-- Link `x` hears its line, and its assembler takes each byte as it comes, with no character of the transmitter's ready. -/
structure State.Receives (x : Station) (s : State) : Prop where
  heard : s.hears x = true
  free : (s.ports.get x).heldFrame = none
  empty : (s.ports.get x).fifo = []
  still : (s.ports.get x).Still

section
variable {x : Station} {s : State} (h : s.Receives x)
include h

/-- The assembler takes a data character at once, and what it then leaves to do is done. -/
theorem State.Receives.receiveChar {c : Byte} (data : flowChar? c = none) :
    s.receiveChar x c false =
      (s.onPort x fun p => ((p.trackLine c s.gapEnd).takeByte c).1).afterTake x
        (((s.ports.get x).trackLine c s.gapEnd).takeByte c).2 := by
  obtain ⟨line, gap, tracked⟩ := (s.ports.get x).trackLine_frame c s.gapEnd
  obtain ⟨q, hq⟩ : ∃ q, q = (s.ports.get x).trackLine c s.gapEnd := ⟨_, rfl⟩
  have empty : q.fifo = [] := by rw [hq, tracked]; exact h.empty
  have free : q.heldFrame = none := by rw [hq, tracked]; exact h.free
  have still : (q.takeByte c).1.Still := by
    rw [Port.assembling_takeByte, hq, tracked]
    exact h.still
  have joined : s.onPort x (fun p => (p.trackLine c s.gapEnd).enqueue c) =
      s.onPort x fun _ => { q with fifo := [⟨c, false, false⟩] } := by
    refine State.onPort_congr ?_
    rw [← hq, Port.enqueue_room (by simp [empty]), empty]
    simp
  have drained : State.drainAll x (s.onPort x fun _ => { q with fifo := [⟨c, false, false⟩] }) =
      (s.onPort x fun _ => (q.takeByte c).1).afterTake x (q.takeByte c).2 := by
    have port : (s.onPort x fun _ => { q with fifo := [⟨c, false, false⟩] }).ports.get x =
        { q with fifo := [⟨c, false, false⟩] } := Pair.get_set_self _ _ _
    rw [State.drainAll, port, List.length_singleton,
      State.drain_cons 0 ((congrArg Port.heldFrame port).trans free) (congrArg Port.fifo port), port, State.onPort_onPort]
    simp only [Port.popped_last empty]
    rfl
  rw [State.receiveChar_data h.heard data, State.takeData, joined, drained, State.transmit_still]
  · rw [hq]
    rfl
  · refine State.afterTake_still ?_ _
    rw [State.onPort_ports, Pair.get_set_self]
    exact still

/-- A character that completes no frame leaves what the assembler made of it. -/
theorem State.Receives.receiveChar_goesOn {c : Byte} (data : flowChar? c = none)
    (goesOn : (((s.ports.get x).trackLine c s.gapEnd).takeByte c).2 = none) :
    s.receiveChar x c false = s.onPort x fun p => ((p.trackLine c s.gapEnd).takeByte c).1 := by
  rw [h.receiveChar data, goesOn]
  rfl

/-- The character that completes a good frame is the reception of that frame. -/
theorem State.Receives.receiveChar_completes {c : Byte} {body : List Byte} (data : flowChar? c = none)
    (done : (((s.ports.get x).trackLine c s.gapEnd).takeByte c).2 = some body) :
    s.receiveChar x c false = s.receiveFrame x body := by
  obtain ⟨closes, left⟩ := Port.takeByte_done done
  subst closes
  have port : (((s.ports.get x).trackLine 0xE3 s.gapEnd).takeByte 0xE3).1 = (s.ports.get x).frameClosed := left
  rw [h.receiveChar data, done, State.receiveFrame_free h.heard h.free]
  exact congrArg (State.completeFrame x body) (State.onPort_congr port)

end

/-- Settles O49: a line error, a flow character, or data, which join the FIFO behind a held frame and else go to the
assembler. -/
theorem charactersReceived : Obligations.CharactersReceived := by
  intro x c s p expiry restart markNewest
  have taken (low : Bool) {t : State} (h : s.receiveChar x c low = t) : exec (.characterReceived x c low) s = .next t :=
    congrArg Host.Outcome.next h
  refine ⟨fun deaf low => taken low (State.receiveChar_unheard (State.hears_eq_false deaf) c low), fun running high => ?_⟩
  have heard : s.hears x = true := (State.hears_iff x s).2 ⟨running, high⟩
  have restarted : p.restartGap expiry = restart p := rfl
  have flow {f : FlowChar} {q : Port} (is : flowChar? c = some f)
      (left : Port.transmit s.charEnd { restart p with running := f == .xon } = q) :
      exec (.characterReceived x c false) s = .next (s.onPort x fun _ => q) :=
    taken false ((State.receiveChar_flow heard is).trans (State.onPort_congr left))
  refine ⟨fun waiting => ?_, fun empty => ?_, fun xoff ready => ?_, fun xon ready => ?_,
    fun b rest isReply xon idle queued frame => ?_, fun notXon notXoff still => ?_⟩
  · refine taken true ((State.receiveChar_lineError heard c).trans (State.onPort_congr (Port.lineError_waiting ?_)))
    rw [Port.restartGap_eq]
    exact waiting
  · have left : (p.restartGap expiry).lineError =
        { p.restartGap expiry with damaged := if p.assembler = .discard then p.damaged else true } := by
      rw [Port.restartGap_eq]
      exact Port.lineError_empty empty
    exact taken true ((State.receiveChar_lineError heard c).trans (State.onPort_congr left))
  · refine flow (f := .xoff) (by rw [xoff]; rfl) (Port.Still.transmit ?_ _)
    rw [← restarted, Port.restartGap_eq]
    exact ready.imp_right fun queued => ⟨queued, .inl rfl⟩
  · refine flow (f := .xon) (by rw [xon]; rfl) (Port.Still.transmit ?_ _)
    rw [← restarted, Port.restartGap_eq]
    exact ready.imp_right fun ⟨queued, none_⟩ => ⟨queued, .inr none_⟩
  · have left := Port.transmit_goesOn (p := { restart p with running := true }) (b := b) (rest := rest) (isReply := isReply)
      (by rw [← restarted, Port.restartGap_eq]; exact idle) (by rw [← restarted, Port.restartGap_eq]; exact queued) rfl
      (by rw [← restarted, Port.restartGap_eq]; exact frame) s.charEnd
    exact flow (f := .xon) (by rw [xon]; rfl) left
  · intro tracked
    have data : flowChar? c = none := flowChar?_eq_none.2 ⟨notXon, notXoff⟩
    have line : p.trackLine c expiry = tracked := Port.trackLine_eq c expiry p
    obtain ⟨state, gap, eq⟩ := p.trackLine_frame c expiry
    rw [line] at eq
    have joins {q : Port} (held : p.heldFrame ≠ none) (left : (tracked.enqueue c).transmit s.charEnd = q) :
        exec (.characterReceived x c false) s = .next (s.onPort x fun _ => q) := by
      refine taken false ((State.receiveChar_data heard data).trans
        ((State.takeData_held held c).trans (State.onPort_congr ?_)))
      rw [← left, ← line]
      rfl
    have receives (free : p.heldFrame = none) (empty : p.fifo = []) : s.Receives x := ⟨heard, free, empty, still⟩
    refine ⟨fun held room => ?_, fun held full => ?_, fun free empty goesOn => ?_, fun i body free empty done frame => ?_⟩
    · have left := Port.enqueue_transmit (p := tracked) (by rw [eq]; exact room) (by rw [eq]; exact still) c s.charEnd
      refine joins held (left.trans ?_)
      rw [eq]
      rfl
    · refine joins held ?_
      rw [Port.enqueue_full (by rw [eq]; exact full), Port.Still.transmit]
      rw [eq]
      exact still
    · refine taken false (((receives free empty).receiveChar_goesOn data ?_).trans (State.onPort_congr ?_))
      · rw [← line] at goesOn
        exact goesOn
      · rw [← line]
        rfl
    · rw [exec_of_frame frame]
      refine taken false ((receives free empty).receiveChar_completes data ?_)
      rw [← line] at done
      exact done

end Machine
end Sys2Proof

/-! PROOFS. A request's frame received character by character (R156 to R159, R168): each byte of its body and check byte, escaped
or not, joins the content, and the closing delimiter is the reception of the frame. -/
namespace Sys2Proof
namespace Machine

/-! ### Escapes and the check byte (R157, R168) -/

/-- A byte is sent behind an escape, as the character that stands for it, or as it is. -/
theorem escapeByte_cases (b : Byte) :
    (∃ v, escapeByte b = [0xD6, v] ∧ unescape? v = some b ∧ flowChar? v = none ∧ v ≠ 0xE3) ∨
      (escapeByte b = [b] ∧ flowChar? b = none ∧ b ≠ 0xE3 ∧ b ≠ 0xD6) := by
  unfold escapeByte
  split_ifs with h1 h2 h3 h4
  · exact .inl ⟨0x31, rfl, h1 ▸ rfl, rfl, by decide⟩
  · exact .inl ⟨0x32, rfl, h2 ▸ rfl, rfl, by decide⟩
  · exact .inl ⟨0x33, rfl, h3 ▸ rfl, rfl, by decide⟩
  · exact .inl ⟨0x34, rfl, h4 ▸ rfl, rfl, by decide⟩
  · exact .inr ⟨rfl, flowChar?_eq_none.2 ⟨h3, h4⟩, h1, h2⟩

/-- A body with its check byte is good content. -/
theorem goodContent_checked {body : List Byte} (some_ : 1 ≤ body.length) :
    goodContent (body ++ [checkByte body]) false = true := by
  have sum : byteSum (body ++ [checkByte body]) = byteSum body + -byteSum body := by simp [byteSum, checkByte]
  rw [add_neg_cancel] at sum
  simp [goodContent, sum, some_]

/-! ### A frame in assembly (R157, R158) -/

/-- The port with some content of a frame received, its gap timer's expiry being `expiry`: OPEN behind the delimiter alone, and
else in BODY. -/
def Port.receiving (expiry : Nat) (content : List Byte) (p : Port) : Port :=
  { p with
    assembler := if content = [] then .opened else .body
    content := content
    damaged := false
    line := if content = [] then .delimiter else .begun
    gapTimer := if content = [] then none else some expiry }

/-- The port with an escape received behind some content. -/
def Port.escaping (expiry : Nat) (content : List Byte) (p : Port) : Port :=
  { p with assembler := .escape, content := content, damaged := false, line := .begun, gapTimer := some expiry }

section
variable (expiry : Nat) (content : List Byte) (p : Port)

theorem Port.receiving_trackLine {c : Byte} (goesOn : c ≠ 0xE3) :
    (p.receiving expiry content).trackLine c expiry =
      { p.receiving expiry content with line := .begun, gapTimer := some expiry } := by
  rw [Port.trackLine_eq, if_neg goesOn, if_neg]
  unfold Port.receiving
  dsimp only
  split <;> simp

theorem Port.receiving_takeByte {c : Byte} (goesOn : c ≠ 0xE3) :
    ((p.receiving expiry content).trackLine c expiry).takeByte c =
      (({ p.receiving expiry content with line := .begun, gapTimer := some expiry } : Port).takeContent c, none) := by
  rw [Port.receiving_trackLine _ _ _ goesOn]
  by_cases first : content = []
  · rw [Port.takeByte_opened (show _ = AssemblerState.opened from if_pos first), if_neg goesOn]
  · rw [Port.takeByte_body (show _ = AssemblerState.body from if_neg first), if_neg goesOn]

/-- The opening delimiter, with no frame in assembly. -/
theorem Port.receiving_opens {p : Port} (assembler : p.assembler = .hunt ∨ p.assembler = .opened) (empty : p.content = [])
    (sound : p.damaged = false) : (p.trackLine 0xE3 expiry).takeByte 0xE3 = (p.receiving expiry [], none) := by
  rw [Port.trackLine_eq, if_pos rfl]
  rcases assembler with hunt | opened
  · rw [Port.takeByte_unframed (p := { p with line := .delimiter, gapTimer := none }) (.inl hunt), if_pos rfl]
    simp [Port.receiving, empty, sound]
  · rw [Port.takeByte_opened (p := { p with line := .delimiter, gapTimer := none }) opened, if_pos rfl]
    simp [Port.receiving, empty, sound, opened]

/-- The closing delimiter behind good content. -/
theorem Port.receiving_closes {body : List Byte} {check : Byte} (good : goodContent (body ++ [check]) false = true) :
    (((p.receiving expiry (body ++ [check])).trackLine 0xE3 expiry).takeByte 0xE3).2 = some body := by
  have some_ : body ++ [check] ≠ [] := by simp
  rw [Port.trackLine_eq, if_pos rfl, Port.takeByte_body (show _ = AssemblerState.body from if_neg some_), if_pos rfl,
    Port.closeFrame_good good]
  exact congrArg some List.dropLast_concat

/-- An escape in OPEN or BODY. -/
theorem Port.receiving_escape : ((p.receiving expiry content).trackLine 0xD6 expiry).takeByte 0xD6 =
    (p.escaping expiry content, none) := Port.receiving_takeByte expiry content p (by decide)

variable {content} (room : content.length < 161) {b : Byte}
include room

/-- A content byte, with room for it. -/
theorem Port.addContent_receiving (q : Port) (content_eq : q.content = content) (damaged : q.damaged = false)
    (line : q.line = .begun) (timer : q.gapTimer = some expiry) : q.addContent b = q.receiving expiry (content ++ [b]) := by
  unfold Port.addContent
  rw [if_pos (show q.content.length < Config.contentMax from content_eq ▸ room), content_eq]
  unfold Port.receiving
  simp [damaged, line, timer]

/-- A content byte that needs no escape, in OPEN or BODY. -/
theorem Port.receiving_content (goesOn : b ≠ 0xE3) (plain : b ≠ 0xD6) :
    ((p.receiving expiry content).trackLine b expiry).takeByte b = (p.receiving expiry (content ++ [b]), none) := by
  rw [Port.receiving_takeByte _ _ _ goesOn, Port.takeContent, if_neg (show ¬b = escapeMark from plain),
    Port.addContent_receiving expiry room _ rfl rfl rfl rfl]
  rfl

/-- The character behind an escape. -/
theorem Port.escaping_content {v : Byte} (stands : unescape? v = some b) (goesOn : v ≠ 0xE3) :
    ((p.escaping expiry content).trackLine v expiry).takeByte v = (p.receiving expiry (content ++ [b]), none) := by
  have line : (p.escaping expiry content).trackLine v expiry = p.escaping expiry content := by
    rw [Port.trackLine_eq, if_neg goesOn]
    rfl
  rw [line, Port.takeByte_escape rfl, if_neg goesOn, stands, Option.elim_some,
    Port.addContent_receiving expiry room _ rfl rfl rfl rfl]
  rfl

end

/-! ### The characters of a frame (R156, R168) -/

section
variable {x : Station} {s : State} (h : s.Receives x)
include h

/-- A port changed in its assembler and its line alone takes each byte as it comes still. -/
theorem State.Receives.onPort {f : Port → Port}
    (same : ∃ assembler content damaged line gap, f (s.ports.get x) = { s.ports.get x with
      assembler := assembler, content := content, damaged := damaged, line := line, gapTimer := gap }) :
    (s.onPort x f).Receives x := by
  obtain ⟨_, _, _, _, _, eq⟩ := same
  obtain ⟨heard, free, empty, still⟩ := h
  have port : (s.onPort x f).ports.get x = _ := (Pair.get_set_self _ _ _).trans eq
  obtain ⟨running, high⟩ := (State.hears_iff x s).1 heard
  refine ⟨(State.hears_iff x _).2 ⟨running, ?_⟩, ?_, ?_, ?_⟩ <;> rw [port]
  · exact high
  · exact free
  · exact empty
  · exact still

/-- One character, on a port with a frame in assembly. -/
theorem State.Receives.receiveChar_onPort {f g : Port → Port} {c : Byte} (data : flowChar? c = none)
    (same : ∃ assembler content damaged line gap, f (s.ports.get x) = { s.ports.get x with
      assembler := assembler, content := content, damaged := damaged, line := line, gapTimer := gap })
    (left : ((f (s.ports.get x)).trackLine c s.gapEnd).takeByte c = (g (s.ports.get x), none)) :
    (s.onPort x f).receiveChar x c false = s.onPort x g := by
  have port : (s.onPort x f).ports.get x = f (s.ports.get x) := Pair.get_set_self _ _ _
  rw [(h.onPort same).receiveChar_goesOn data, State.onPort_onPort]
  · exact State.onPort_congr (congrArg Prod.fst left)
  · rw [port]
    exact congrArg Prod.snd left

/-- The characters of one byte of the body or of the check byte. -/
theorem State.Receives.receive_byte {content : List Byte} (room : content.length < 161) (b : Byte) :
    (escapeByte b).foldl (fun s c => s.receiveChar x c false) (s.onPort x (Port.receiving s.gapEnd content)) =
      s.onPort x (Port.receiving s.gapEnd (content ++ [b])) := by
  rcases escapeByte_cases b with ⟨v, chars, stands, data, goesOn⟩ | ⟨chars, data, goesOn, plain⟩
  · rw [chars, List.foldl_cons, List.foldl_cons, List.foldl_nil,
      h.receiveChar_onPort rfl ⟨_, _, _, _, _, rfl⟩ (Port.receiving_escape s.gapEnd content (s.ports.get x)),
      h.receiveChar_onPort data ⟨_, _, _, _, _, rfl⟩ (Port.escaping_content s.gapEnd (s.ports.get x) room stands goesOn)]
  · rw [chars, List.foldl_cons, List.foldl_nil,
      h.receiveChar_onPort data ⟨_, _, _, _, _, rfl⟩ (Port.receiving_content s.gapEnd (s.ports.get x) room goesOn plain)]

/-- The characters of the body and the check byte. -/
theorem State.Receives.receive_bytes {bytes content : List Byte} (room : content.length + bytes.length ≤ 161) :
    (bytes.flatMap escapeByte).foldl (fun s c => s.receiveChar x c false)
        (s.onPort x (Port.receiving s.gapEnd content)) =
      s.onPort x (Port.receiving s.gapEnd (content ++ bytes)) := by
  induction bytes generalizing content with
  | nil => rw [List.append_nil]; rfl
  | cons b bytes ih =>
    rw [List.length_cons] at room
    rw [List.flatMap_cons, List.foldl_append, h.receive_byte (by omega), ih (by simp; omega), List.append_assoc]
    rfl

/-- The characters of a frame, behind nothing of another, are the reception of that frame. -/
theorem State.Receives.receive_frame {body : List Byte} (fits : 1 ≤ body.length ∧ body.length ≤ 160)
    (assembler : (s.ports.get x).assembler = .hunt ∨ (s.ports.get x).assembler = .opened)
    (content : (s.ports.get x).content = []) (damaged : (s.ports.get x).damaged = false) :
    (frameBytes body).foldl (fun s c => s.receiveChar x c false) s = s.receiveFrame x body := by
  obtain ⟨some_, bound⟩ := fits
  have opening : s.receiveChar x 0xE3 false = s.onPort x (Port.receiving s.gapEnd []) := by
    have opens := Port.receiving_opens s.gapEnd assembler content damaged
    rw [h.receiveChar_goesOn rfl (congrArg Prod.snd opens)]
    exact State.onPort_congr (congrArg Prod.fst opens)
  have closing : (s.onPort x (Port.receiving s.gapEnd (body ++ [checkByte body]))).receiveChar x 0xE3 false =
      s.receiveFrame x body := by
    have begun : (s.onPort x (Port.receiving s.gapEnd (body ++ [checkByte body]))).Receives x :=
      h.onPort ⟨_, _, _, _, _, rfl⟩
    have port : (s.onPort x (Port.receiving s.gapEnd (body ++ [checkByte body]))).ports.get x = _ := Pair.get_set_self _ _ _
    rw [begun.receiveChar_completes rfl (by rw [port]; exact Port.receiving_closes _ _ (goodContent_checked some_)),
      State.receiveFrame_free begun.heard begun.free, State.receiveFrame_free h.heard h.free, State.onPort_onPort]
    rfl
  rw [frameBytes, List.foldl_cons, opening, List.foldl_append,
    h.receive_bytes (by simp only [List.length_nil, List.length_append, List.length_singleton]; omega),
    List.nil_append, List.foldl_cons, List.foldl_nil, closing]

end

/-- A well-formed request command stands for a frame that the assembler can take whole. -/
theorem Instr.frame_fits {c : Instr} {x : Station} {body : List Byte} (formed : c.wellFormed = true)
    (frame : c.frame? = some (x, body)) : 1 ≤ body.length ∧ body.length ≤ 160 := by
  cases c
  case loadBlock link index data => exact Laws.FitsFrame.loadBlock link index data formed x body frame
  case unknownKind link kind rest => exact Laws.FitsFrame.unknownKind link kind rest formed x body frame
  all_goals cases frame
  all_goals exact ⟨Nat.le_of_ble_eq_true rfl, Nat.le_of_ble_eq_true rfl⟩

/-- Settles O20: the frame's characters are received as the frame is, and the command is that reception. -/
theorem frameRoundTrip : Obligations.FrameRoundTrip := by
  intro c x body s formed frame running ⟨high, empty, free, assembler, content, damaged, still⟩
  have h : s.Receives x := ⟨(State.hears_iff x s).2 ⟨running, high⟩, free, empty, still⟩
  rw [exec_of_frame frame, h.receive_frame (Instr.frame_fits formed frame) assembler content damaged]

end Machine
end Sys2Proof

/-! PROOFS. Frames transmitted (R159 to R161, R167, R168): the frame that begins, what the end of a character brings, and the
bytes of the notices. -/
namespace Sys2Proof
namespace Machine

/-! ### A frame begins (R161) -/

theorem Port.canBegin_iff (p : Port) :
    p.canBegin = true ↔ p.running = true ∧ p.frame = none ∧ p.flowQueued = none ∧ p.char = none := by
  simp [Port.canBegin, and_assoc]

/-- A frame's opening delimiter is sent at once, the rest being in transmission. -/
theorem Port.transmit_opens {p : Port} (ready : p.canBegin = true) (body : List Byte) (isReply : Bool) (due : Nat) :
    Port.transmit due { p with frame := some ⟨frameBytes body, isReply⟩ } =
      { p with frame := some ⟨(frameBytes body).tail, isReply⟩, char := some ⟨0xE3, false, due⟩ } := by
  obtain ⟨running, _, queued, idle⟩ := (Port.canBegin_iff p).1 ready
  have more : (isReply && (frameBytes body).tail.isEmpty) = false := by simp [frameBytes]
  rw [← more]
  exact Port.transmit_goesOn (p := { p with frame := some ⟨frameBytes body, isReply⟩ }) (rest := (frameBytes body).tail)
    idle queued running rfl due

section
variable {p : Port} (ready : p.canBegin = true) (x : Station) (due : Nat)
include ready

theorem Port.beginFrame_reply {body : List Byte} (reply : p.reply = some body) : p.beginFrame x due =
    { p with frame := some ⟨(frameBytes body).tail, true⟩, char := some ⟨0xE3, false, due⟩ } := by
  cases p
  cases reply
  exact Port.transmit_opens ready body true due

theorem Port.beginFrame_notice {n : Notice} {rest : List Notice} (empty : p.reply = none) (notices : p.notices = n :: rest) :
    p.beginFrame x due =
      { p with
        notices := rest
        lost := 0
        frame := some ⟨(frameBytes (noticeBody n p.lost x)).tail, false⟩
        char := some ⟨0xE3, false, due⟩ } := by
  unfold Port.beginFrame
  split
  · next full => cases full.symm.trans empty
  · next m more _ is =>
    obtain ⟨rfl, rfl⟩ := List.cons.inj (is.symm.trans notices)
    exact Port.transmit_opens (p := { p with notices := more, lost := 0 }) ready (noticeBody m p.lost x) false due
  · next is => cases is.symm.trans notices

end

theorem Port.beginFrame_nothing {p : Port} (empty : p.reply = none) (notices : p.notices = []) (x : Station) (due : Nat) :
    p.beginFrame x due = p := by
  unfold Port.beginFrame
  rw [empty, notices]

theorem exec_frameTransmissionStart_ready {x : Station} {s : State} (running : s.phase.isHeld = false)
    (ready : (s.ports.get x).canBegin = true) :
    exec (.frameTransmissionStart x) s = .next (s.onPort x (Port.beginFrame x s.charEnd)) := by
  refine congrArg Host.Outcome.next (if_pos ?_)
  rw [running, ready]
  rfl

theorem exec_frameTransmissionStart_unready {x : Station} {s : State}
    (unready : ¬(s.phase.isHeld = false ∧ (s.ports.get x).canBegin = true)) :
    exec (.frameTransmissionStart x) s = .next s := by
  refine congrArg Host.Outcome.next (if_neg ?_)
  simpa using unready

/-! ### A character ends (R159, R161) -/

/-- The end of a character clears it, and a frame sent whole, and the slot when it was a reply's closing delimiter. -/
theorem Port.endChar_eq (c : TxChar) (p : Port) : p.endChar c =
    { p with
      char := none
      reply := if c.closesReply = true then none else p.reply
      frame := p.frame.filter fun f => !f.rest.isEmpty } := by
  unfold Port.endChar Port.endFrame
  rcases p.frame with _ | ⟨_ | _, _⟩ <;> cases c.closesReply <;> simp [Option.filter]

/-- What an idle transmitter sends touches the transmitter's own fields alone. -/
theorem Port.transmit_frame (due : Nat) (p : Port) :
    ∃ queued frame char, p.transmit due = { p with flowQueued := queued, frame := frame, char := char } := by
  unfold Port.transmit
  split
  · exact ⟨_, _, _, rfl⟩
  · split
    · exact ⟨_, _, _, rfl⟩
    · split <;> exact ⟨_, _, _, rfl⟩

theorem State.resume_waits {x : Station} {s : State} (waits : (s.ports.get x).heldFrame = none ∨ s.slotEmpty x = false) :
    s.resume x = s := by
  unfold State.resume
  split
  · next held =>
    rw [if_neg]
    exact ne_true_of_eq_false (waits.resolve_left fun free => Option.some_ne_none _ (held.symm.trans free))
  · rfl

theorem exec_characterTransmitted_none {x : Station} {s : State} (idle : (s.ports.get x).char = none) :
    exec (.characterTransmitted x) s = .next s := by
  simp only [exec, execCharacterTransmitted, idle]

/-- The end of a character with no held frame to be handed on changes the transmitter and, maybe, the slot. -/
theorem exec_characterTransmitted_waits {x : Station} {s : State} {c : TxChar} (char : (s.ports.get x).char = some c)
    (waits : (s.ports.get x).heldFrame = none ∨ s.phase ≠ .running ∨
      ((s.ports.get x).reply ≠ none ∧ c.closesReply = false)) :
    exec (.characterTransmitted x) s = .next (({ s with elapsed := max s.elapsed c.due } : State).onPort x fun p =>
      (p.endChar c).transmit (max s.elapsed c.due + s.rate.charTime)) := by
  obtain ⟨u, hu⟩ : ∃ u : State, u = (({ s with elapsed := max s.elapsed c.due } : State).onPort x fun p =>
      (p.endChar c).transmit (max s.elapsed c.due + s.rate.charTime)) := ⟨_, rfl⟩
  have port : u.ports.get x =
      ((s.ports.get x).endChar c).transmit (max s.elapsed c.due + s.rate.charTime) := hu ▸ Pair.get_set_self _ _ _
  obtain ⟨_, _, _, sent⟩ := Port.transmit_frame (max s.elapsed c.due + s.rate.charTime) ((s.ports.get x).endChar c)
  rw [sent, Port.endChar_eq] at port
  have left : exec (.characterTransmitted x) s = .next (u.resume x) := by
    simp only [exec, execCharacterTransmitted, char, State.charSent, State.transmit, State.onPort_onPort]
    rw [hu]
    rfl
  rw [left, State.resume_waits, hu]
  rcases waits with free | stopped | ⟨full, opens⟩
  · exact .inl (port ▸ free)
  · refine .inr (State.slotEmpty_eq_false (.inl ?_))
    rw [hu]
    exact stopped
  · refine .inr (State.slotEmpty_eq_false (.inr ?_))
    rw [port]
    simpa [opens] using full

/-! ### The bytes of a frame and of a notice (R167, R168) -/

theorem checkByte_eq (body : List Byte) : checkByte body = byteOf (256 - (body.map BitVec.toNat).sum % 256) := by
  refine BitVec.eq_of_toNat_eq ?_
  rw [checkByte, BitVec.toNat_neg, byteSum_toNat, byteOf, BitVec.toNat_ofNat]

theorem toList_of_five {α : Type} (v : Vector α 5) : v.toList = [v[0], v[1], v[2], v[3], v[4]] := by
  refine List.ext_getElem (by simp) fun i h _ => ?_
  rw [Vector.length_toList] at h
  interval_cases i <;> rfl

theorem statusBytes_eq (v : Vector Status 5) : statusBytes v =
    [statusCode v[0], statusCode v[1], statusCode v[2], statusCode v[3], statusCode v[4]] := by
  rw [statusBytes, toList_of_five]
  rfl

theorem flagBits_eq (v : Vector Bool 5) : flagBits v =
    flagByte v[0] + 2 * flagByte v[1] + 4 * flagByte v[2] + 8 * flagByte v[3] + 16 * flagByte v[4] := by
  rw [flagBits, toList_of_five]
  generalize v[0] = a, v[1] = b, v[2] = c, v[3] = d, v[4] = e
  revert a b c d e
  decide

/-- Settles O51: the frame that begins by the slot and the queue, the end of a character by what is ready, and the bytes of a
frame and of each notice. -/
theorem framesTransmitted : Obligations.FramesTransmitted := by
  refine ⟨?sent, ?frame, ?notices⟩
  case sent =>
    intro x s p idle start contents
    have ready (h : idle) : p.canBegin = true := (Port.canBegin_iff p).2 h.2
    have begins (h : idle) {f : Port → Port} (left : p.beginFrame x start = f p) :
        exec (.frameTransmissionStart x) s = .next (s.onPort x f) :=
      (exec_frameTransmissionStart_ready h.1 (ready h)).trans (congrArg Host.Outcome.next (State.onPort_congr left))
    refine ⟨fun h body reply => begins h (Port.beginFrame_reply (ready h) x start reply),
      fun h empty n rest notices => begins h (Port.beginFrame_notice (ready h) x start empty notices),
      fun h empty notices => ?_, fun busy => ?_, exec_characterTransmitted_none, ?_⟩
    · refine (begins h (f := id) (Port.beginFrame_nothing empty notices x start)).trans ?_
      exact congrArg Host.Outcome.next (State.onPort_id rfl)
    · exact exec_frameTransmissionStart_unready fun ⟨running, ready⟩ => busy ⟨running, (Port.canBegin_iff p).1 ready⟩
    · intro c char waits now s1 finish sent
      have ended : p.endChar c = sent p := by
        rw [Port.endChar_eq]
        simp only [sent]
        rcases p.frame with _ | ⟨_ | _, _⟩ <;> rfl
      have ends {f : Port → Port} (left : (sent p).transmit finish = f p) :
          exec (.characterTransmitted x) s = .next (s1.onPort x f) := by
        refine (exec_characterTransmitted_waits char waits).trans (congrArg Host.Outcome.next (State.onPort_congr ?_))
        exact (congrArg (Port.transmit finish) ended).trans left
      refine ⟨fun f queued => ?_, fun queued stopped => ?_, fun queued spent => ?_,
        fun b rest isReply queued running frame => ?_⟩
      · refine ends ((Port.transmit_queued (p := sent p) rfl queued finish).trans ?_)
        cases f <;> rfl
      · exact ends (Port.Still.transmit (p := sent p) (.inr ⟨queued, .inl stopped⟩) finish)
      · refine ends (Port.Still.transmit (p := sent p) (.inr ⟨queued, .inr ?_⟩) finish)
        rcases spent with none_ | ⟨r, last⟩
        · simp only [sent, none_]
        · simp only [sent, last]
      · refine ends (Port.transmit_goesOn (p := sent p) rfl queued running ?_ finish)
        simp only [sent, frame]
  case frame =>
    intro body check sentAs
    rw [show check = checkByte body from (checkByte_eq body).symm]
    rfl
  case notices =>
    intro n lost x two yes station number status carrier source ended purpose clock content
    -- The codes that a match of the statement or a run over the towers gives; the others agree by their definitions.
    have number_eq (q : Option PatternNo) : patternCode q = number q := by cases q <;> rfl
    have clock_eq (c : Option Reading) : clockBytes c = clock c := by cases c <;> rfl
    have towers_eq (v : Vector Status 5) : statusBytes v = [status v[0], status v[1], status v[2], status v[3], status v[4]] :=
      statusBytes_eq v
    have out_eq (v : Vector Bool 5) :
        flagBits v = yes v[0] + 2 * yes v[1] + 4 * yes v[2] + 8 * yes v[3] + 16 * yes v[4] := flagBits_eq v
    cases n
    case outOfTolerance =>
      simp only [content, ← number_eq, ← out_eq]
      rfl
    case arrayStatus =>
      simp only [content, ← number_eq, ← towers_eq]
      rfl
    all_goals
      simp only [content, ← number_eq, ← clock_eq]
      rfl

end Machine
end Sys2Proof

/-! PROOFS. What a step does with the host's queue: the command at its front acts on the rest, and an empty queue idles. -/
namespace Sys2Proof
namespace Machine

theorem step_of_pending_cons {s : State} {c : Instr} {rest : List Instr} (queued : s.pending = c :: rest) :
    step s = exec c { s with pending := rest } := by
  simp only [step, queued]

theorem step_of_pending_nil {s : State} (empty : s.pending = []) : step s = .next (idle s) := by
  simp only [step, empty]

/-- Settles O1, by the two cases of the queue. -/
theorem stepTakesTheFront : Obligations.StepTakesTheFront :=
  fun _ => ⟨fun _ _ queued => step_of_pending_cons queued, fun empty => step_of_pending_nil empty⟩

end Machine
end Sys2Proof
